-- ==== Sys2Proof/Word.lean ====
section
/-!
DEFINITION. The word types of the YD-1024 and their plainest arithmetic (R4, R5, R56).
Everything a later test could show wrong lives in `Decode.lean` or in a file of `Machine/`.
-/
namespace Sys2Proof

/-- One byte of memory. -/
abbrev Byte := BitVec 8

/-- A 16-bit half. -/
abbrev Half := BitVec 16

/-- The contents of a lane or gang register: 32 bits (R7). -/
abbrev Word := BitVec 32

/-- A 64-bit value: a register pair, a generic address, a timeline counter. -/
abbrev Dword := BitVec 64

/-- The 64-bit value held by a register pair, low half first (R62). -/
def pair (lo hi : Word) : Dword := hi ++ lo

/-- Bits 31:0 of a 64-bit value. -/
def lo32 (x : Dword) : Word := x.extractLsb' 0 32

/-- Bits 63:32 of a 64-bit value. -/
def hi32 (x : Dword) : Word := x.extractLsb' 32 32

/-- All ones for true and zero for false: the value a compare writes (R99). -/
def boolWord (b : Bool) : Word := if b then 0xFFFFFFFF#32 else 0#32

/-- `n` as a 32-bit word, modulo 2^32. -/
def w32 (n : Nat) : Word := BitVec.ofNat 32 n

end Sys2Proof
end

