-- ==== Sys2Proof/Config.lean ====
section
/-!
DEFINITION. What an implementation fixes, and the free values: what the manual leaves open.
A constant with no body can take any value, so a claim that mentions one holds whatever it is.
-/
namespace Sys2Proof.Config

/-- A value the manual leaves open, one for each draw: the machine counts its draws in
`State.fresh`. Used where log entries 40 to 49 say so. -/
opaque freeWord : Nat → BitVec 32

/-- The private exponent of the device identity key, created inside the device and never readable (R377);
log entry 40. -/
opaque devicePrivate : BitVec 3072

/-- The vendor's key, whose digest is fused, with which the identity record was signed (R365, R377); log
entry 40. -/
opaque vendorModulus : BitVec 3072
opaque vendorPrivate : BitVec 3072

/-- What a byte written under one data key reads as under another (R166): `(reader's key, writer's key,
place, byte)`; log entry 45. -/
opaque wrongKey : Nat → Nat → Nat → BitVec 8 → BitVec 8

/-- The public key of the unlock authority, whose digest is fused (R335). -/
opaque authorityModulus : BitVec 3072
opaque authorityExponent : BitVec 32

/-- What the boot ROM makes of a firmware image's bytes, whose layout the manual does not give: header
well formed, signature verified under the fused vendor key, security version, management key digests
(R365, R368). Log entry 42. -/
opaque fwHeaderOk : List (BitVec 8) → Bool
opaque fwSigned : List (BitVec 8) → Bool
opaque fwVersion : List (BitVec 8) → BitVec 32
opaque fwKeys : List (BitVec 8) → List Nat

/-- The device identity key's public part (R339, R377). -/
opaque deviceModulus : BitVec 3072
opaque deviceExponent : BitVec 32

/-- The fused device identifier SYS.DEV_ID (R334). -/
opaque deviceId : BitVec 64

/-- The fused minimum security version of a firmware image (R365). -/
opaque minSecurityVersion : BitVec 32

/-- The translated object of a Parber module, byte by byte (R363): the manual fixes its effect and
not its words. `(module's SHA-256, index)`. Log entry 41. -/
opaque translated : Nat → Nat → BitVec 8

/-- The length in bytes of that object. -/
opaque translatedLength : Nat → Nat

/-- The running translator's version (R364). -/
opaque translatorVersion : BitVec 32

/-- The calibration record's bytes measured into M1 (R366), as a digest. -/
opaque calibrationDigest : BitVec 256

/-- The digest of the fence map measured into M2 (R366), by the fenced cores. -/
opaque fenceMapDigest : List Nat → BitVec 256

/-- Which of the details 0 (none), 1, 3 and 4 of status 24 a Parber module's tables, whose layout the manual does
not give, come to: its place in that list, modulo 4 (R363). Log entry 41. -/
opaque parberStatus : List (BitVec 8) → Nat

/-- The 1024 cores of the module (R2). -/
def cores : Nat := 1024
/-- The dies of the module (R2). -/
def dies : Nat := 8
/-- Bytes of a core's scratchpad (R2). -/
def spBytes : Nat := 0x180000
/-- Granules of a core's scratchpad (R169). -/
def granules : Nat := 6144
/-- Gang slots of a core (R11). -/
def slots : Nat := 32
/-- Handler register sets of a core (R311). -/
def trapSets : Nat := 16
/-- Entries of a core's Gutter (R200). -/
def gutterEntries : Nat := 256
/-- Entries of the ready pool (R290). -/
def poolEntries : Nat := 4096
/-- Line entries of the module's version directories (R183). -/
def directoryLines : Nat := 16777216
/-- Pages a core's miss filter holds (R322). -/
def filterPages : Nat := 32
/-- Walks a die runs at once (R322). -/
def dieWalks : Nat := 96
/-- Requests that wait in a die's queue (R322). -/
def dieWalkQueue : Nat := 512
/-- Bytes of the near tier and of the far tier (R166). -/
def nearBytes : Nat := 256000000000
def farBase : Nat := 0x8000000000000
def farBytes : Nat := 2000000000000
/-- The Flashing: erase blocks of 4 MiB in 64 GiB, and the erasures that retire one (R364). -/
def flashBlockBytes : Nat := 0x400000
def flashBlocks : Nat := 0x4000
def blockErasures : Nat := 20000
/-- Lane-register space of a core: 240 KiB of 32-bit registers (R2), counted in v registers of a
32-lane gang: 32 gangs of 60. -/
def laneRegSpace : Nat := 1920
/-- SYS.STEPPING of the modelled part (R1): B0, in production. Log entry 1. -/
def stepping : BitVec 32 := 0x00000B00#32
/-- SYS.RETENTION (R173): at least 250. Log entry 2. -/
def retention : Nat := 250

/-- The position of a die's Purlin refresh cycle at power-up, in 0.1 µs: its phase is not promised (R175); log
entry 81. -/
opaque purlinPhase : Nat → Nat

/-- The physical byte address of a context's version heap, which the loader places (R194): a free value. -/
opaque heapBase : Nat → Nat

end Sys2Proof.Config
end

