-- ==== Sys2Proof/Syntax.lean ====
section
/-!
DEFINITION. The instruction set as syntax: one constructor of `Instr` for every row of the
opcode table. The first 209 are the words of the two compute pipes (R56–R60, R77–R79), the next
46 the words of a copy processor (R251, R252), and the last 95 the steps of the module that have
no word of their own: effects of special-register writes, host messages, and the hardware's own
events, each with the plain data that says which one it is.
-/
namespace Sys2Proof

/-- Bit 31 of a compute word (R56). -/
inductive Pipe where
  | lane
  | gang
deriving DecidableEq, Repr

/-- What issues an instruction: an issue group of a gang (R19), named by the gang's key and the
group's number; a handler instance (R311); or a copy processor of a core (R243). -/
inductive UnitRef where
  | grp (gk gid : Nat)
  | inst (id : Nat)
  | xp (core p : Nat)
deriving DecidableEq, Repr

/-- Format A with every field (R57); `b` also carries IMM6, a selector, or a lane number. -/
structure O3 where
  d : BitVec 6
  a : BitVec 6
  b : BitVec 6
  s : BitVec 2
  w : Bool
  h : BitVec 2
deriving DecidableEq, Repr

/-- Format A with B zero (the Unary shape of R86). -/
structure O2 where
  d : BitVec 6
  a : BitVec 6
  s : BitVec 2
  w : Bool
  h : BitVec 2
deriving DecidableEq, Repr

/-- Format A with W zero. -/
structure O3n where
  d : BitVec 6
  a : BitVec 6
  b : BitVec 6
  s : BitVec 2
  h : BitVec 2
deriving DecidableEq, Repr

/-- Format A with D and W zero. -/
structure OAB where
  a : BitVec 6
  b : BitVec 6
  s : BitVec 2
  h : BitVec 2
deriving DecidableEq, Repr

/-- Format A with only A. -/
structure OA where
  a : BitVec 6
  s : BitVec 2
  h : BitVec 2
deriving DecidableEq, Repr

/-- Format A with only D (the Draw shape of R86). -/
structure OD where
  d : BitVec 6
  s : BitVec 2
  w : Bool
  h : BitVec 2
deriving DecidableEq, Repr

/-- The CR layout of a copy word with I = 0 (R253). -/
structure CrR where
  d : BitVec 4
  a : BitVec 4
  b : BitVec 4
deriving DecidableEq, Repr

/-- The CR layout of a copy word with I = 1 (R253). -/
structure CrI where
  d : BitVec 4
  a : BitVec 4
  i : BitVec 17
deriving DecidableEq, Repr

/-- The header of a host message (R345) with the session it came over: the fields the module
reads; OP is the constructor, LEN the payload's own length, STATUS is 0 in a command. -/
structure Hdr where
  ses : Nat
  die : Nat
  ctx : Nat
  tag : Word
deriving DecidableEq, Repr

/-- A message as it arrives, before its header is known to be good: the header's words, and the length of its
payload in bytes (R345). -/
structure RawMsg where
  header : List Word
  payload : Nat
deriving DecidableEq, Repr

/-- The instructions and steps of the YD-1024: one constructor per row of the opcode table. -/
inductive Instr where
  /-- IADD_A (R90): Wrapping 32-bit add of two registers, in either pipe. -/
  | iaddA (p : Pipe) (o : O3)
  /-- IADD_I (R90): Wrapping 32-bit add of a register and a sign-extended IMM6. -/
  | iaddI (p : Pipe) (o : O3)
  /-- ISUB_A (R90): Wrapping 32-bit subtract of two registers. -/
  | isubA (p : Pipe) (o : O3)
  /-- ISUB_I (R90): Wrapping 32-bit subtract of an immediate. -/
  | isubI (p : Pipe) (o : O3)
  /-- IMUL_A (R90): Low 32 bits of the product of two registers. -/
  | imulA (p : Pipe) (o : O3)
  /-- IMUL_I (R90): Low 32 bits of the product of a register and an immediate. -/
  | imulI (p : Pipe) (o : O3)
  /-- IMULH_S32 (R92): High half of the signed 64-bit product. -/
  | imulhS32 (p : Pipe) (o : O3)
  /-- IMULH_N32 (R92): High half of the unsigned 64-bit product. -/
  | imulhN32 (p : Pipe) (o : O3)
  /-- IMAD (R92): Multiplies two registers and adds the destination, wrapping. -/
  | imad (p : Pipe) (o : O3)
  /-- IADD_SAT_S32 (R91): Signed saturating 32-bit add. -/
  | iaddSatS32 (p : Pipe) (o : O3)
  /-- IADD_SAT_N32 (R91): Unsigned saturating 32-bit add. -/
  | iaddSatN32 (p : Pipe) (o : O3)
  /-- ISUB_SAT_S32 (R91): Signed saturating 32-bit subtract. -/
  | isubSatS32 (p : Pipe) (o : O3)
  /-- ISUB_SAT_N32 (R91): Unsigned saturating 32-bit subtract. -/
  | isubSatN32 (p : Pipe) (o : O3)
  /-- IMIN_S32 (R93): Signed minimum of two registers. -/
  | iminS32 (p : Pipe) (o : O3)
  /-- IMIN_N32 (R93): Unsigned minimum of two registers. -/
  | iminN32 (p : Pipe) (o : O3)
  /-- IMAX_S32 (R93): Signed maximum of two registers. -/
  | imaxS32 (p : Pipe) (o : O3)
  /-- IMAX_N32 (R93): Unsigned maximum of two registers. -/
  | imaxN32 (p : Pipe) (o : O3)
  /-- IABS (R93): Wrapping absolute value. -/
  | iabs (p : Pipe) (o : O2)
  /-- IABS_SAT (R93): Saturating absolute value. -/
  | iabsSat (p : Pipe) (o : O2)
  /-- AND_A (R95): Bitwise AND of two registers. -/
  | andA (p : Pipe) (o : O3)
  /-- OR (R95): Bitwise OR. -/
  | orB (p : Pipe) (o : O3)
  /-- XOR (R95): Bitwise XOR. -/
  | xorB (p : Pipe) (o : O3)
  /-- ANDN (R95): A AND NOT B. -/
  | andn (p : Pipe) (o : O3)
  /-- AND_I (R95): Bitwise AND with a sign-extended immediate. -/
  | andI (p : Pipe) (o : O3)
  /-- SHL_A (R96): Shift left by a register count. -/
  | shlA (p : Pipe) (o : O3)
  /-- SHL_I (R96): Shift left by an immediate count. -/
  | shlI (p : Pipe) (o : O3)
  /-- SHR_A (R96): Logical shift right by a register count. -/
  | shrA (p : Pipe) (o : O3)
  /-- SHR_I (R96): Logical shift right by an immediate count. -/
  | shrI (p : Pipe) (o : O3)
  /-- SAR_A (R96): Arithmetic shift right by a register count. -/
  | sarA (p : Pipe) (o : O3)
  /-- SAR_I (R96): Arithmetic shift right by an immediate count. -/
  | sarI (p : Pipe) (o : O3)
  /-- ROT_A (R96): Rotate left by a register count. -/
  | rotA (p : Pipe) (o : O3)
  /-- ROT_I (R96): Rotate left by an immediate count. -/
  | rotI (p : Pipe) (o : O3)
  /-- BFX_N32 (R97): Extracts a bit field, zero-extended. -/
  | bfxN32 (p : Pipe) (o : O3)
  /-- BFX_S32 (R97): Extracts a bit field, sign-extended. -/
  | bfxS32 (p : Pipe) (o : O3)
  /-- BFI (R97): Inserts a bit field into the destination. -/
  | bfi (p : Pipe) (o : O3)
  /-- POPC (R98): Counts one bits. -/
  | popc (p : Pipe) (o : O2)
  /-- CLZ (R98): Counts leading zero bits. -/
  | clz (p : Pipe) (o : O2)
  /-- BREV (R98): Reverses the bit order. -/
  | brev (p : Pipe) (o : O2)
  /-- MOV (R101): Copies a register or latch value. -/
  | mov (p : Pipe) (o : O2)
  /-- LEA (R94): Adds a signed offset to a 64-bit register-pair address. -/
  | lea (p : Pipe) (o : O3n)
  /-- ICMP_EQ (R99): All ones when A equals B. -/
  | icmpEq (p : Pipe) (o : O3)
  /-- ICMP_NE (R99): All ones when A differs from B. -/
  | icmpNe (p : Pipe) (o : O3)
  /-- ICMP_LT_S32 (R99): Signed less-than compare. -/
  | icmpLtS32 (p : Pipe) (o : O3)
  /-- ICMP_LE_S32 (R99): Signed less-or-equal compare. -/
  | icmpLeS32 (p : Pipe) (o : O3)
  /-- ICMP_GT_S32 (R99): Signed greater-than compare. -/
  | icmpGtS32 (p : Pipe) (o : O3)
  /-- ICMP_GE_S32 (R99): Signed greater-or-equal compare. -/
  | icmpGeS32 (p : Pipe) (o : O3)
  /-- ICMP_LT_N32 (R99): Unsigned less-than compare. -/
  | icmpLtN32 (p : Pipe) (o : O3)
  /-- ICMP_LE_N32 (R99): Unsigned less-or-equal compare. -/
  | icmpLeN32 (p : Pipe) (o : O3)
  /-- SEL (R100): Selects A where the destination is nonzero, else B. -/
  | sel (p : Pipe) (o : O3)
  /-- ICMP_GT_N32 (R99): Unsigned greater-than compare. -/
  | icmpGtN32 (p : Pipe) (o : O3)
  /-- ICMP_GE_N32 (R99): Unsigned greater-or-equal compare. -/
  | icmpGeN32 (p : Pipe) (o : O3)
  /-- IADD_SAT_S16 (R91): Signed saturating 16-bit add, sign-extended. -/
  | iaddSatS16 (p : Pipe) (o : O3)
  /-- IADD_SAT_N16 (R91): Unsigned saturating 16-bit add, zero-extended. -/
  | iaddSatN16 (p : Pipe) (o : O3)
  /-- ISUB_SAT_S16 (R91): Signed saturating 16-bit subtract. -/
  | isubSatS16 (p : Pipe) (o : O3)
  /-- ISUB_SAT_N16 (R91): Unsigned saturating 16-bit subtract. -/
  | isubSatN16 (p : Pipe) (o : O3)
  /-- IADD_S16 (R90): Wrapping 16-bit add, sign-extended. -/
  | iaddS16 (p : Pipe) (o : O3)
  /-- IADD_N16 (R90): Wrapping 16-bit add, zero-extended. -/
  | iaddN16 (p : Pipe) (o : O3)
  /-- ISUB_S16 (R90): Wrapping 16-bit subtract, sign-extended. -/
  | isubS16 (p : Pipe) (o : O3)
  /-- ISUB_N16 (R90): Wrapping 16-bit subtract, zero-extended. -/
  | isubN16 (p : Pipe) (o : O3)
  /-- IMUL_S16 (R90): Low 16 bits of the product, sign-extended. -/
  | imulS16 (p : Pipe) (o : O3)
  /-- IMUL_N16 (R90): Low 16 bits of the product, zero-extended. -/
  | imulN16 (p : Pipe) (o : O3)
  /-- IMUL_SAT (R91): Signed saturating 32-bit multiply. -/
  | imulSat (p : Pipe) (o : O3)
  /-- MOVL (R58): Writes a zero-extended 16-bit immediate. -/
  | movl (p : Pipe) (d : BitVec 6) (m : BitVec 16)
  /-- MOVH (R58): Writes bits 31:16 of the destination, keeping bits 15:0. -/
  | movh (p : Pipe) (d : BitVec 6) (m : BitVec 16)
  /-- FADD_F32 (R151): FP32 add, rounded once. -/
  | faddF32 (o : O3)
  /-- FSUB_F32 (R151): FP32 subtract. -/
  | fsubF32 (o : O3)
  /-- FMUL_F32 (R151): FP32 multiply. -/
  | fmulF32 (o : O3)
  /-- FFMA_F32 (R151): FP32 fused multiply-add into the destination. -/
  | ffmaF32 (o : O3)
  /-- FMIN_F32 (R145): FP32 minimumNumber. -/
  | fminF32 (o : O3)
  /-- FMAX_F32 (R145): FP32 maximumNumber. -/
  | fmaxF32 (o : O3)
  /-- FADD_F16 (R151): FP16 add. -/
  | faddF16 (o : O3)
  /-- FSUB_F16 (R151): FP16 subtract. -/
  | fsubF16 (o : O3)
  /-- FMUL_F16 (R151): FP16 multiply. -/
  | fmulF16 (o : O3)
  /-- FFMA_F16 (R151): FP16 fused multiply-add. -/
  | ffmaF16 (o : O3)
  /-- FMIN_F16 (R145): FP16 minimumNumber. -/
  | fminF16 (o : O3)
  /-- FMAX_F16 (R145): FP16 maximumNumber. -/
  | fmaxF16 (o : O3)
  /-- FADD_BF16 (R151): BF16 add. -/
  | faddBf16 (o : O3)
  /-- FSUB_BF16 (R151): BF16 subtract. -/
  | fsubBf16 (o : O3)
  /-- FMUL_BF16 (R151): BF16 multiply. -/
  | fmulBf16 (o : O3)
  /-- FFMA_BF16 (R151): BF16 fused multiply-add. -/
  | ffmaBf16 (o : O3)
  /-- FMIN_BF16 (R145): BF16 minimumNumber. -/
  | fminBf16 (o : O3)
  /-- FMAX_BF16 (R145): BF16 maximumNumber. -/
  | fmaxBf16 (o : O3)
  /-- FCMP_EQ (R152): FP32 equality compare. -/
  | fcmpEq (o : O3)
  /-- FCMP_LT (R152): FP32 less-than compare. -/
  | fcmpLt (o : O3)
  /-- FCMP_LE (R152): FP32 less-or-equal compare. -/
  | fcmpLe (o : O3)
  /-- FCMP_UN (R152): FP32 unordered compare. -/
  | fcmpUn (o : O3)
  /-- FSCALE (R153): Multiplies an FP32 value by 2 to a signed integer power. -/
  | fscale (o : O3)
  /-- FABS (R154): Clears the sign bit. -/
  | fabs (o : O3)
  /-- FNEG (R154): Inverts the sign bit. -/
  | fneg (o : O3)
  /-- FRCP (R154): Correctly rounded reciprocal. -/
  | frcp (o : O3)
  /-- FRSQ (R154): Correctly rounded reciprocal square root. -/
  | frsq (o : O3)
  /-- FSQRT (R154): Correctly rounded square root. -/
  | fsqrt (o : O3)
  /-- FEXP2 (R154): Correctly rounded 2 to the power a. -/
  | fexp2 (o : O3)
  /-- FLOG2 (R154): Correctly rounded base-2 logarithm. -/
  | flog2 (o : O3)
  /-- FCVT (R155): Converts between float and integer types per the conversion code. -/
  | fcvt (o : O3)
  /-- FCLASS (R156): Writes a one-hot class mask of the operand. -/
  | fclass (o : O3)
  /-- BYTEQ (R103): Per-byte equality mask. -/
  | byteq (o : O3)
  /-- BFIND (R103): Finds the lowest byte equal to a given byte. -/
  | bfind (o : O3)
  /-- BPERM (R103): Permutes bytes by nibble selectors. -/
  | bperm (o : O3)
  /-- CRC_C (R104): Updates a CRC-32C remainder with four bytes. -/
  | crcC (o : O3)
  /-- HMIX (R105): Mixes a value into a hash state. -/
  | hmix (o : O3)
  /-- DFA_STEP4 (R106): Advances a per-lane DFA by four bytes through a scratchpad table. -/
  | dfaStep4 (o : O3)
  /-- RNG_SEED (R110): Seeds the lane's xorshift64 generator. -/
  | rngSeed (o : OAB)
  /-- RNG_NEXT (R110): Steps the generator and writes 32 bits. -/
  | rngNext (o : OD)
  /-- PRUNE (R110): Zeroes A with probability B/2^32 using a generator draw. -/
  | prune (o : O3)
  /-- BALLOT (R113): Forms a mask of acting lanes with nonzero A, optionally into a predicate. -/
  | ballot (o : O3)
  /-- SHFL_IDX (R114): Reads A from an indexed source lane. -/
  | shflIdx (o : O3)
  /-- SHFL_XOR (R114): Reads A from lane XOR k. -/
  | shflXor (o : O3)
  /-- SHFL_UP (R114): Reads A from lane minus k. -/
  | shflUp (o : O3)
  /-- SHFL_DOWN (R114): Reads A from lane plus k. -/
  | shflDown (o : O3)
  /-- XRED (R115): Reduces A over acting lanes in a fixed tree. -/
  | xred (o : O2) (e : BitVec 5)
  /-- XSCAN (R115): Prefix scan of A over acting lanes. -/
  | xscan (o : O2) (x : Bool) (e : BitVec 5)
  /-- ISECT (R116): Intersects two lane-held sorted lists and writes advance counts. -/
  | isect (o : O3n)
  /-- MATCH (R117): Mask of acting lanes with equal A. -/
  | matchL (o : O2)
  /-- BCAST (R117): Broadcasts A of a fixed lane. -/
  | bcast (o : O3)
  /-- BNEXT (R32): Records each acting lane's pending next block. -/
  | bnext (o : OA)
  /-- SETBLK (R44): Sets the rejoin block of a fault fragment's lanes. -/
  | setblk (o : OA)
  /-- LD_S16_A (R198): Loads a sign-extended half at base plus register offset. -/
  | ldS16A (o : O3)
  /-- LD_S16_I (R198): Loads a sign-extended half at base plus scaled immediate. -/
  | ldS16I (o : O3)
  /-- LD_N16_A (R198): Loads a zero-extended half, register offset. -/
  | ldN16A (o : O3)
  /-- LD_N16_I (R198): Loads a zero-extended half, immediate offset. -/
  | ldN16I (o : O3)
  /-- LD_B32_A (R198): Loads a word, register offset. -/
  | ldB32A (o : O3)
  /-- LD_B32_I (R198): Loads a word, immediate offset. -/
  | ldB32I (o : O3)
  /-- ST_B32_A (R198): Stores a word, register offset. -/
  | stB32A (o : O3n)
  /-- ST_B32_I (R198): Stores a word, immediate offset. -/
  | stB32I (o : O3n)
  /-- ST_N16_A (R198): Stores a half, register offset. -/
  | stN16A (o : O3n)
  /-- ST_N16_I (R198): Stores a half, immediate offset. -/
  | stN16I (o : O3n)
  /-- LDC (R204): Loads a word from another cluster core's scratchpad. -/
  | ldc (o : O3)
  /-- STC (R204): Stores a word into another cluster core's scratchpad. -/
  | stc (o : O3n)
  /-- ATOM_ADD (R202): Atomic add returning the old word. -/
  | atomAdd (o : O3n)
  /-- ATOM_AND (R202): Atomic AND. -/
  | atomAnd (o : O3n)
  /-- ATOM_OR (R202): Atomic OR. -/
  | atomOr (o : O3n)
  /-- ATOM_XOR (R202): Atomic XOR. -/
  | atomXor (o : O3n)
  /-- ATOM_MIN_S32 (R202): Atomic signed minimum. -/
  | atomMinS32 (o : O3n)
  /-- ATOM_MAX_S32 (R202): Atomic signed maximum. -/
  | atomMaxS32 (o : O3n)
  /-- ATOM_MIN_N32 (R202): Atomic unsigned minimum. -/
  | atomMinN32 (o : O3n)
  /-- ATOM_MAX_N32 (R202): Atomic unsigned maximum. -/
  | atomMaxN32 (o : O3n)
  /-- ATOM_XCHG (R202): Atomic exchange. -/
  | atomXchg (o : O3n)
  /-- ATOM_CAS (R202): Atomic compare-and-swap. -/
  | atomCas (o : O3n)
  /-- RED_M_ADD (R203): Combiner integer add reduction, fire-and-forget. -/
  | redMAdd (o : O3n)
  /-- RED_M_ADD_F32 (R203): Combiner FP32 add reduction. -/
  | redMAddF32 (o : O3n)
  /-- RED_M_MIN_S32 (R203): Combiner signed minimum reduction. -/
  | redMMinS32 (o : O3n)
  /-- RED_M_MAX_S32 (R203): Combiner signed maximum reduction. -/
  | redMMaxS32 (o : O3n)
  /-- RED_M_MIN_N32 (R203): Combiner unsigned minimum reduction. -/
  | redMMinN32 (o : O3n)
  /-- RED_M_MAX_N32 (R203): Combiner unsigned maximum reduction. -/
  | redMMaxN32 (o : O3n)
  /-- LDV (R205): Loads a word of a named version of a versioned line, waiting if needed. -/
  | ldv (o : O3)
  /-- STV (R186): Creates version m of every line touched. -/
  | stv (o : O3n)
  /-- VLATEST (R205): Reads LATEST of a versioned line. -/
  | vlatest (o : O3)
  /-- LDG_A (R198): Gang-pipe word load, register offset. -/
  | ldgA (o : O3)
  /-- LDG_I (R198): Gang-pipe word load, immediate offset. -/
  | ldgI (o : O3)
  /-- STG_A (R198): Gang-pipe word store, register offset. -/
  | stgA (o : O3n)
  /-- STG_I (R198): Gang-pipe word store, immediate offset. -/
  | stgI (o : O3n)
  /-- VPIN (R189): Pins a version number of a region. -/
  | vpin (o : OAB)
  /-- VUNPIN (R189): Drops one count of a pinned version. -/
  | vunpin (o : OAB)
  /-- VFLOOR (R190): Raises a region's floor and drops versions below it. -/
  | vfloor (o : OAB)
  /-- SPALLOC (R207): Allocates and zeroes a fading scratchpad buffer. -/
  | spalloc (o : O3)
  /-- SPRENEW (R208): Renews a buffer, rewriting its granules and resetting EXPIRY. -/
  | sprenew (o : OAB)
  /-- SPRENEW_Z (R208): Renews a buffer and zeroes every byte. -/
  | sprenewZ (o : OAB)
  /-- SPFREE (R208): Frees a buffer after the gang's own accesses are performed. -/
  | spfree (o : OA)
  /-- SPINFO (R209): Reads a buffer's four tag words. -/
  | spinfo (o : O2)
  /-- PKST (R212): Packs a dense tensor into a sparse record. -/
  | pkst (o : O3)
  /-- PKLD (R213): Expands a sparse record into a dense tensor. -/
  | pkld (o : O3)
  /-- FENCE (R214): Orders predecessor-class accesses before successor-class accesses at a scope. -/
  | fence (o : O3n)
  /-- FLUSH (R215): Pushes writes of a range to the tier and discards cached copies. -/
  | flush (o : OAB)
  /-- TD_LOAD (R217): Loads a tensor descriptor from memory. -/
  | tdLoad (o : OAB)
  /-- TD_SET (R217): Writes one word of a tensor descriptor. -/
  | tdSet (o : OAB)
  /-- MLOAD (R273): Queues a fill of the shadow plane. -/
  | mload (o : OAB)
  /-- MSWAP (R274): Queues activation of the shadow plane. -/
  | mswap (s h : BitVec 2)
  /-- MSTREAM (R275): Queues streaming of rows past the active plane into accumulators. -/
  | mstream (o : OAB)
  /-- MZERO (R276): Queues zeroing of accumulator rows. -/
  | mzero (o : OA)
  /-- MDRAIN (R277): Drains an accumulator row half into lane registers. -/
  | mdrain (o : O2) (e : BitVec 3)
  /-- MDRAIN_XP (R277): Drains accumulator rows as a tile to a copy processor's port. -/
  | mdrainXp (o : OAB)
  /-- MTILE (R279): Queues the tile macro of loads, swaps and streams. -/
  | mtile (o : O3n)
  /-- MSTAT (R281): Reads matrix engine status; may clear flags, fault or release ownership. -/
  | mstat (o : O2)
  /-- BRA (R119): Moves every slice of the group to the target. -/
  | bra (f : BitVec 19)
  /-- BRC_ANY (R119): Per-slice branch when any live lane's predicate bit is set; may part the group. -/
  | brcAny (q : BitVec 3) (pol : Bool) (f : BitVec 19)
  /-- BRC_ALL (R119): Per-slice branch when all live lanes' predicate bits are set. -/
  | brcAll (q : BitVec 3) (pol : Bool) (f : BitVec 19)
  /-- CALL (R119): Writes the return address to g59 and branches. -/
  | call (f : BitVec 19)
  /-- RET (R119): Moves the group to the address in a gang register. -/
  | ret (o : OA)
  /-- REGANG (R20): Waits for parted slices and merges them. -/
  | regang (s : BitVec 2)
  /-- EXIT (R23): Retires the group's live lanes, leaving cohorts and arriving at bound barriers. -/
  | exitG (s : BitVec 2)
  /-- NOP (R120): Takes one gang-pipe slot. -/
  | nop (s : BitVec 2)
  /-- YIELD (R120): Makes the group not ready for 16 clocks. -/
  | yield (s : BitVec 2)
  /-- AUTO_ENTER (R39): Enters an automaton region and takes the first vote. -/
  | autoEnter (i : BitVec 6) (f : BitVec 17)
  /-- AUTO_STEP (R35): Ends a pass; after the last pass commits pending blocks, votes and starts the next step or exits. -/
  | autoStep
  /-- AUTO_EXIT (R41): Abandons the step, sets every lane DONE and exits the region. -/
  | autoExit
  /-- BAR_INIT (R125): Initialises a barrier with an expected count or cohort. -/
  | barInit (o : OAB)
  /-- BAR_ARRIVE (R125): Takes a phase token and queues an arrival. -/
  | barArrive (o : O2)
  /-- BAR_WAIT (R125): Waits until the token's phase is done, poisoned or the bound expires. -/
  | barWait (o : OAB)
  /-- BAR_ARM (R125): Adds bytes to a barrier's BYTES count. -/
  | barArm (o : OAB)
  /-- BAR_TEST (R125): Reads one barrier state word. -/
  | barTest (o : O3)
  /-- COH_JOIN (R27): Joins a cohort with an expected count and waits for formation. -/
  | cohJoin (o : O3)
  /-- COH_LEAVE (R27): Leaves a cohort, leaving a rank hole. -/
  | cohLeave (o : OA)
  /-- COH_INFO (R128): Reads cohort count, presence, rank and hole mask. -/
  | cohInfo (o : O2)
  /-- NODE_POST (R292): Submits a launch record from device code. -/
  | nodePost (o : O2)
  /-- TL_WAIT (R131): Waits until a timeline counter reaches a value. -/
  | tlWait (o : OAB)
  /-- TL_READ (R131): Reads a 64-bit timeline counter. -/
  | tlRead (o : O2)
  /-- XP_START (R244): Joins or opens a start of a copy program. -/
  | xpStart (o : OAB)
  /-- XP_STATUS (R250): Reads copy processor status, optionally clearing a fault. -/
  | xpStatus (o : O2)
  /-- IDEM (R133): Sets the idempotent entry and checkpoints generators. -/
  | idem (s : BitVec 2)
  /-- CONT_OPEN (R133): Pushes a containment handler level. -/
  | contOpen (a : BitVec 6) (s : BitVec 2)
  /-- CONT_CLOSE (R133): Pops a containment level. -/
  | contClose (s : BitVec 2)
  /-- TRAP (R133): Raises cause 0x01 with a number. -/
  | trap (n : BitVec 6) (s : BitVec 2)
  /-- RETT (R314): Returns from a handler instance: resume, rejoin or end. -/
  | rett
  /-- SYSRD (R134): Reads a special register into a gang register. -/
  | sysrd (d : BitVec 6) (n : BitVec 12) (s : BitVec 2) (w : Bool) (h : BitVec 2)
  /-- SYSWR (R134): Writes a special register that has no behaviour of its own. -/
  | syswr (d : BitVec 6) (n : BitVec 12) (s h : BitVec 2)
  /-- STEP_MARK (R133): Counts a step and stops the gang if a quiesce is pending. -/
  | stepMark (s : BitVec 2)
  /-- MOVS_GET (R135): Copies an interrupted code's gang register into the handler. -/
  | movsGet (d i : BitVec 6) (w : Bool) (h : BitVec 2)
  /-- MOVS_PUT (R135): Writes a handler value into an interrupted code's gang register. -/
  | movsPut (i a : BitVec 6) (h : BitVec 2)
  /-- XP_NOP (R265): Copy processor no-op. -/
  | xpNop
  /-- XP_HALT (R265): Waits for all commands and follows, clears the barrier set, ends the program. -/
  | xpHalt
  /-- XP_MOVI (R253): Writes a 16-bit immediate low, or high with MOVI.h. -/
  | xpMovi (d : BitVec 4) (hs : Bool) (m : BitVec 16)
  /-- XP_LDX (R254): Loads one word as an engine read. -/
  | xpLdx (d : BitVec 4) (l : BitVec 3) (o : BitVec 16)
  /-- XP_ADD_REG (R253): Wrapping add of two registers. -/
  | xpAddReg (o : CrR)
  /-- XP_ADD_IMM (R253): Wrapping add of an immediate. -/
  | xpAddImm (o : CrI)
  /-- XP_SUB_REG (R253): Wrapping subtract of a register. -/
  | xpSubReg (o : CrR)
  /-- XP_SUB_IMM (R253): Wrapping subtract of an immediate. -/
  | xpSubImm (o : CrI)
  /-- XP_MUL_REG (R253): Low 32 bits of a register product. -/
  | xpMulReg (o : CrR)
  /-- XP_MUL_IMM (R253): Low 32 bits of a product with an immediate. -/
  | xpMulImm (o : CrI)
  /-- XP_SHL_REG (R253): Shift left by a register. -/
  | xpShlReg (o : CrR)
  /-- XP_SHL_IMM (R253): Shift left by an immediate. -/
  | xpShlImm (o : CrI)
  /-- XP_SHR_REG (R253): Logical shift right by a register. -/
  | xpShrReg (o : CrR)
  /-- XP_SHR_IMM (R253): Logical shift right by an immediate. -/
  | xpShrImm (o : CrI)
  /-- XP_AND_REG (R253): Bitwise AND of registers. -/
  | xpAndReg (o : CrR)
  /-- XP_AND_IMM (R253): Bitwise AND with an immediate. -/
  | xpAndImm (o : CrI)
  /-- XP_OR_REG (R253): Bitwise OR of registers. -/
  | xpOrReg (o : CrR)
  /-- XP_OR_IMM (R253): Bitwise OR with an immediate. -/
  | xpOrImm (o : CrI)
  /-- XP_CMP_EQ_REG (R253): 1 if equal to a register. -/
  | xpCmpEqReg (o : CrR)
  /-- XP_CMP_EQ_IMM (R253): 1 if equal to an immediate. -/
  | xpCmpEqImm (o : CrI)
  /-- XP_CMP_NE_REG (R253): 1 if not equal to a register. -/
  | xpCmpNeReg (o : CrR)
  /-- XP_CMP_NE_IMM (R253): 1 if not equal to an immediate. -/
  | xpCmpNeImm (o : CrI)
  /-- XP_CMP_LT_REG (R253): 1 if signed less than a register. -/
  | xpCmpLtReg (o : CrR)
  /-- XP_CMP_LT_IMM (R253): 1 if signed less than an immediate. -/
  | xpCmpLtImm (o : CrI)
  /-- XP_CMP_LTU_REG (R253): 1 if unsigned less than a register. -/
  | xpCmpLtuReg (o : CrR)
  /-- XP_CMP_LTU_IMM (R253): 1 if unsigned less than an immediate. -/
  | xpCmpLtuImm (o : CrI)
  /-- XP_BR (R255): Unconditional branch. -/
  | xpBr (f : BitVec 16)
  /-- XP_BZ (R255): Branches when a register is zero. -/
  | xpBz (a : BitVec 4) (f : BitVec 16)
  /-- XP_BNZ (R255): Branches when a register is nonzero. -/
  | xpBnz (a : BitVec 4) (f : BitVec 16)
  /-- XP_LOOP_REG (R256): Opens a counted loop with a register count. -/
  | xpLoopReg (a : BitVec 4) (f : BitVec 10)
  /-- XP_LOOP_IMM (R256): Opens a counted loop with an immediate count. -/
  | xpLoopImm (a : BitVec 4) (m : BitVec 11) (f : BitVec 10)
  /-- XP_ENDL (R256): Closes a loop iteration. -/
  | xpEndl
  /-- XP_CUR_SET (R257): Binds a cursor to a descriptor. -/
  | xpCurSet (k : BitVec 2) (n : BitVec 7)
  /-- XP_CUR_STEP_REG (R257): Adds a register to a cursor coordinate. -/
  | xpCurStepReg (k : BitVec 2) (d : BitVec 3) (a : BitVec 4)
  /-- XP_CUR_STEP_IMM (R257): Adds an immediate to a cursor coordinate. -/
  | xpCurStepImm (k : BitVec 2) (d : BitVec 3) (m : BitVec 16)
  /-- XP_CUR_AT (R257): Sets a cursor position, or its window with CUR.AT.w. -/
  | xpCurAt (k : BitVec 2) (d : BitVec 3) (w : Bool) (a : BitVec 4)
  /-- XP_MOVE (R258): Starts a box copy between cursors. -/
  | xpMove (d s : BitVec 2) (nb st : Bool) (b : BitVec 8)
  /-- XP_MOVE_A (R260): Adds a drained FP32 tile into memory as AT-class updates. -/
  | xpMoveA (d : BitVec 2) (nb st : Bool) (b : BitVec 8)
  /-- XP_MOVE_PK (R260): Writes a drained tile as encoded. -/
  | xpMovePk (d : BitVec 2) (nb st : Bool) (b : BitVec 8)
  /-- XP_VPUB (R261): Stages and copies into a versioned region under one version number. -/
  | xpVpub (d s : BitVec 2) (nb st : Bool) (b : BitVec 8) (v : BitVec 4)
  /-- XP_FOLLOW (R262): Attaches an MTILE to the preceding command. -/
  | xpFollow (s a : BitVec 7) (r : BitVec 8) (z : Bool)
  /-- XP_PSEL (R263): Ranks rows by exact dot product and writes the top k indices. -/
  | xpPsel (s q : BitVec 7) (l : BitVec 3) (k : BitVec 8)
  /-- XP_ARRIVE (R264): Counts the processor's arrival at a barrier after its commands complete. -/
  | xpArrive (n : BitVec 8)
  /-- XP_WAITB (R264): Waits for a barrier phase. -/
  | xpWaitb (a : BitVec 4) (n : BitVec 8)
  /-- XP_TLSIG (R264): Signals a timeline after earlier commands complete at module scope. -/
  | xpTlsig (k : BitVec 4) (l : BitVec 3)
  /-- XP_MOVE_G (R259): Gathers slices by an index list. -/
  | xpMoveG (k : BitVec 4) (d s : BitVec 7) (l : BitVec 3) (st : Bool) (b : BitVec 8)
  /-- AUTO_SEAL (R53): A write to SYS.AUTO_SEAL checks and seals an image into the table. -/
  | autoSeal (ctx core : Nat) (v : Word)
  /-- AUTO_UNSEAL (R53): A write to SYS.AUTO_UNSEAL frees an image-table entry. -/
  | autoUnseal (ctx : Nat) (v : Word)
  /-- VREG_DESIGNATE (R183): SYS.VREG_CMD OP 0 designates a versioned region. -/
  | vregDesignate (ctx core : Nat) (v : Word)
  /-- VREG_RELEASE (R183): SYS.VREG_CMD OP 1 releases a region, writing back latest versions. -/
  | vregRelease (ctx core : Nat) (v : Word)
  /-- SEC_UNLOCK (R337): SYS.SEC_CMD OP 1 starts a debug unlock with a token. -/
  | secUnlock (core : Nat)
  /-- SEC_ATTEST (R339): SYS.SEC_CMD OP 2 starts writing a signed attestation report. -/
  | secAttest (core : Nat)
  /-- SEC_IDENTITY (R377): SYS.SEC_CMD OP 3 starts writing the identity record. -/
  | secIdentity (core : Nat)
  /-- SEC_COMMAND_DONE (R338): A security command finishes its work and clears BUSY. -/
  | secCommandDone
  /-- TLB_INV_PAGE (R324): A write to SYS.TLB_INV_HI with ALL 0 starts invalidation of one page. -/
  | tlbInvPage (ctx : Nat) (v : Word)
  /-- TLB_INV_ALL (R324): A write to SYS.TLB_INV_HI with ALL 1 starts invalidation of every translation. -/
  | tlbInvAll (ctx : Nat) (v : Word)
  /-- TLB_INV_COMPLETE (R324): An invalidation completes on every die and its SYSWR completes. -/
  | tlbInvComplete (ctx : Nat)
  /-- PT_ROOT_WRITE (R321): A write to SYS.PT_ROOT_LO/HI sets the root and invalidates all translations. -/
  | ptRootWrite (ctx : Nat) (high : Bool) (v : Word)
  /-- QUIESCE_REQUEST (R331): REQ in SYS.QUIESCE_CTL starts a quiesce of the context. -/
  | quiesceRequest (ctx : Nat)
  /-- QUIESCE_RELEASE (R331): REL in SYS.QUIESCE_CTL releases a complete cut. -/
  | quiesceRelease (ctx : Nat)
  /-- WAIT_BOUND_WRITE (R132): A write to SYS.WAIT_BOUND applies at once to waits in progress. -/
  | waitBoundWrite (ctx : Nat) (v : Word)
  /-- RUN_BOUND_WRITE (R320): A write to SYS.RUN_BOUND applies at once to runs in progress. -/
  | runBoundWrite (ctx : Nat) (v : Word)
  /-- VDIR_DATA_READ (R194): A read of SYS.VDIR_DATA returns a directory word and advances IDX. -/
  | vdirDataRead (ctx : Nat)
  /-- SUBMIT (R291): Host graph submission of 1 to 256 launch records. -/
  | submit (m : Hdr) (recs : List (List Word))
  /-- MEMWR (R347): Host write of bytes to a reachable address. -/
  | memwr (m : Hdr) (addr : Dword) (bytes : List Byte)
  /-- MEMRD (R347): Host read of bytes. -/
  | memrd (m : Hdr) (addr : Dword) (len : Nat)
  /-- HOST_FLUSH (R348): Host flush of a range to the tier. -/
  | hostFlush (m : Hdr) (addr : Dword) (len : Nat)
  /-- HOST_QUIESCE_REQUEST (R331): Host QUIESCE message with the request bit. -/
  | hostQuiesceRequest (m : Hdr)
  /-- HOST_QUIESCE_RELEASE (R331): Host QUIESCE message with the release bit. -/
  | hostQuiesceRelease (m : Hdr)
  /-- COLL (R351): Host queues a collective on a die's collective engine. -/
  | coll (m : Hdr) (rec : List Word)
  /-- COLL_COMPLETE (R351): A collective completes under one epoch, replies and signals its timeline. -/
  | collComplete (die : Nat) (peers : List (Nat × List Word))
  /-- COLL_MEMBER_FAIL (R352): A member is declared failed; the group shrinks and collectives restart. -/
  | collMemberFail (ctx group rank : Nat)
  /-- LOAD (R359): Management LOAD piece; the last piece loads and links a code object. -/
  | loadObj (m : Hdr) (piece : Word) (bytes : List Byte)
  /-- LOADP (R364): Management LOADP piece; the last piece translates or reuses a Parber module and loads it. -/
  | loadp (m : Hdr) (piece : Word) (bytes : List Byte)
  /-- UNLOAD (R362): Unloads a code object if nothing uses it. -/
  | unload (m : Hdr) (handle : Word)
  /-- HANDLER (R361): Names the context's trap handler by symbol. -/
  | handlerName (m : Hdr) (name : List Byte)
  /-- CACHEINV (R364): Clears the Flashing cache or one entry. -/
  | cacheinv (m : Hdr) (key : List Byte)
  /-- FWLOAD (R365): Firmware image message; the last one is checked and releases the dies. -/
  | fwload (m : Hdr) (piece : Word) (bytes : List Byte)
  /-- OPEN (R368): Binds the session to a new tenant context or the management context. -/
  | openCtx (m : Hdr) (payload : List Word) (psk : List Byte)
  /-- END (R368): Ends a tenant context and zeroises its key and pages. -/
  | endCtx (m : Hdr)
  /-- HEALTH (R368): Returns SYS.POWER and SYS.CAPACITY. -/
  | healthQ (m : Hdr)
  /-- PAGE_SERVICE_ANSWER (R323): The host's reply to PAGEREQ resolves or refuses a page record. -/
  | pageServiceAnswer (rec : Nat) (resolved : Bool)
  /-- UNRELIABLE_PACKET_DROP (R343): An unreliable-mode packet arrives and is dropped and counted. -/
  | unreliablePacketDrop
  /-- ISSUE_QUEUE_PERFORM (R220): An issue-queue entry is performed or leaves its queue. -/
  | issueQueuePerform (id lane : Nat)
  /-- STORE_BUFFER_APPLY (R224): A store buffer entry is applied in the die view and originates a write. -/
  | storeBufferApply (id : Nat)
  /-- APPLY_QUEUE_TAKE (R226): A die takes another die's write from its apply queue. -/
  | applyQueueTake (die id : Nat)
  /-- HOME_UPDATE_ARRIVAL (R227): An atomic or reduction update arrives at its home and is applied. -/
  | homeUpdateArrival (id : Nat)
  /-- GUTTER_REPLAY (R200): A Gutter entry is replayed after its page is present. -/
  | gutterReplay (id : Nat)
  /-- TRANSLATION_WALK_COMPLETE (R322): A die walk ends, releasing waiters or sending a page record. -/
  | translationWalkComplete (die ctx page : Nat)
  /-- BAR_ARRIVAL_COUNTED (R233): A queued or remote arrival is counted at the barrier. -/
  | barArrivalCounted (id : Nat)
  /-- COH_JOIN_TIMEOUT (R27): A waiting joiner's wait passes the barrier bound and completes with 0x1E. -/
  | cohJoinTimeout (u : UnitRef)
  /-- BAR_WAIT_BOUND_EXPIRE (R125): A barrier wait passes its bound and raises 0x1F. -/
  | barWaitBoundExpire (u : UnitRef)
  /-- TL_WAIT_BOUND_EXPIRE (R131): A timeline wait passes its bound and raises 0x29. -/
  | tlWaitBoundExpire (u : UnitRef)
  /-- VERSION_WAIT_BOUND_EXPIRE (R188): A versioned read passes the region's wait bound and raises 0x12. -/
  | versionWaitBoundExpire (u : UnitRef)
  /-- VPUB_PUBLISH (R192): The last line of a staged set arrives and the set is published. -/
  | vpubPublish (core xp cmd : Nat)
  /-- COPY_PROGRAM_BEGIN (R245): A complete start begins running on an idle copy processor. -/
  | copyProgramBegin (core xp : Nat)
  /-- COPY_WRITE_COMPLETE (R248): A copy write becomes complete at a barrier's scope and counts down BYTES. -/
  | copyWriteComplete (core xp cmd dst : Nat)
  /-- COPY_COMMAND_COMPLETE (R247): A copy command's last write is applied or its set published. -/
  | copyCommandComplete (core xp cmd : Nat)
  /-- COPY_WAIT_BOUND_EXPIRE (R260): A copy processor wait at WAITB or the drain port passes its bound. -/
  | copyWaitBoundExpire (core xp : Nat)
  /-- FOLLOW_MTILE_ISSUE (R239): A followed command's bytes have landed and its MTILE is issued. -/
  | followMtileIssue (core xp slot : Nat)
  /-- MATRIX_COMMAND_EXECUTE (R272): The matrix sequencer executes the next queued command. -/
  | matrixCommandExecute (core : Nat)
  /-- DRAIN_PORT_BOUND_EXPIRE (R277): A drain held by a full port passes its bound and faults with 0x29. -/
  | drainPortBoundExpire (core : Nat)
  /-- MATRIX_STATE_SAVE (R268): Matrix state is saved and released at an interrupt point. -/
  | matrixStateSave (core : Nat)
  /-- MATRIX_STATE_RESTORE (R326): Saved matrix state is restored before the owner's next command. -/
  | matrixStateRestore (core : Nat)
  /-- PURLIN_REFRESH_START (R175): A Purlin bank group enters its refresh window. -/
  | purlinRefreshStart (die : Nat)
  /-- PURLIN_REFRESH_END (R175): A refresh window ends and stalled reads proceed. -/
  | purlinRefreshEnd (die : Nat)
  /-- HOLD_LAPSE (R66): A W=1 pipe hold lapses after 32 or 64 clocks. -/
  | holdLapse (u : UnitRef) (p : Pipe)
  /-- YIELD_EXPIRE (R120): A yielded group becomes ready after 16 clocks. -/
  | yieldExpire (u : UnitRef)
  /-- AGE_LIMIT_REACHED (R24): A ready group's age counter reaches SYS.AGE_LIMIT. -/
  | ageLimitReached (u : UnitRef)
  /-- DEFERRED_CAUSE_DELIVERY (R309): A pending deferred cause stops the gang or lanes at a boundary. -/
  | deferredCauseDelivery (gk : Nat)
  /-- HANDLER_INSTANCE_START (R311): A handler instance takes a free register set and starts. -/
  | handlerInstanceStart (core : Nat)
  /-- RUN_BOUND_WATCHDOG (R320): A run passes SYS.RUN_BOUND and raises 0x3E. -/
  | runBoundWatchdog (u : UnitRef)
  /-- ADMIT_UNIT (R295): A dispatch unit admits a READY admission unit when capacity frees. -/
  | admitUnit (node : Nat) (cores : List Nat)
  /-- ADMISSION_SKIP_TIMEOUT (R295): A unit skipped for 64 µs blocks admissions and requests pre-emption. -/
  | admissionSkipTimeout (node : Nat)
  /-- GANG_SAVE_COMPLETE (R326): A victim's save ends; when all are saved the context gets 0x39 and buffers are handled. -/
  | gangSaveComplete (gk : Nat)
  /-- GANG_READMIT (R329): An evicted gang is readmitted to its core. -/
  | gangReadmit (gk : Nat)
  /-- READMIT_BOUND_SWAP (R330): An evicted gang passes READMIT and a swap is made. -/
  | readmitBoundSwap (ctx core : Nat)
  /-- SWEEPER_RENEW (R327): A kept buffer's remaining life falls to BUDGET and the sweeper renews it. -/
  | sweeperRenew (ctx core idx : Nat)
  /-- BUFFER_RESTORE_START (R328): A saved buffer's restore starts on readmission or access. -/
  | bufferRestoreStart (ctx core idx : Nat)
  /-- BUFFER_RESTORE_COMPLETE (R328): A restore ends, clearing SAVED with a fresh EXPIRY. -/
  | bufferRestoreComplete (ctx core idx : Nat)
  /-- QUIESCE_CUT_COMPLETE (R331): All gangs stop at one count; STATE 2 and cause 0x3A are given. -/
  | quiesceCutComplete (ctx : Nat)
  /-- QUIESCE_BOUND_EXPIRE (R331): A quiesce passes BOUND, ends with STATE 3 and releases gangs. -/
  | quiesceBoundExpire (ctx : Nat)
  /-- NODE_COMPLETE (R293): A DRAINING node's writes complete, its DONE store is performed and the entry frees. -/
  | nodeComplete (node : Nat)
  /-- SCRUB_VISIT (R370): The 1 ms scrub reads and corrects a scratchpad or Purlin line. -/
  | scrubVisit (purlin : Bool) (unit addr : Nat)
  /-- CONTROL_PARITY_ERROR (R370): A control-parity error raises 0x3D and fences the core. -/
  | controlParityError (core : Nat)
  /-- ERROR_RATE_THRESHOLD (R373): An array's corrected-error rate exceeds its threshold; undervolting is withdrawn. -/
  | errorRateThreshold (core : Nat)
  /-- PREDICTIVE_FAILURE_TIMEOUT (R373): The rate stays above threshold for 10 s at nominal; PF is raised and the core fenced. -/
  | predictiveFailureTimeout (core : Nat)
  /-- OPP_LOWER (R369): A power, current or temperature limit lowers the operating point one step. -/
  | oppLower
  /-- OPP_RAISE (R369): The limiting condition is absent for 100 ms and the point is raised. -/
  | oppRaise
  /-- OPP_CHANGE_COMPLETE (R369): An operating-point change ends after 20 µs and pipes resume. -/
  | oppChangeComplete
  /-- OVER_LIMIT_SHUTDOWN (R369): Tj 105 °C at 300 MHz or 4000 A raises 0x3D and powers down. -/
  | overLimitShutdown (rail : Bool) (core : Nat)
  /-- POWER_UP (R365): Power-up holds dies in reset and awaits firmware. -/
  | powerUp
  /-- LIFECYCLE_ADVANCE (R367): Vendor tooling blows fuses to advance the lifecycle state. -/
  | lifecycleAdvance (st : BitVec 3)
  /-- BUFFER_EXPIRY (R171): SYS.FADE_TICK reaches a scratchpad buffer's EXPIRY, so the buffer becomes expired and its tag reads STALE 1. -/
  | bufferExpiry (ctx core idx : Nat)
  /-- RENEWAL_COMPLETE (R172): A renewal or SPALLOC zeroing finishes its last granule, releasing waiting accesses and letting a queued renewal start. -/
  | renewalComplete (ctx core idx : Nat)
  /-- RIDGE_LINK_ERROR (R307): A Ridge transfer between dies fails, and cause 0x37 is held deferred for the issuing gang. -/
  | ridgeLinkError (gk lanes target : Nat) (pc : Word)
  /-- POWER_LOSS (R364): Power is lost: all state is lost, and uncommitted Flashing entries are left to be discarded at power-up. -/
  | powerLoss
  /-- DEBUG_PORT_REQUEST (R338): Once the debug port is open, an action on it can raise breakpoint 0x3B or single step 0x3C. -/
  | debugPortRequest (u : UnitRef) (step : Bool) (bp : BitVec 32)
  /-- MALFORMED_MESSAGE (R345): A message arrives with an unassigned OP, a nonzero reserved header field or a mismatched LEN, and is answered with status 1. -/
  | malformedMessage (ses : Nat) (m : RawMsg)
  /-- RAIL_UNDERVOLT (R373): The controller of its own accord lowers a core rail below nominal within 0.38–0.50 V and sets UV. -/
  | railUndervolt (core : Nat)
  /-- ERROR_RATE_BELOW_THRESHOLD (R373): An array's corrected-error rate falls below its threshold during the 10 s watch, cancelling the period so that no flag is raised. -/
  | errorRateBelowThreshold (core : Nat)
deriving DecidableEq, Repr

end Sys2Proof
end

