-- ==== Sys2Proof/Machine/State.lean ====
section
/-!
DEFINITION. The state of the module, as plain data: every register, memory, queue and table the
manual names, and the model's own oracle fields (`agenda`, `defers`, `fresh`, `shadow`, `cur`),
which say what happens next where the manual leaves it open.

A map whose entries are nearly all alike is a `Sparse` list: entries sorted by key, none equal to
the map's default (`Machine/Sparse.lean`).
-/
namespace Sys2Proof.Machine

/-- A sparse map: (key, value) pairs, keys strictly rising, no value equal to the default. -/
abbrev Sparse (α : Type) := List (Nat × α)

/-! ## Stops of the model -/

/-- Why the machine stops with a fault. -/
inductive Fault where
  /-- Raised by the meaning of an instruction word when no unit that exists is issuing it
  (`State.cur`): the manual has no such case. Safe: the machine stops. -/
  | noUnit
deriving DecidableEq, Repr

/-- Why the machine refuses an instruction. -/
inductive Refusal where
  /-- Raised by an arm of `exec` whose instruction has no meaning in the model yet. Safe. -/
  | notModelled (mnemonic : String)
deriving DecidableEq, Repr

/-! ## Causes -/

/-- A cause with what a fault record holds of it (R307, R308, R312): the code, the lanes it
concerns, four detail words, and the SOURCE field. -/
structure Cause where
  code : Nat
  d0 : Word := 0
  d1 : Word := 0
  d2 : Word := 0
  d3 : Word := 0
  source : Nat := 0
deriving DecidableEq, Repr

/-- The fault record of an instance, or the unwind record of a group (R312, R318). -/
structure Record where
  cause : Cause := ⟨0, 0, 0, 0, 0, 0⟩
  frag : Bool := false
  defer : Bool := false
  notice : Bool := false
  detached : Bool := false
  nest : Bool := false
  cdepth : Nat := 0
  half : Nat := 0
  scode : Bool := false
  lanes : List Nat := []
deriving DecidableEq, Repr

/-! ## Latches -/

inductive LatchState where
  | empty | valid | lost
deriving DecidableEq, Repr

/-- One bypass latch entry (R64): its state, the register it was also written to, whether it was
produced since the current IDEM, and its value: per lane in the lane pipe, at key 0 in the gang
pipe. `pend` names the queue entry whose data it still awaits; `skip` are lanes in which it was not shifted,
because they raised a cause (R148, R375): there the entries behind it stand one place further up. -/
structure Latch where
  st : LatchState := .empty
  reg : Option Nat := none
  idem : Bool := false
  pend : Option Nat := none
  val : Sparse Word := []
  skip : List Nat := []
deriving DecidableEq, Repr

/-! ## Why a unit waits (R22, R66, R120, R268) -/

inductive WaitOn where
  /-- At a REGANG (R20). -/
  | regang
  /-- At BAR.WAIT on barrier `n` of core `core` for token `tok` (R125). -/
  | bar (n tok : Nat)
  /-- At COH.JOIN on the cohort with key `coh` (R27). -/
  | cohort (coh : Nat)
  /-- At TL.WAIT (R131). -/
  | tl (k : Nat) (n : Dword)
  /-- At LDV: the lanes still waiting, as (lane, virtual address, version), and those served, with
  their words (R188). -/
  | version (rows : List (Nat × Nat × Word)) (got : List (Nat × Word))
  /-- A copy processor at a WAITB whose barrier has been poisoned (R127). -/
  | poisoned
  /-- At an STV that meets a staged line (R192). -/
  | staged (line : Nat)
  /-- For a page of the issuing context at the issuing die (R309, R322). -/
  | page (page : Nat)
  /-- The page service has refused the page, or its walk met a malformed entry: the accesses raise
  `cause` mod 256 when the unit issues again (R321, R323); `cause` / 256 is the table level + 1 of a
  malformed entry. -/
  | refused (page cause : Nat)
  /-- For the Gutter to have room (R200), or to be rid of the unit's own entries for a line. -/
  | gutter (line : Option Nat)
  /-- For one queue entry to be performed: a scoreboard wait, or an instruction that holds. -/
  | entry (id : Nat)
  /-- For the unit's queue to be empty (REGANG, RETT, EXIT). -/
  | drain
  /-- For a start slot of a copy processor (R244). -/
  | startSlot (p : Nat)
  /-- For the matrix engine: its queue is full, or another context owns it (R268). -/
  | matrix
  /-- For a saved buffer to be restored, for the port of a core's scratchpad, which a rewrite uses, or for a
  Purlin group's refresh to end (R172, R175, R328). -/
  | buffer (core idx : Nat)
  | port (core : Nat)
  | purlin (group : Nat)
  /-- At FLUSH (R215), or at SYSWR SYS.TLB_INV_HI until the invalidation completes (R324). -/
  | flush
  | tlbInv
  /-- After YIELD (R120). -/
  | yield (until_ : Nat)
  /-- Stopped by a cause: instance `id` serves the unit (R309). -/
  | stopped (id : Nat)
  /-- Stopped by a quiesce after its STEP.MARK (R331). -/
  | quiesced
  /-- Its gang has retired from issue and awaits its stores (R23). -/
  | exiting
  /-- A region whose vote is empty while fragments are out (R35, R41). -/
  | fragments (exit : Bool)
deriving DecidableEq, Repr

/-- A wait, and the time in µs at which it started (R132). -/
structure Wait where
  on : WaitOn
  since : Nat
deriving DecidableEq, Repr

/-! ## Accesses and the ordering machine (R218–R237) -/

/-- What one lane's access does at the place that serves it. -/
inductive AccOp where
  /-- Load `size` bytes, sign-extended or not, into the destination register. -/
  | load (size : Nat) (signed : Bool)
  | store (size : Nat) (data : Word)
  /-- ATOM: the operation's opcode and its operands D and D + 1. -/
  | atom (op : Nat) (a b : Word)
  /-- RED.M: opcode and folded value. -/
  | redm (op : Nat) (u : Word)
  /-- VLATEST: LATEST of the line into the destination register. -/
  | latest
deriving DecidableEq, Repr

/-- One lane's access: the lane, its generic address and its operation; the scratchpad buffer that it reached
when it issued, as (index, generation) (R208); of a store, the bytes that no higher lane of its instruction
writes (R199); of a reduction, the lanes folded into it, else none. -/
structure Access where
  lane : Nat
  addr : Dword
  op : AccOp
  buf : Option (Nat × Nat) := none
  mask : List Nat := [0, 1, 2, 3]
  lanes : List Nat := []
deriving DecidableEq, Repr

/-- A lane's walk of DFA.STEP4 whose entries are still being read (R106, R108): the entries read, the state, the
accepting bits and the lane's four bytes. -/
structure DfaRow where
  lane : Nat
  k : Nat
  st : Nat
  flags : Nat
  bytes : Word
deriving DecidableEq, Repr

/-- An issue-queue entry that is not yet performed. -/
inductive QueueOp where
  | accesses (xs : List Access)
  | fence (pred succ scope : Nat)
  /-- A BAR.ARRIVE: the barrier's storage key (R233). -/
  | arrive (bar : Nat)
  /-- An STV of version `m`, with its lanes' words, and since when it has met a staged line (R186, R192). -/
  | stv (m : Nat) (xs : List Access) (since : Option Nat)
  /-- A DFA.STEP4 with its table, and the walks that are not complete. -/
  | dfa (table : Dword) (rows : List DfaRow)
deriving DecidableEq, Repr

/-- An entry of an issue queue (R220): the queue, the instruction's place in program order, and
where its results go. -/
structure QEntry where
  id : Nat
  qid : Nat
  /-- Place in program order, for entries of one queue. -/
  seq : Nat
  unit : UnitRef
  ctx : Nat
  core : Nat
  gk : Option Nat
  pc : Word
  scode : Bool
  op : QueueOp
  /-- Destination register of loads and atomics: a lane register, or (`gang`) a g register. -/
  dst : Option Nat := none
  gangDst : Bool := false
  /-- The instruction's active set, for a gang-pipe access (R309). -/
  acts : List Nat := []
  /-- Lanes already performed, with their values, and lanes that failed, with their causes: the instruction
  ends, in one way for all of them, when its last lane does (R310, R375). -/
  got : List (Nat × Word) := []
  fails : List (Nat × Cause) := []
  /-- It has missed translation when performed, and holds its group (R309). -/
  held : Bool := false
deriving DecidableEq, Repr

/-! ## Gangs (R11–R25) -/

/-- An issue group: the slices that share one counter (R19). -/
structure Group where
  /-- Slices, ascending. -/
  slices : List Nat
  /-- The word address of the next instruction; in a region, the index in the image's code area. -/
  pc : Nat
  /-- Its issue queue's number first, then those of queues merged into it (R223). -/
  qids : List Nat
  wait : Option Wait := none
  /-- The age counter, 12 bits (R24). -/
  age : Nat := 0
  laneLatch : List Latch := [{}, {}, {}, {}]
  gangLatch : List Latch := [{}, {}, {}, {}]
  /-- Containment handlers, innermost first (R318). -/
  cont : List Nat := []
  /-- The unwind record, until the group's next stop (R318). -/
  unwind : Option Record := none
  /-- Instructions issued so far: orders the group's queue entries. -/
  issued : Nat := 0
  /-- Lanes of the present word that have failed while other lanes of it wait, with their causes: they are
  parked with the word's other failing lanes when it completes, as one fragment (R43, R317). -/
  failed : List (Nat × Cause) := []
deriving DecidableEq, Repr

/-- The automaton state of a gang in a region (R35, R36, R48). -/
structure Region where
  img : Nat
  exitPc : Nat
  /-- ast: the state of the running pass. -/
  state : Nat := 0
  /-- States still to run in this step after the running one. -/
  passes : List Nat := []
  /-- The step's vote set, ascending, and its uncovered set. -/
  vote : List Nat := []
  uncovered : List Nat := []
  /-- Passes completed in the current step, and MISSRUN. -/
  passNo : Nat := 0
  missrun : Nat := 0
deriving DecidableEq, Repr

/-- A fault fragment (R43, R44, R317): its lanes with the rejoin block of each, and the instance
that serves it. -/
structure Fragment where
  inst : Nat
  rejoin : Sparse Nat
deriving DecidableEq, Repr

/-- A cause held pending for a gang (R309, R375): the lanes it concerns, where the failed work was
issued, whether that place is a position in state code, the group that issued it, and whether it is deferred:
a descriptor image's cause is raised at the first instruction itself (R295), and an access after which its group
has issued nothing is precise though the gang is evicted meanwhile (R375). -/
structure Pending where
  cause : Cause
  lanes : List Nat
  pc : Word
  scode : Bool
  group : Option Nat
  defer : Bool := true
deriving DecidableEq, Repr

/-- Where a gang stands with respect to its core (R15, R326, R329). -/
inductive Place where
  | resident
  /-- Being saved, for the request numbered `req`. -/
  | saving (req : Nat)
  /-- Evicted, in the order of `clock`, waiting since `since` µs. -/
  | evicted (clock since : Nat)
deriving DecidableEq, Repr

/-- A region end that awaits the accesses of its instruction (R315, R375): their queue entry, whether it stood
in linear code, the word after it, and the generators of the live lanes there. -/
structure RegionEnd where
  entry : Nat
  linear : Bool
  pc : Nat
  gens : List (Nat × Dword)
deriving DecidableEq, Repr

/-- An EXIT whose arrivals are still to be counted (R23, R233): the machine's next number when it was executed, and
of the barriers bound to cohorts that the gang left with it those at which it had yet to arrive, with their phase. -/
structure Leaving where
  at_ : Nat
  owed : List (Nat × Nat)
deriving DecidableEq, Repr

/-- A gang, native or legacy (R11, R16, R29). -/
structure Gang where
  ctx : Nat
  core : Nat
  /-- The gang slot it was first admitted to (R329), and the physical one it holds now. -/
  home : Nat
  slot : Nat
  /-- 0 or 1 in legacy-width mode (R29). -/
  half : Nat := 0
  legacy : Bool := false
  /-- Its node's pool key, batch number, and the cores of its launch's cluster by rank. -/
  node : Nat := 0
  batch : Nat := 0
  /-- Its lowest thread ID (R13, R27). -/
  tid0 : Nat := 0
  cluster : List Nat := []
  prio : Nat := 0
  lregs : Nat := 60
  /-- Live lanes, ascending, numbered in the gang (R12). -/
  live : List Nat
  /-- Lanes that hold a pad thread (R298). -/
  pad : List Nat := []
  /-- v registers: key lane × 64 + register. -/
  v : Sparse Word := []
  g : Sparse Word := []
  /-- q0–q7 as lane masks (R118). -/
  q : Sparse Word := []
  /-- blk per lane: default DONE (R31). -/
  blk : Sparse Nat := []
  /-- Pending blocks: block + 1, default 0 for none (R32). -/
  pblk : Sparse Nat := []
  /-- Generators and their checkpoints (R109): default 1. -/
  gen : Sparse Dword := []
  ckpt : Sparse Dword := []
  /-- Registers that await a queue entry: v at lane × 64 + r, g at 4096 + r; entry + 1. -/
  scoreboard : Sparse Nat := []
  shp : List Word := [0, 0, 0, 0]
  /-- The first word of the kernel or bucket, and the idempotent entry (R315). -/
  entry : Nat := 0
  idemPc : Nat := 0
  /-- An IDEM, or an instruction that acts as one, has taken effect (R64, R315). -/
  idemSet : Bool := false
  idemCount : Word := 0
  /-- Region ends whose instructions are still in an issue queue (R375). -/
  ends : List RegionEnd := []
  stepCount : Word := 0
  /-- SYS.FP_CTL bits and SYS.FP_STAT bits (R147). -/
  fpCtl : Word := 0
  fpStat : Word := 0
  groups : Sparse (Option Group) := []
  region : Option Region := none
  frags : List Fragment := []
  /-- Lanes of returned fragments that await the commit: rejoin block + 1 (R44). -/
  back : Sparse Nat := []
  pending : List Pending := []
  /-- EXITs whose arrivals wait for the gang's queues and store buffer (R233). -/
  leaving : List Leaving := []
  place : Place := .resident
  /-- The evicted gang for which a swap has chosen this one (R330). -/
  swapFor : Option Nat := none
  /-- Entries of its issue queues that its eviction has abandoned: they issue again at readmission (R223). -/
  redo : List QEntry := []
  /-- Admitted or readmitted at (order), the watchdog’s count since (µs), under R330 since (µs). -/
  admitted : Nat := 0
  since : Nat := 0
  /-- Time it had been resident, for the watchdog, when it was last evicted (µs). -/
  ran : Nat := 0
  swapped : Option Nat := none
  /-- Evictions since launch (R333). -/
  evictions : Nat := 0
  /-- The node bucket selected (R298). -/
  bucket : Option Nat := none
  /-- The stack registers under which it was admitted (R168). -/
  stackBase : Dword := 0
  stackSize : Nat := 0
  /-- Hinted issue mode of its code object (R354). -/
  hinted : Bool := false
  /-- Stopped for good: its context has faulted or ended, or its core is fenced. -/
  dead : Bool := false
  /-- While a quiesce runs: the gang has yet to stop (R331). -/
  quiesce : Bool := false
  /-- It has issued nothing since it was admitted or readmitted. -/
  idle : Bool := true
  /-- Registers whose data is uncorrectable (R319): v at lane × 64 + r, g at 4096 + r. -/
  poison : List Nat := []
deriving DecidableEq, Repr

/-! ## Handler instances (R303, R311–R317) -/

/-- What an instance serves. -/
inductive Serves where
  | group (gk gid : Nat)
  | frag (gk : Nat)
  | detached
  | nested (inst : Nat)
deriving DecidableEq, Repr

structure Inst where
  core : Nat
  ctx : Nat
  serves : Serves
  rcd : Record
  /-- The handler register set it holds; none while it waits for one. -/
  set : Option Nat := none
  pc : Nat := 0
  g : Sparse Word := []
  q : Sparse Word := []
  laneLatch : List Latch := [{}, {}, {}, {}]
  gangLatch : List Latch := [{}, {}, {}, {}]
  scoreboard : Sparse Nat := []
  wait : Option Wait := none
  qid : Nat := 0
  issued : Nat := 0
  cont : List Nat := []
  since : Nat := 0
  hinted : Bool := false
  /-- FP registers of an instance with no gang (a detached one); see log entry 12. -/
  fpCtl : Word := 0
  fpStat : Word := 0
  /-- Its context has stopped, or a quiesce has pre-empted it. -/
  stopped : Bool := false
  /-- Registers of its set whose data is uncorrectable (R319): g at 4096 + r. -/
  poison : List Nat := []
  /-- Causes of its accesses that came while a nested instance ran (R314, R375). -/
  pending : List Pending := []
deriving DecidableEq, Repr

/-! ## Buffers of the ordering machine (R218–R237) -/

/-- A store-buffer entry (R218): bytes at physical addresses, still to be applied. -/
structure SbEntry where
  id : Nat
  core : Nat
  ctx : Nat
  gk : Option Nat
  qid : Nat
  seq : Nat
  bytes : List (Nat × Byte)
deriving DecidableEq, Repr

/-- A Gutter entry (R200). -/
structure GutterEntry where
  id : Nat
  core : Nat
  ctx : Nat
  gk : Option Nat
  qid : Nat
  seq : Nat
  /-- The 64-bit virtual address, and what is to be done there. -/
  addr : Dword
  lane : Nat
  op : AccOp
  pc : Word
  scode : Bool
  /-- Of a store, the bytes that it writes: those that no higher lane of its instruction writes (R199). -/
  mask : List Nat := [0, 1, 2, 3]
  /-- The lanes whose work it is: those folded into a reduction, or a gang-pipe word's active set. -/
  lanes : List Nat := []
deriving DecidableEq, Repr

/-- A write that originated at a die, waiting in the apply queue of die `into` (R225, R226). -/
structure Pub where
  into : Nat
  id : Nat
  origin : Nat
  stamp : List Nat
  key : Nat
  bytes : List (Nat × Byte)
  gk : Option Nat
  qid : Nat
  seq : Nat
  ctx : Nat
  /-- The class of the access that made it: ST, AT, or an engine's or host's (R228). -/
  at_ : Bool
  /-- A copy processor's (core, xp, command), or a host session's message, when one made it. -/
  xp : Option (Nat × Nat × Nat) := none
  msg : Option Nat := none
  /-- The data key of its context (R166). -/
  ek : Nat := 0
deriving DecidableEq, Repr

/-- An atomic or reduction on its way to its home die (R227). -/
structure HomeOp where
  id : Nat
  home : Nat
  pa : Nat
  op : AccOp
  lane : Nat
  /-- The lanes whose work it is: those folded into a reduction, or the one of an atomic. -/
  lanes : List Nat := []
  unit : Option UnitRef
  ctx : Nat
  core : Nat
  gk : Option Nat
  qid : Nat
  seq : Nat
  /-- The queue entry that awaits the old value. -/
  entry : Option Nat
  pc : Word
  scode : Bool
  /-- The order in which one instruction's lanes are applied (R202). -/
  order : Nat
  xp : Option (Nat × Nat × Nat) := none
deriving DecidableEq, Repr

/-! ## Versioned regions (R181–R194) -/

/-- A stored version of a line: its number, the heap line that holds it, and 64 bytes. -/
structure Version where
  num : Nat
  heap : Nat
  bytes : List Byte
  /-- Words of it that are uncorrectable (R319). -/
  bad : List Nat := []
deriving DecidableEq, Repr

structure Line where
  latest : Nat := 0
  old : Nat := 0
  vers : List Version := []
  /-- STAGEVER, with the staged bytes (R192). -/
  staged : Option (Nat × List Byte) := none
  /-- Words of the staged bytes that are uncorrectable (R319). -/
  stagedBad : List Nat := []
deriving DecidableEq, Repr

/-- A designated region (R181, R184, R189). -/
structure VRegion where
  base : Nat
  size : Nat
  wait : Nat
  floor : Nat := 0
  /-- Pins: (number, count), at most 8. -/
  pins : List (Nat × Nat) := []
  /-- Version 0 of the lines: bytes by virtual address, where they are not zero. -/
  zero : List Host.Cell := []
  /-- Words of version 0 that are uncorrectable, by virtual address / 4 (R319). -/
  bad : List Nat := []
deriving DecidableEq, Repr

/-! ## Barriers and cohorts (R122–R129) -/

/-- A barrier (R122), with the state the rules need beside the three words: the expected count of
the current phase, arrivals not yet counted, and the gangs bound to it with the phase in which each
last arrived. -/
structure Barrier where
  init : Bool := false
  cluster : Bool := false
  poison : Bool := false
  coh : Option Nat := none
  expect : Nat := 0
  phase : Nat := 0
  arrived : Nat := 0
  bytes : Nat := 0
  now : Nat := 0
  coming : Nat := 0
  bound : List (Nat × Nat) := []
  /-- For a cluster-scope barrier: the core whose record serves all its cores (R124). -/
  shared : Option Nat := none
deriving DecidableEq, Repr

inductive CohPhase where
  | free | forming | formed
deriving DecidableEq, Repr

/-- A cohort (R26–R28): members as (gang, rank, present). -/
structure Cohort where
  phase : CohPhase := .free
  expect : Nat := 0
  /-- Joiners that wait, as (gang, group). -/
  joiners : List (Nat × Nat) := []
  members : List (Nat × Nat × Bool) := []
  /-- Ranks of the leaves by a waiting joiner whose COH.JOIN has yet to complete: (gang, group). -/
  left : List (Nat × Nat) := []
  /-- Joiners released at formation that have yet to complete: (gang, group, rank). -/
  ready : List (Nat × Nat × Nat) := []
deriving DecidableEq, Repr

/-! ## Scratchpad buffers and descriptors (R169–R173, R178) -/

/-- A buffer's tag (R170); `gen` is the index's generation. `rewrite` is the renewal or zeroing in
progress: the granules done, and whether they are written zero; `more` are renewals that wait. -/
structure Tag where
  live : Bool := false
  saved : Bool := false
  base : Nat := 0
  size : Nat := 0
  expiry : Nat := 0
  life : Nat := 0
  gen : Nat := 0
  /-- `some zero` while a rewrite is in progress; queued rewrites follow (R172, R208). -/
  rewrite : Option Bool := none
  more : List Bool := []
  /-- Latched by BUFFER_EXPIRY (R171). -/
  stale : Bool := false
  /-- Kept by the sweeper (R327); a restore in progress since (µs) (R328). -/
  kept : Bool := false
  restoring : Option Nat := none
  /-- Pages of the save area that the save or restore in progress has yet to copy. -/
  todo : List Nat := []
  /-- While it is saved: a gang has been readmitted, or an agent of the context has made an access to it (R328). -/
  wanted : Bool := false
deriving DecidableEq, Repr

/-- A tensor descriptor: sixteen words (R178). -/
abbrev Desc := List Word

/-! ## Copy processors (R243–R265) -/

inductive XpState where
  | idle | run | wait | fault
deriving DecidableEq, Repr

structure Cursor where
  bound : Bool := false
  desc : Nat := 0
  pos : List Word := [0, 0, 0, 0, 0]
  win : List Word := [0, 0, 0, 0, 0]
deriving DecidableEq, Repr

/-- A start slot (R244): the context, the cohort of a collective start, the start-record addresses of the gangs that
joined, and once it is complete the words read from the records, or the cause and address of a read that failed. -/
structure Start where
  ctx : Nat
  coh : Option Nat
  /-- (gang, record address), in joining order, and once complete in rank order. -/
  joined : List (Nat × Dword)
  complete : Bool := false
  words : List Word := []
  bad : Option (Nat × Dword) := none
  /-- The nodes of the gangs that joined. -/
  nodes : List Nat := []
  /-- The launch of its gang: the node and the admission unit (R165, R295). -/
  launch : Option (Nat × Nat) := none
  cluster : List Nat := []
deriving DecidableEq, Repr

/-- Where one byte of a command's destination comes from: a constant, or a source address. -/
inductive XByte where
  /-- Of a scale at an address that is no multiple of four: its access raises 0x07 (R258). -/
  | mis (addr : Dword)
  | const (b : Byte)
  | read (space : Nat) (addr : Dword)
  /-- The low four bits of a byte: the top byte of a 20-bit scale (R141). -/
  | low4 (space : Nat) (addr : Dword)
deriving DecidableEq, Repr

/-- One aligned 32-bit destination word of a command, written as one unit (R231, R234): four bytes,
`none` for those that the command does not write. -/
structure XWord where
  /-- SPACE of the destination, and the address of the word. -/
  space : Nat
  addr : Dword
  bytes : List (Option XByte)
  /-- For MOVE.A: the FP32 addend (R260). -/
  add : Option Word := none
deriving DecidableEq, Repr

inductive XKind where
  | move | moveG | moveA | movePk | vpub
deriving DecidableEq, Repr

/-- A command in flight (R247): the words still to land, the barrier it counts, and for VPUB its
version and lines. -/
structure XCmd where
  id : Nat
  kind : XKind
  fpc : Nat
  bar : Option Nat
  words : List XWord
  version : Nat := 0
  lines : List Nat := []
  /-- For VPUB: the bytes written so far, counted at publication. -/
  count : Nat := 0
deriving DecidableEq, Repr

/-- A follow slot (R262): the command it waits for, the two descriptor numbers, h0, Z, and FPC. -/
structure Follow where
  cmd : Nat
  ts : Nat
  ta : Nat
  h0 : Nat
  z : Bool
  fpc : Nat
deriving DecidableEq, Repr

/-- A tile drained to a port (R277, R278): rows of 64 element codes; the encoding's FMT and SCALE;
two scales a row for a block encoding. -/
structure Tile where
  fmt : Nat
  scale : Nat
  rows : List (List Word)
  scales : List (List Word)
deriving DecidableEq, Repr

structure Xp where
  state : XpState := .idle
  ctx : Nat := 0
  nodes : List Nat := []
  /-- The gangs that started the run, their nodes, and the cores of their launch's cluster. -/
  gangs : List Nat := []
  launch : Option (Nat × Nat) := none
  cluster : List Nat := []
  a : Sparse Word := []
  cur : List Cursor := [{}, {}, {}, {}]
  loops : List (Nat × Nat × Nat) := []
  base : Dword := 0
  pc : Nat := 0
  barset : List Nat := []
  follows : List Follow := []
  /-- The program cache: lines of sixteen words by virtual address, oldest first (R243). -/
  cache : List (Nat × List Word) := []
  starts : List Start := []
  cmds : List XCmd := []
  /-- The id of the command started by the word just before, for FOLLOW (R262). -/
  lastCmd : Option Nat := none
  cause : Nat := 0
  fbar : Option Nat := none
  oor : Nat := 0
  fpc : Nat := 0
  faddr : Dword := 0
  wait : Option Wait := none
  port : List Tile := []
deriving DecidableEq, Repr

/-! ## Matrix engine (R267–R282) -/

inductive PlaneState where
  | empty | loading | ready
deriving DecidableEq, Repr

/-- A plane: 128 × 64 element codes (key k × 64 + n), scales by block (key b × 64 + n), and the
formats of the descriptor it was loaded from. -/
structure Plane where
  st : PlaneState := .empty
  fmt : Nat := 0
  scale : Nat := 0
  blk : Nat := 0
  elems : Sparse Word := []
  scales : Sparse Word := []
  /-- Rows k of it that are uncorrectable (R271, R319). -/
  bad : List Nat := []
deriving DecidableEq, Repr

/-- The logical plane state of R272: shadow state and formats, and the active plane's formats. -/
structure PlaneLog where
  shadow : PlaneState := .empty
  shadowFmt : Nat × Nat × Nat := (0, 0, 0)
  active : Bool := false
  activeFmt : Nat × Nat × Nat := (0, 0, 0)
deriving DecidableEq, Repr

inductive MOp where
  | mload (d : Desc) (k0 n0 : Word)
  | mswap
  | mstream (d : Desc) (h0 m : Nat) (k0 i0 : Word)
  | mzero (h0 n : Nat)
  /-- To lanes: the encoding selector, row, first column, destination register, lanes. -/
  | drainLanes (sel row col0 dst : Nat) (lanes : List Nat)
  | drainPort (sel h0 m p : Nat)
  /-- The tile macro: the descriptors as read, h0, M, KP, Z and the timeline signal. -/
  | mtile (ts ta : Desc) (h0 m kp : Nat) (z : Bool) (tl : Option (Nat × Dword))
deriving DecidableEq, Repr

/-- Who issued a matrix command: a gang (and queue entry awaiting a drain), or a copy processor. -/
structure MCmd where
  id : Nat
  op : MOp
  opcode : Nat
  gk : Option Nat
  unit : Option UnitRef
  xp : Option (Nat × Nat)
  pc : Word
  scode : Bool
  lanes : List Nat
  /-- Descriptor numbers, for the detail words of 0x18. -/
  desc : Nat := 0
  /-- The launch of its issuer, whose cluster it may reach (R165). -/
  launch : Option (Nat × Nat) := none
deriving DecidableEq, Repr

structure Matrix where
  owner : Option Nat := none
  shadow : Plane := {}
  active : Plane := {}
  /-- Accumulators: key row × 64 + column, default +0. -/
  acc : Sparse Word := []
  log : PlaneLog := {}
  queue : List MCmd := []
  /-- The progress of the command that has begun: plane q, and 0 before its plane is loaded or 1 + the rows done. -/
  run : Option (Nat × Nat) := none
  /-- MSTAT with REL has asked for a release, which waits for the queue to empty (R281). -/
  rel : Bool := false
  /-- NX UF OF IV, as in MSTAT word 1. -/
  flags : Word := 0
  fault : Bool := false
  cause : Nat := 0
  /-- Since when a drain has been held by a full port (µs). -/
  held : Option Nat := none
  /-- Accumulator rows whose data is uncorrectable (R319). -/
  poison : List Nat := []
deriving DecidableEq, Repr

/-! ## Records per context and core, per core, per die -/

/-- What a core holds for one context. -/
structure CtxCore where
  ageLimit : Nat := 512
  autoMiss : Word := 0
  tags : Sparse Tag := []
  descs : Sparse Desc := []
deriving DecidableEq, Repr

/-- What a core holds for all contexts. -/
structure CoreSt where
  xp0 : Xp := {}
  xp1 : Xp := {}
  matrix : Matrix := {}
  /-- Saved matrix states by context (R268). -/
  saved : Sparse (Option Matrix) := []
  /-- A hold (R66) per pipe 0, 1 (lane), 2 (gang): the unit, its last issue and its chain's start. -/
  holds : Sparse (Option (UnitRef × Nat × Nat)) := []
  /-- Round-robin memory: per pipe and level, the last group issued, and the last set issued. -/
  lastGroup : Sparse Nat := []
  lastSet : Sparse Nat := []
  /-- Fenced by the controller (R372). -/
  fenced : Bool := false
  /-- Rail undervolted, and watched since an error-rate excess (R373). -/
  undervolt : Bool := false
  noUndervolt : Bool := false
  watch : Option Nat := none
  pf : Bool := false
deriving DecidableEq, Repr

/-- A queued collective: its context, session, tag and record, and whether its group has shrunk since. -/
structure Coll where
  ctx : Nat
  ses : Nat
  tag : Word
  rcd : List Word
  shrank : Bool := false
deriving DecidableEq, Repr

structure DieSt where
  /-- C(d): eight counters (R218). -/
  clock : List Nat := [0, 0, 0, 0, 0, 0, 0, 0]
  spread : Bool := true
  stagger : Nat := 64
  /-- Queued collectives (R350, R351). -/
  colls : List Coll := []
  /-- Per (context, group): the last start of an admission unit by node, in clocks (R300). -/
  lastStart : Sparse Nat := []
deriving DecidableEq, Repr

/-! ## Translation (R321–R324) -/

/-- A cached translation of a die. -/
structure Tlb where
  die : Nat
  ctx : Nat
  /-- Virtual page (address / 64 KiB), physical base of that 64 KiB. -/
  page : Nat
  pa : Nat
  r : Bool
  w : Bool
  x : Bool
  /-- D was set when it was cached. -/
  d : Bool
  /-- It comes from the leaf of a 32 MiB page. -/
  big : Bool := false
deriving DecidableEq, Repr

/-- What waits for a page (R322, R323): a unit, an access in an issue queue, a copy processor (at a
word or start record, or with a command) and the matrix sequencer, with its command and the address that missed, a
Gutter entry, a node (a descriptor image at admission, or its DONE store as image 128), a buffer whose
save or restore misses. -/
inductive PWaiter where
  | unit (u : UnitRef)
  | entry (id : Nat)
  | xp (core p : Nat) (cmd : Option Nat) (addr : Dword)
  | start (core p : Nat) (addr : Dword)
  | matrix (core cmd : Nat) (addr : Dword)
  | gutter (id : Nat)
  | node (key image : Nat)
  | buffer (core idx : Nat)
deriving DecidableEq, Repr

/-- A walk running or queued at a die, or, once `id` is not 0, the page-service record that it has
sent and that is outstanding at the host; `acc` is the union of access types: 1 read, 2 write,
4 fetch, 8 atomic. -/
structure Walk where
  die : Nat
  ctx : Nat
  page : Nat
  acc : Nat
  /-- Each waiter, with its core and the number of accesses that it holds. -/
  who : List (Nat × PWaiter × Nat)
  /-- An invalidation has matched it: its result is discarded. -/
  stale : Bool := false
  id : Nat := 0
  level : Nat := 0
  absent : Bool := false
deriving DecidableEq, Repr

/-! ## Contexts -/

/-- A sealed image (R49–R53), as the sequencer holds it. -/
structure Image where
  nb : Nat
  entry : Nat
  misstrap : Bool
  misslim : Nat
  /-- Per block: REENTRY and its lead list. -/
  blocks : List (Nat × List Nat)
  /-- Per state: its blocks, CODE and LEN. -/
  states : List (List Nat × Nat × Nat)
  /-- Set-map rows: the key word and the state. -/
  setmap : List (Word × Nat)
  code : List Word
  total : Nat
deriving DecidableEq, Repr

/-- A symbol of a loaded object (R355). -/
structure Sym where
  name : List Byte
  kind : Nat
  glob : Bool
  repl : Bool
  addr : Dword
deriving DecidableEq, Repr

/-- A loaded code object (R359). -/
structure Obj where
  handle : Nat
  code : Nat
  codeLen : Nat
  data : Nat
  dataLen : Nat
  images : List Nat
  regions : List Nat
  syms : List Sym
  /-- Handles of objects its relocations resolved to. -/
  uses : List Nat
  legacy : Bool
  stamp : Word
  /-- Virtual pages the loader mapped for it. -/
  pages : List Nat := []
deriving DecidableEq, Repr

/-- A serving definition (R361): the object and the symbol's index in it. -/
structure Serving where
  name : List Byte
  handle : Nat
  sym : Sym
deriving DecidableEq, Repr

/-- A context's own registers and tables. -/
structure Context where
  /-- The context has faulted (R311): its gangs stand where they stopped. -/
  faulted : Bool := false
  force : Bool := false
  waitBound : Word := 0x03E803E8#32
  tl : Sparse Dword := []
  autoAddr : Dword := 0
  sealStatus : Nat := 0
  images : Sparse (Option Image) := []
  stackBase : Dword := 0
  stackSize : Nat := 0
  purlinBase : Nat := 0
  purlinSize : Nat := 0
  eaves : BitVec 16 := 0
  vregBase : Dword := 0
  vregSize : Word := 0
  vregWait : Nat := 0
  vregStatus : Nat := 0
  regions : Sparse (Option VRegion) := []
  /-- Directory entries by virtual line number. -/
  lines : Sparse Line := []
  vheap : Nat := 0
  vdirAddr : Dword := 0
  vdirIdx : Nat := 0
  trapEntry : Word := 0
  trapValid : Bool := false
  runBound : Nat := 1000
  tlbInvLo : Word := 0
  ptRoot : Dword := 0
  readmit : Nat := 64
  budget : Nat := 40
  qBound : Nat := 100
  qState : Nat := 0
  qSince : Nat := 0
  qTarget : Nat := 0
  nextNode : Word := 1
  secAddr : Dword := 0
  objs : List Obj := []
  serving : List Serving := []
  nextHandle : Nat := 1
  /-- Collective groups: the epoch, and members as (rank, present), the module's own first (R351, R352). -/
  groups : Sparse (Nat × List (Nat × Bool)) := []
  /-- The handler's object stamp decides its instances' issue mode (R354). -/
  handlerHinted : Bool := false
  /-- The context's data key draw (R368): its number, 0 when zeroised. -/
  key : Nat := 0
deriving DecidableEq, Repr

/-! ## The ready pool (R289–R300) -/

inductive NodePhase where
  | waiting | ready | running | draining
deriving DecidableEq, Repr

structure Node where
  ctx : Nat
  id : Word
  die : Nat
  rcd : List Word
  phase : NodePhase
  bucket : Option Nat
  entry : Nat
  n : Nat
  b : Nat
  c : Nat
  lregs : Nat
  legacy : Bool
  hinted : Bool
  /-- Predecessors by pool key, and operands as (first line, last line, version). -/
  preds : List Nat
  opds : List (Nat × Nat × Nat)
  order : Nat
  /-- The next admission unit, and how many there are (R295). -/
  nextUnit : Nat := 0
  total : Nat
  /-- Since when its unit has been skipped (µs), and whether it blocks others (R295); the cores on which gangs
  are evicted for it (R325). -/
  skippedSince : Option Nat := none
  blocking : Bool := false
  claim : List Nat := []
  /-- Every gang admitted so far. -/
  gangs : List Nat := []
  /-- Batches that have started: a gang of theirs has issued its first instruction (R18). -/
  started : List Nat := []
  /-- Pages refused for an admission image, or for the DONE store (image 128), with the cause. -/
  refused : List (Nat × Nat) := []
deriving DecidableEq, Repr

/-! ## Host side -/

/-- A message from the module: a reply or a report (R345, R350). -/
structure Msg where
  ses : Nat
  op : Nat
  ctx : Nat
  tag : Word
  status : Word
  payload : List Byte
deriving DecidableEq, Repr

/-- A session (R344): its context (0 until OPEN), and the partial object it holds (R358). -/
structure Session where
  ctx : Nat := 0
  load : List Byte := []
  /-- The command whose partial object is held: 0x10 LOAD, 0x11 LOADP. -/
  holding : Option Nat := none
deriving DecidableEq, Repr

/-- A host command whose reply waits until its writes are complete at module scope (R347, R348, R351,
R359): what the reply holds, a collective's timeline signal, a load's handle, and the module whose
translation it commits. -/
structure HostWait where
  id : Nat
  ses : Nat
  op : Nat
  ctx : Nat
  tag : Word
  status : Nat := 0
  payload : List Byte := []
  tl : Option (Nat × Dword) := none
  handle : Nat := 0
  digest : Nat := 0
deriving DecidableEq, Repr

/-- A running security command (R336), with the node of the gang that started it. -/
structure SecCmd where
  op : Nat
  core : Nat
  ctx : Nat
  addr : Dword
  node : Option Nat := none
  /-- Its work is done, with a status; the writes numbered from the second to the third are its own. -/
  worked : Option (Nat × Nat × Nat) := none
deriving DecidableEq, Repr

/-- A Flashing entry: the module's digest, translator version, stepping, the translated object, and
whether its commit record is written. -/
structure Flash where
  digest : Nat
  version : Word
  stepping : Word
  bytes : List Byte
  committed : Bool
  /-- Its erase blocks, and the order of its last use. -/
  blocks : List Nat := []
  used : Nat := 0
  /-- Its content no longer matches its SHA-256. -/
  corrupt : Bool := false
deriving DecidableEq, Repr

/-- What the module controller keeps. -/
structure Controller where
  /-- Firmware accepted: the dies are out of reset (R365). -/
  up : Bool := false
  fw : List Byte := []
  fwNext : Nat := 0
  fwBad : Bool := false
  resetAt : Nat := 0
  lifecycle : BitVec 3 := 2
  dbgu : Bool := false
  port : Bool := false
  /-- M0–M15 with their extension counts (R366). -/
  meas : Sparse (Nat × Nat) := []
  opp : Nat := 0
  /-- A change of the operating point is under way, since when (µs). -/
  oppChanging : Bool := false
  oppSince : Nat := 0
  oppAbsent : Option Nat := none
  off : Bool := false
  retention : Nat := 250
  secBusy : Option SecCmd := none
  secOp : Nat := 0
  secStatus : Nat := 0
  mgmtKeys : List Nat := []
  /-- Next tenant context number (R368). -/
  nextCtx : Nat := 2
  drops : Nat := 0
  /-- Corrected and detected errors, by array (R371). -/
  errors : Sparse Nat := []
  /-- Flashing entries (R364). -/
  flashing : List Flash := []
  /-- Erasures of the Flashing's blocks (R364). -/
  erases : Sparse Nat := []
  /-- Frames of 64 KiB that loads have taken, each with its context (R359). -/
  frames : Sparse Nat := []
deriving DecidableEq, Repr

/-- The class of a result (R158). -/
inductive FClass where
  | zero | finite | infinite | nan
deriving DecidableEq, Repr

/-- What a shadow unit computes of a result: its class, its sign, and its key (R158). -/
structure Shadow where
  cls : FClass
  neg : Bool
  key : Nat
deriving DecidableEq, Repr

/-- What happens next, where the manual leaves it open: an event of the table, the issue logic
choosing on a pipe of a core, a copy processor taking its next word, the passing of time, an upset of
a memory word (correctable, or `hard`), of a register of a gang or of a handler's set, of an accumulator row, of a
row of a plane, of a word of a line's stored version (or of version 0) or of a Flashing entry, or what the shadow
units of some lanes compute of the next checked result there. -/
inductive Act where
  | event (i : Instr)
  | issue (core pipe : Nat)
  | copy (core p : Nat)
  | elapse (us : Nat)
  | upset (loc : Nat) (hard : Bool)
  | upsetReg (gk key : Nat)
  | upsetInst (id key : Nat)
  | upsetRow (core row : Nat)
  | upsetPlane (core k : Nat)
  | upsetLine (ctx line num word : Nat)
  | shadow (rows : List (Nat × Shadow))
  | upsetFlash (digest : Nat)
deriving DecidableEq, Repr

/-- The state of the module. -/
structure State where
  /-- Every byte of memory: the eight die views of the physical space, the scratchpads, the Eaves
  windows and the Purlin stores, each at its own keys (`Machine/Mem.lean`). -/
  mem : List Host.Cell := []
  /-- Per byte of a die view, the key of the write that set it (R226): sum × 8 + origin. -/
  keys : Sparse Nat := []
  /-- Per byte of a die view, the data key under which it was written (R166), 0 for none. -/
  enc : Sparse Nat := []
  /-- Words with an error, by memory key / 4: 1 correctable, 2 uncorrectable (R319, R370). -/
  bad : Sparse Nat := []
  gangs : Sparse (Option Gang) := []
  insts : Sparse (Option Inst) := []
  ctxs : Sparse (Option Context) := []
  /-- Per (context, core): key context × 1024 + core. -/
  cc : Sparse CtxCore := []
  /-- Barriers: key (context × 1024 + core) × 256 + number. -/
  bars : Sparse Barrier := []
  /-- Cohorts: key (launch × 65536 + context) × 65536 + core × 32 + ID; for IDs 16–31 the launch counts from 1 and
  the core is 1024, for the others the launch is 0. -/
  cohs : Sparse Cohort := []
  cores : Sparse CoreSt := []
  dies : Sparse DieSt := []
  /-- Granule owners: key core × 8192 + granule; context × 256 + index + 1. -/
  owner : Sparse Nat := []
  queue : List QEntry := []
  /-- Entries whose accesses have all been performed, and of which atomics have yet to be answered by their
  homes (R202). -/
  sent : List QEntry := []
  sb : List SbEntry := []
  gutter : List GutterEntry := []
  pubs : List Pub := []
  homeq : List HomeOp := []
  tlb : List Tlb := []
  /-- Walks, and page-service records outstanding. -/
  walks : List Walk := []
  pageRecs : List Walk := []
  pool : Sparse (Option Node) := []
  sessions : Sparse (Option Session) := []
  /-- Messages sent, oldest first, and reports held until a session opens. -/
  outbox : List Msg := []
  held : List Msg := []
  hostWaits : List HostWait := []
  ctl : Controller := {}
  /-- Clocks and microseconds since power-up. -/
  clk : Nat := 0
  usec : Nat := 0
  /-- The next unused number for gangs, queues, entries, instances and writes. -/
  next : Nat := 1
  /-- The model's own: the unit that is issuing, what happens next, which accesses leave their
  queue late, whose turn it is, free values drawn, and shadow results, by lane (in the matrix engine by
column): where none is listed the shadow unit agrees. -/
  cur : Option UnitRef := none
  /-- Units that a pipe has chosen in the present clock (R24). -/
  chosen : List UnitRef := []
  agenda : List Act := []
  defers : List Bool := []
  turn : Nat := 0
  fresh : Nat := 0
  shadow : List (Nat × Shadow) := []
deriving DecidableEq, Repr

/-- The module right after power-up (R365): the dies are held in reset, no context exists, memory
lists nothing. Every other field has the reset value the manual gives, or the one log entry 2
names. -/
def State.reset : State := {}

end Sys2Proof.Machine
end

