-- ==== Sys2Proof/Machine/FloatFmt.lean ====
section
/-!
DEFINITION. Number formats and exact arithmetic with one rounding (R136, R138–R146, R154): values are
exact dyadic numbers, and a result is rounded once into its format with the flags of R146.
-/
namespace Sys2Proof.Machine

/-- A float format by the widths of its exponent and fraction fields (R136). -/
structure Fmt where
  eb : Nat
  fb : Nat
deriving DecidableEq, Repr

def f32 : Fmt := ⟨8, 23⟩
def f16 : Fmt := ⟨5, 10⟩
def bf16 : Fmt := ⟨8, 7⟩

/-- A float operand: a NaN (signalling or not), an infinity, or ±m × 2^e. -/
inductive FVal where
  | nan (signalling : Bool)
  | inf (neg : Bool)
  | fin (neg : Bool) (m : Nat) (e : Int)
deriving DecidableEq, Repr

/-- Flags as in SYS.FP_STAT (R147): NX 16, UF 8, OF 4, DZ 2, IV 1. -/
abbrev FFlags := Nat

/-- A result's bits with the flags it signals. -/
abbrev FRes := Nat × FFlags

/-- The exponent of the smallest normal number. -/
def Fmt.emin (f : Fmt) : Int := 2 - 2 ^ (f.eb - 1)
def Fmt.infBits (f : Fmt) : Nat := (2 ^ f.eb - 1) * 2 ^ f.fb
def Fmt.nanBits (f : Fmt) : Nat := f.infBits + 2 ^ (f.fb - 1)
def Fmt.signBit (f : Fmt) : Nat := 2 ^ (f.eb + f.fb)
def Fmt.signed (f : Fmt) (neg : Bool) (bits : Nat) : Nat := if neg then f.signBit + bits else bits

/-- The value of a bit pattern (R136). -/
def unpack (f : Fmt) (bits : Nat) : FVal :=
  let neg := bits / f.signBit % 2 = 1
  let e := bits / 2 ^ f.fb % 2 ^ f.eb
  let m := bits % 2 ^ f.fb
  if e = 2 ^ f.eb - 1 then
    if m = 0 then .inf neg else .nan (decide (m / 2 ^ (f.fb - 1) = 0))
  else if e = 0 then .fin neg m (f.emin - f.fb)
  else .fin neg (2 ^ f.fb + m) (f.emin - f.fb + (e - 1 : Nat))

/-- The number of bits of a number: 0 for 0. -/
def bitLen (n : Nat) : Nat := if n = 0 then 0 else Nat.log2 n + 1

/-- `m × 2^e` (with something below, if `sticky`) as a multiple of `2^t`: the rounded multiple and
whether it is inexact; to nearest even, or truncated. -/
def roundAt (rtz : Bool) (m : Nat) (e t : Int) (sticky : Bool) : Nat × Bool :=
  if t ≤ e then (m * 2 ^ (e - t).toNat, sticky)
  else if bitLen m < (t - e).toNat then (0, m ≠ 0 || sticky)
  else
    let k := (t - e).toNat
    let q := m / 2 ^ k
    let r := m % 2 ^ k
    let half := 2 ^ (k - 1)
    let up := !rtz && (decide (r > half) || (r = half && (sticky || q % 2 = 1)))
    (if up then q + 1 else q, r ≠ 0 || sticky)

/-- ONE ROUNDING of ±m × 2^e into a format (R142), with NX, UF and OF (R146). -/
def pack (f : Fmt) (rtz : Bool) (neg : Bool) (m : Nat) (e : Int) (sticky : Bool) : FRes :=
  if m = 0 && !sticky then (f.signed neg 0, 0) else
  let t0 := e + (bitLen m : Int) - (f.fb + 1)
  let q0 := (roundAt rtz m e t0 sticky).1
  let tiny := decide (t0 + (bitLen q0 : Int) - 1 < f.emin)
  let low := f.emin - f.fb
  let t := if t0 < low then low else t0
  let q := roundAt rtz m e t sticky
  let bits := (t - low).toNat * 2 ^ f.fb + q.1
  if bits ≥ f.infBits then (f.signed neg (if rtz then f.infBits - 1 else f.infBits), 20)
  else (f.signed neg bits, (if q.2 then 16 else 0) + (if tiny && q.2 then 8 else 0))

def nanRes (f : Fmt) (flags : FFlags) : FRes := (f.nanBits, flags)

def FVal.isNan : FVal → Bool
  | .nan _ => true
  | _ => false
def FVal.isSnan : FVal → Bool
  | .nan s => s
  | _ => false

/-- IV when a signalling NaN stands among the operands (R144). -/
def snanFlag (xs : List FVal) : FFlags := if xs.any FVal.isSnan then 1 else 0

/-- The exact sum of two finite numbers: an integer multiple of a power of two. -/
def exactAdd (n1 : Bool) (m1 : Nat) (e1 : Int) (n2 : Bool) (m2 : Nat) (e2 : Int) : Int × Int :=
  let e := min e1 e2
  let a : Int := m1 * 2 ^ (e1 - e).toNat
  let b : Int := m2 * 2 ^ (e2 - e).toNat
  ((if n1 then -a else a) + (if n2 then -b else b), e)

/-- The rounding of an exact sum: a zero sum of opposite signs is +0 (R142), of equal signs keeps
the sign. -/
def packSum (f : Fmt) (n1 n2 : Bool) (x : Int × Int) : FRes :=
  if x.1 = 0 then (f.signed (n1 && n2) 0, 0) else pack f false (decide (x.1 < 0)) x.1.natAbs x.2 false

/-- Addition (R151). -/
def fAdd (f : Fmt) (a b : FVal) : FRes :=
  match a, b with
  | .inf s, .inf t => if s = t then (f.signed s f.infBits, 0) else nanRes f 1
  | .inf s, .fin _ _ _ => (f.signed s f.infBits, 0)
  | .fin _ _ _, .inf t => (f.signed t f.infBits, 0)
  | .fin s m e, .fin t n k => packSum f s t (exactAdd s m e t n k)
  | _, _ => nanRes f (snanFlag [a, b])

def FVal.flip : FVal → FVal
  | .nan s => .nan s
  | .inf s => .inf (!s)
  | .fin s m e => .fin (!s) m e

def fSub (f : Fmt) (a b : FVal) : FRes := fAdd f a b.flip

/-- Multiplication. -/
def fMul (f : Fmt) (a b : FVal) : FRes :=
  match a, b with
  | .inf s, .inf t => (f.signed (s != t) f.infBits, 0)
  | .inf s, .fin t m _ => if m = 0 then nanRes f 1 else (f.signed (s != t) f.infBits, 0)
  | .fin t m _, .inf s => if m = 0 then nanRes f 1 else (f.signed (s != t) f.infBits, 0)
  | .fin s m e, .fin t n k => pack f false (s != t) (m * n) (e + k) false
  | _, _ => nanRes f (snanFlag [a, b])

/-- a × b + c with one rounding (R151). 0 × ∞ is invalid even when c is a quiet NaN (R146). -/
def fFma (f : Fmt) (a b c : FVal) : FRes :=
  let zeroInf : Bool := match a, b with
    | .inf _, .fin _ 0 _ => true
    | .fin _ 0 _, .inf _ => true
    | _, _ => false
  if zeroInf then nanRes f 1 else
  if a.isNan || b.isNan || c.isNan then nanRes f (snanFlag [a, b, c]) else
  let sgn : FVal → Bool := fun x => match x with
    | .inf s => s
    | .fin s _ _ => s
    | .nan _ => false
  let ps := sgn a != sgn b
  match a, b, c with
  | .fin _ m e, .fin _ n k, .fin u l j => packSum f ps u (exactAdd ps (m * n) (e + k) u l j)
  | .fin _ _ _, .fin _ _ _, .inf u => (f.signed u f.infBits, 0)
  | _, _, .inf u => if ps = u then (f.signed u f.infBits, 0) else nanRes f 1
  | _, _, _ => (f.signed ps f.infBits, 0)

/-- a < b for numbers, −0 and +0 equal. -/
def fLt (a b : FVal) : Bool :=
  match a, b with
  | .inf s, .inf t => s && !t
  | .inf s, .fin _ _ _ => s
  | .fin _ _ _, .inf t => !t
  | .fin s m e, .fin t n k => decide ((exactAdd s m e (!t) n k).1 < 0)
  | _, _ => false

def fEq (a b : FVal) : Bool :=
  match a, b with
  | .inf s, .inf t => s = t
  | .fin s m e, .fin t n k => decide ((exactAdd s m e (!t) n k).1 = 0)
  | _, _ => false

/-- minimumNumber and maximumNumber (R145), −0 smaller than +0; `bits` are the operands' own. -/
def fMinMax (f : Fmt) (isMax : Bool) (x y : Nat) : FRes :=
  let a := unpack f x
  let b := unpack f y
  let fl := snanFlag [a, b]
  let low := 2 ^ (f.eb + f.fb + 1)
  if a.isNan && b.isNan then nanRes f fl
  else if a.isNan then (y % low, fl)
  else if b.isNan then (x % low, fl)
  else
    let less := fLt a b || (fEq a b && decide (x / f.signBit % 2 = 1))
    ((if less != isMax then x else y) % low, fl)

/-! ## Roots and reciprocals -/

/-- The integer square root, bit by bit from bit `i` − 1. -/
def isqrtFrom (n : Nat) : Nat → Nat → Nat
  | 0, r => r
  | i + 1, r => isqrtFrom n i (if (r + 2 ^ i) * (r + 2 ^ i) ≤ n then r + 2 ^ i else r)
def isqrt (n : Nat) : Nat := isqrtFrom n (Nat.log2 n / 2 + 1) 0

/-- 1 / a (R154). -/
def fRcp (f : Fmt) (a : FVal) : FRes :=
  match a with
  | .nan s => nanRes f (if s then 1 else 0)
  | .inf s => (f.signed s 0, 0)
  | .fin s 0 _ => (f.signed s f.infBits, 2)
  | .fin s m e =>
    let k := bitLen m + f.fb + 4
    pack f false s (2 ^ k / m) (-e - k) (decide (2 ^ k % m ≠ 0))

/-- √a. -/
def fSqrt (f : Fmt) (a : FVal) : FRes :=
  match a with
  | .nan s => nanRes f (if s then 1 else 0)
  | .inf s => if s then nanRes f 1 else (f.infBits, 0)
  | .fin s 0 _ => (f.signed s 0, 0)
  | .fin s m e =>
    if s then nanRes f 1 else
    let k := 2 * (f.fb + 4) + (e % 2).toNat
    let x := m * 2 ^ k
    let r := isqrt x
    pack f false false r ((e - k) / 2) (decide (r * r ≠ x))

/-- 1 / √a. -/
def fRsq (f : Fmt) (a : FVal) : FRes :=
  match a with
  | .nan s => nanRes f (if s then 1 else 0)
  | .inf s => if s then nanRes f 1 else (0, 0)
  | .fin s 0 _ => (f.signed s f.infBits, 2)
  | .fin s m e =>
    if s then nanRes f 1 else
    let odd := (e % 2).toNat
    let m := m * 2 ^ odd
    let k := bitLen m + f.fb + 4
    let r := isqrt (2 ^ (2 * k) / m)
    pack f false false r (-k - (e - odd) / 2) (decide (r * r * m ≠ 2 ^ (2 * k)))

/-! ## Powers and logarithms to base 2, in fixed point (log entry 14) -/

/-- Fraction bits of the fixed point. -/
def fixP : Nat := 320

/-- ln 2 × 2^320: the sum of 2^320 / (k 2^k). -/
def ln2Sum : Nat → Nat
  | 0 => 0
  | k + 1 => ln2Sum k + 2 ^ (fixP + 40) / ((k + 1) * 2 ^ (k + 1))
def ln2Fix : Nat := ln2Sum 360 / 2 ^ 40

/-- The exponential series from term `t` (the k-th) on: Σ y^j / j! in fixed point. -/
def expSum (y : Nat) : Nat → Nat → Nat → Nat
  | 0, _, _ => 0
  | n + 1, k, t => t + expSum y n (k + 1) (t * y / 2 ^ fixP / (k + 1))

/-- 2^a (R154). -/
def fExp2 (f : Fmt) (a : FVal) : FRes :=
  match a with
  | .nan s => nanRes f (if s then 1 else 0)
  | .inf s => (if s then 0 else f.infBits, 0)
  | .fin s m e =>
    if m = 0 then pack f false false 1 0 false else
    -- the integer part and the fraction × 2^320, of a magnitude first cut at 2^12
    if e + (bitLen m : Int) > 12 then
      (if s then pack f false false 1 (-5000) true else pack f false false 1 5000 true)
    else
      let x : Int := (m * 2 ^ (e + fixP).toNat : Nat)
      let x := if s then -x else x
      let n := x / (2 ^ fixP : Nat)
      let fr := (x % (2 ^ fixP : Nat)).toNat
      if fr = 0 then pack f false false 1 n false
      else pack f false false (expSum (fr * ln2Fix / 2 ^ fixP) 80 0 (2 ^ fixP)) (n - fixP) true

/-- Σ z^(2j+1) / (2j+1) in fixed point: `t` is z^(2j+1), `zz` is z². -/
def atanhSum (zz : Nat) : Nat → Nat → Nat → Nat
  | 0, _, _ => 0
  | n + 1, j, t => t / (2 * j + 1) + atanhSum zz n (j + 1) (t * zz / 2 ^ fixP)

/-- log2 a (R154). -/
def fLog2 (f : Fmt) (a : FVal) : FRes :=
  match a with
  | .nan s => nanRes f (if s then 1 else 0)
  | .inf s => if s then nanRes f 1 else (f.infBits, 0)
  | .fin _ 0 _ => (f.signed true f.infBits, 2)
  | .fin s m e =>
    if s then nanRes f 1 else
    let b := bitLen m - 1
    let k : Int := e + b
    if m = 2 ^ b then
      if k = 0 then (0, 0) else pack f false (decide (k < 0)) k.natAbs 0 false
    else
      let z := (m - 2 ^ b) * 2 ^ fixP / (m + 2 ^ b)
      let l := 2 * atanhSum (z * z / 2 ^ fixP) 110 0 z * 2 ^ fixP / ln2Fix
      let v : Int := k * (2 ^ fixP : Nat) + l
      if v < 0 then pack f false true (v.natAbs - 1) (-fixP) true else pack f false false v.natAbs (-fixP) true

/-! ## Scaling, conversion and classes -/

/-- a × 2^n (R153). -/
def fScale (f : Fmt) (bits : Nat) (n : Int) : FRes :=
  match unpack f bits with
  | .nan s => nanRes f (if s then 1 else 0)
  | .inf s => (f.signed s f.infBits, 0)
  | .fin s m e => if m = 0 then (f.signed s 0, 0) else pack f false s m (e + n) false

/-- Float to float (R155). -/
def fCvt (dst : Fmt) (rtz : Bool) (a : FVal) : FRes :=
  match a with
  | .nan s => nanRes dst (if s then 1 else 0)
  | .inf s => (dst.signed s dst.infBits, 0)
  | .fin s m e => pack dst rtz s m e false

/-- Float to a 32-bit integer in lo … hi (R155). -/
def fToInt (rtz : Bool) (lo hi : Int) (a : FVal) : Int × FFlags :=
  match a with
  | .nan _ => (0, 1)
  | .inf s => (if s then lo else hi, 1)
  | .fin s m e =>
    if e + (bitLen m : Int) > 64 then (if s then lo else hi, 1) else
    let q := roundAt rtz m e 0 false
    let r : Int := if s then -(q.1 : Int) else q.1
    if r < lo then (lo, 1) else if hi < r then (hi, 1) else (r, if q.2 then 16 else 0)

/-- Integer to FP32. -/
def fFromInt (rtz : Bool) (x : Int) : FRes := pack f32 rtz (decide (x < 0)) x.natAbs 0 false

/-- The class mask (R156). -/
def fClass (f : Fmt) (bits : Nat) : Nat :=
  match unpack f bits with
  | .nan s => if s then 0x100 else 0x200
  | .inf s => if s then 0x001 else 0x080
  | .fin s m _ =>
    if m = 0 then (if s then 0x008 else 0x010)
    else if m < 2 ^ f.fb then (if s then 0x004 else 0x020)
    else (if s then 0x002 else 0x040)

/-! ## Shadow units (R158) -/

/-- The kind of a checked result: a float format, an element format that holds no special value, or an integer of
FCVT or of a drain. -/
inductive ResFmt where
  | float (f : Fmt)
  | small (f : Fmt)
  | int (signed : Bool)
deriving DecidableEq, Repr

/-- Class, sign and key of a float result. -/
def floatSign (f : Fmt) (bits : Nat) : Shadow :=
  { cls := match unpack f bits with
      | .nan _ => .nan
      | .inf _ => .infinite
      | .fin _ m _ => if m = 0 then .zero else .finite
    neg := decide (bits / f.signBit % 2 = 1)
    key := bits / 2 ^ f.fb % 2 ^ f.eb * 16 + bits % 2 ^ f.fb * 16 / 2 ^ f.fb }

/-- Class, sign and key of an integer result: the key from the place of the highest 1 bit of the magnitude and the
four bits below it. -/
def intSign (signed : Bool) (x : Word) : Shadow :=
  let n := if signed then x.toInt.natAbs else x.toNat
  let p := bitLen n - 1
  { cls := if n = 0 then .zero else .finite, neg := signed && x.getLsbD 31
    key := if n = 0 then 0 else p * 16 + n * 16 / 2 ^ p % 16 }

/-- What a shadow unit that works computes of a result, up to 1 in the key. -/
def signOf (k : ResFmt) (x : Word) : Shadow :=
  match k with
  | .float f => floatSign f x.toNat
  | .small f => { floatSign f x.toNat with cls := if x.toNat % f.signBit = 0 then .zero else .finite }
  | .int signed => intSign signed x

/-- THE SHADOW CHECK (R158): class, then sign but for a NaN, then the distance of the keys. -/
def Shadow.differs (s r : Shadow) : Bool :=
  decide (s.cls ≠ r.cls) || (decide (s.neg ≠ r.neg) && decide (r.cls ≠ .nan)) || decide (s.key > r.key + 1)
    || decide (r.key > s.key + 1)

/-- The shadow unit of a lane differs from the lane's result, where the rows list what it computed. -/
def shadowFails (rows : List (Nat × Shadow)) (k : ResFmt) (lane : Nat) (x : Word) : Bool :=
  match rows.find? fun e => e.1 = lane with
  | some e => e.2.differs (signOf k x)
  | none => false

end Sys2Proof.Machine
end

