-- ==== Sys2Proof/Decode.lean ====
section
/-!
DEFINITION. The decoders of the two kinds of instruction word, total on any 32 bits and rejecting
by name, and after them the encoder, both written from the layouts of R56–R60 and R251–R265 and
the opcode maps of R77–R80 and R252.
-/
namespace Sys2Proof

/-- Why a word is no instruction: its opcode is unassigned in its pipe's map (cause 0x02, R80),
a reserved field is nonzero or a selector is unassigned (cause 0x03, R71, R76), or it is no word
of a copy processor (cause 0x28, R251). -/
inductive Reject where
  | illegalOpcode
  | reservedField
  | copyIllegal
deriving DecidableEq, Repr

/-- Bit 31: the pipe. -/
def fPipe (w : Word) : Pipe := if w.getLsbD 31 then .gang else .lane
/-- Bits 30:23: OP. -/
def fOp (w : Word) : BitVec 8 := w.extractLsb' 23 8
/-- Bits 22:17: D. -/
def fD (w : Word) : BitVec 6 := w.extractLsb' 17 6
/-- Bits 16:11: A. -/
def fA (w : Word) : BitVec 6 := w.extractLsb' 11 6
/-- Bits 10:5: B, IMM6, or a selector. -/
def fB (w : Word) : BitVec 6 := w.extractLsb' 5 6
/-- Bits 4:3: the strand. -/
def fS (w : Word) : BitVec 2 := w.extractLsb' 3 2
/-- Bit 2: W. -/
def fW (w : Word) : Bool := w.getLsbD 2
/-- Bits 1:0: the stall hint. -/
def fH (w : Word) : BitVec 2 := w.extractLsb' 0 2
/-- Bits 16:1 of format W. -/
def fImm16 (w : Word) : BitVec 16 := w.extractLsb' 1 16
/-- Bit 0 of format W: MOVH. -/
def fHs (w : Word) : Bool := w.getLsbD 0
/-- Bits 22:20 of format B. -/
def fQi (w : Word) : BitVec 3 := w.extractLsb' 20 3
/-- Bit 19 of format B. -/
def fPol (w : Word) : Bool := w.getLsbD 19
/-- Bits 18:0 of format B. -/
def fOff19 (w : Word) : BitVec 19 := w.extractLsb' 0 19
/-- Bits 16:0 of AUTO.ENTER (R60). -/
def fOff17 (w : Word) : BitVec 17 := w.extractLsb' 0 17
/-- Bits 9:5: the selector of XRED and XSCAN (R115). -/
def fSel5 (w : Word) : BitVec 5 := w.extractLsb' 5 5
/-- Bits 7:5: the selector of MDRAIN's lane forms (R277). -/
def fSel3 (w : Word) : BitVec 3 := w.extractLsb' 5 3
/-- Bit 10: .excl of XSCAN (R112). -/
def fX (w : Word) : Bool := w.getLsbD 10

/-- The fields of format A, shape by shape. -/
def rO3 (w : Word) : O3 := ⟨fD w, fA w, fB w, fS w, fW w, fH w⟩
def rO2 (w : Word) : O2 := ⟨fD w, fA w, fS w, fW w, fH w⟩
def rO3n (w : Word) : O3n := ⟨fD w, fA w, fB w, fS w, fH w⟩
def rOAB (w : Word) : OAB := ⟨fA w, fB w, fS w, fH w⟩
def rOA (w : Word) : OA := ⟨fA w, fS w, fH w⟩
def rOD (w : Word) : OD := ⟨fD w, fS w, fW w, fH w⟩

/-- SEL6 of the unary float instructions: .f32, .f16, .bf16 (R150). -/
def sel6Ok (e : BitVec 6) : Bool := e.toNat < 3
/-- The conversion codes of FCVT (R155). -/
def fcvtOk (e : BitVec 6) : Bool :=
  e.toNat < 0x0A || (0x10 ≤ e.toNat && e.toNat < 0x14) || (0x18 ≤ e.toNat && e.toNat < 0x1C)
/-- Bits 10:5 of BALLOT: 0, or 0b100kkk (R112). -/
def ballotOk (e : BitVec 6) : Bool :=
  e == 0#6 || e.extractLsb' 3 3 == 0x4#3
/-- The selectors of R115. -/
def reduceOk (e : BitVec 5) : Bool := e.toNat < 0x0B
/-- FENCE: neither set empty, a scope code of 0–5 (R214). -/
def fenceOk (k n c : BitVec 6) : Bool := k != 0#6 && n != 0#6 && c.toNat < 6
/-- The lane selectors of MDRAIN (R277). -/
def drainLaneOk (e : BitVec 3) : Bool := e.toNat < 5
/-- The port selectors of MDRAIN (R277). -/
def drainPortOk (e : BitVec 6) : Bool :=
  (0x10 ≤ e.toNat && e.toNat < 0x15) || (0x18 ≤ e.toNat && e.toNat < 0x1E) || (0x28 ≤ e.toNat && e.toNat < 0x2E)
/-- An immediate shift count of a copy word: 0–31 (R253). -/
def shiftImmOk (i : BitVec 17) : Bool := i.toNat < 32
/-- A dimension of a cursor: 0–4 (R257). -/
def dimOk (d : BitVec 3) : Bool := d.toNat < 5
/-- NB = 1 leaves the barrier field 0 ("Data commands"). -/
def barOk (nb : Bool) (b : BitVec 8) : Bool := !nb || b == 0#8

/-- An instruction if its reserved fields and selectors are as its entry gives, else cause 0x03. -/
def need (ok : Bool) (i : Instr) : Except Reject Instr := if ok then .ok i else .error .reservedField

/-- The same for a copy word, where the cause is 0x28 (R251). -/
def xneed (ok : Bool) (i : Instr) : Except Reject Instr := if ok then .ok i else .error .copyIllegal

/-- Copy-word fields (R253, R257, "Data commands"). -/
def fI17 (w : Word) : BitVec 17 := w.extractLsb' 0 17
def fDim (w : Word) : BitVec 3 := w.extractLsb' 21 3
def fNb (w : Word) : Bool := w.getLsbD 21
def fBar (w : Word) : BitVec 8 := w.extractLsb' 12 8
def rCrR (w : Word) : CrR := ⟨w.extractLsb' 22 4, w.extractLsb' 18 4, w.extractLsb' 13 4⟩
def rCrI (w : Word) : CrI := ⟨w.extractLsb' 22 4, w.extractLsb' 18 4, fI17 w⟩

/-- Opcodes 0x00–0x3F, the same in both pipes (R77). -/
def decodeShared (p : Pipe) (w : Word) (op : Nat) : Except Reject Instr :=
  match op with
  | 0x00 =>
      .ok (.iaddA p (rO3 w))
  | 0x01 =>
      .ok (.iaddI p (rO3 w))
  | 0x02 =>
      .ok (.isubA p (rO3 w))
  | 0x03 =>
      .ok (.isubI p (rO3 w))
  | 0x04 =>
      .ok (.imulA p (rO3 w))
  | 0x05 =>
      .ok (.imulI p (rO3 w))
  | 0x06 =>
      .ok (.imulhS32 p (rO3 w))
  | 0x07 =>
      .ok (.imulhN32 p (rO3 w))
  | 0x08 =>
      .ok (.imad p (rO3 w))
  | 0x09 =>
      .ok (.iaddSatS32 p (rO3 w))
  | 0x0A =>
      .ok (.iaddSatN32 p (rO3 w))
  | 0x0B =>
      .ok (.isubSatS32 p (rO3 w))
  | 0x0C =>
      .ok (.isubSatN32 p (rO3 w))
  | 0x0D =>
      .ok (.iminS32 p (rO3 w))
  | 0x0E =>
      .ok (.iminN32 p (rO3 w))
  | 0x0F =>
      .ok (.imaxS32 p (rO3 w))
  | 0x10 =>
      .ok (.imaxN32 p (rO3 w))
  | 0x11 =>
      need (fB w == 0#6) (.iabs p (rO2 w))
  | 0x12 =>
      need (fB w == 0#6) (.iabsSat p (rO2 w))
  | 0x13 =>
      .ok (.andA p (rO3 w))
  | 0x14 =>
      .ok (.orB p (rO3 w))
  | 0x15 =>
      .ok (.xorB p (rO3 w))
  | 0x16 =>
      .ok (.andn p (rO3 w))
  | 0x17 =>
      .ok (.andI p (rO3 w))
  | 0x18 =>
      .ok (.shlA p (rO3 w))
  | 0x19 =>
      .ok (.shlI p (rO3 w))
  | 0x1A =>
      .ok (.shrA p (rO3 w))
  | 0x1B =>
      .ok (.shrI p (rO3 w))
  | 0x1C =>
      .ok (.sarA p (rO3 w))
  | 0x1D =>
      .ok (.sarI p (rO3 w))
  | 0x1E =>
      .ok (.rotA p (rO3 w))
  | 0x1F =>
      .ok (.rotI p (rO3 w))
  | 0x20 =>
      .ok (.bfxN32 p (rO3 w))
  | 0x21 =>
      .ok (.bfxS32 p (rO3 w))
  | 0x22 =>
      .ok (.bfi p (rO3 w))
  | 0x23 =>
      need (fB w == 0#6) (.popc p (rO2 w))
  | 0x24 =>
      need (fB w == 0#6) (.clz p (rO2 w))
  | 0x25 =>
      need (fB w == 0#6) (.brev p (rO2 w))
  | 0x26 =>
      need (fB w == 0#6) (.mov p (rO2 w))
  | 0x27 =>
      need (!fW w) (.lea p (rO3n w))
  | 0x28 =>
      .ok (.icmpEq p (rO3 w))
  | 0x29 =>
      .ok (.icmpNe p (rO3 w))
  | 0x2A =>
      .ok (.icmpLtS32 p (rO3 w))
  | 0x2B =>
      .ok (.icmpLeS32 p (rO3 w))
  | 0x2C =>
      .ok (.icmpGtS32 p (rO3 w))
  | 0x2D =>
      .ok (.icmpGeS32 p (rO3 w))
  | 0x2E =>
      .ok (.icmpLtN32 p (rO3 w))
  | 0x2F =>
      .ok (.icmpLeN32 p (rO3 w))
  | 0x30 =>
      .ok (.sel p (rO3 w))
  | 0x31 =>
      .ok (.icmpGtN32 p (rO3 w))
  | 0x32 =>
      .ok (.icmpGeN32 p (rO3 w))
  | 0x33 =>
      .ok (.iaddSatS16 p (rO3 w))
  | 0x34 =>
      .ok (.iaddSatN16 p (rO3 w))
  | 0x35 =>
      .ok (.isubSatS16 p (rO3 w))
  | 0x36 =>
      .ok (.isubSatN16 p (rO3 w))
  | 0x37 =>
      .ok (.iaddS16 p (rO3 w))
  | 0x38 =>
      .ok (.iaddN16 p (rO3 w))
  | 0x39 =>
      .ok (.isubS16 p (rO3 w))
  | 0x3A =>
      .ok (.isubN16 p (rO3 w))
  | 0x3B =>
      .ok (.imulS16 p (rO3 w))
  | 0x3C =>
      .ok (.imulN16 p (rO3 w))
  | 0x3D =>
      .ok (.imulSat p (rO3 w))
  | 0x3E =>
      if fHs w then .ok (.movh p (fD w) (fImm16 w)) else .ok (.movl p (fD w) (fImm16 w))
  | _ => .error .illegalOpcode

/-- Lane pipe, 0x40–0xFF (R78). -/
def decodeLane (w : Word) (op : Nat) : Except Reject Instr :=
  match op with
  | 0x40 =>
      .ok (.faddF32 (rO3 w))
  | 0x41 =>
      .ok (.fsubF32 (rO3 w))
  | 0x42 =>
      .ok (.fmulF32 (rO3 w))
  | 0x43 =>
      .ok (.ffmaF32 (rO3 w))
  | 0x44 =>
      .ok (.fminF32 (rO3 w))
  | 0x45 =>
      .ok (.fmaxF32 (rO3 w))
  | 0x46 =>
      .ok (.faddF16 (rO3 w))
  | 0x47 =>
      .ok (.fsubF16 (rO3 w))
  | 0x48 =>
      .ok (.fmulF16 (rO3 w))
  | 0x49 =>
      .ok (.ffmaF16 (rO3 w))
  | 0x4A =>
      .ok (.fminF16 (rO3 w))
  | 0x4B =>
      .ok (.fmaxF16 (rO3 w))
  | 0x4C =>
      .ok (.faddBf16 (rO3 w))
  | 0x4D =>
      .ok (.fsubBf16 (rO3 w))
  | 0x4E =>
      .ok (.fmulBf16 (rO3 w))
  | 0x4F =>
      .ok (.ffmaBf16 (rO3 w))
  | 0x50 =>
      .ok (.fminBf16 (rO3 w))
  | 0x51 =>
      .ok (.fmaxBf16 (rO3 w))
  | 0x52 =>
      .ok (.fcmpEq (rO3 w))
  | 0x53 =>
      .ok (.fcmpLt (rO3 w))
  | 0x54 =>
      .ok (.fcmpLe (rO3 w))
  | 0x55 =>
      .ok (.fcmpUn (rO3 w))
  | 0x56 =>
      .ok (.fscale (rO3 w))
  | 0x57 =>
      need (sel6Ok (fB w)) (.fabs (rO3 w))
  | 0x58 =>
      need (sel6Ok (fB w)) (.fneg (rO3 w))
  | 0x59 =>
      need (sel6Ok (fB w)) (.frcp (rO3 w))
  | 0x5A =>
      need (sel6Ok (fB w)) (.frsq (rO3 w))
  | 0x5B =>
      need (sel6Ok (fB w)) (.fsqrt (rO3 w))
  | 0x5C =>
      need (sel6Ok (fB w)) (.fexp2 (rO3 w))
  | 0x5D =>
      need (sel6Ok (fB w)) (.flog2 (rO3 w))
  | 0x5E =>
      need (fcvtOk (fB w)) (.fcvt (rO3 w))
  | 0x5F =>
      need (sel6Ok (fB w)) (.fclass (rO3 w))
  | 0x60 =>
      .ok (.byteq (rO3 w))
  | 0x61 =>
      .ok (.bfind (rO3 w))
  | 0x62 =>
      .ok (.bperm (rO3 w))
  | 0x63 =>
      .ok (.crcC (rO3 w))
  | 0x64 =>
      .ok (.hmix (rO3 w))
  | 0x65 =>
      .ok (.dfaStep4 (rO3 w))
  | 0x66 =>
      need (fD w == 0#6 && !fW w) (.rngSeed (rOAB w))
  | 0x67 =>
      need (fA w == 0#6 && fB w == 0#6) (.rngNext (rOD w))
  | 0x68 =>
      .ok (.prune (rO3 w))
  | 0x70 =>
      need (ballotOk (fB w)) (.ballot (rO3 w))
  | 0x71 =>
      .ok (.shflIdx (rO3 w))
  | 0x72 =>
      .ok (.shflXor (rO3 w))
  | 0x73 =>
      .ok (.shflUp (rO3 w))
  | 0x74 =>
      .ok (.shflDown (rO3 w))
  | 0x75 =>
      need (!fX w && reduceOk (fSel5 w)) (.xred (rO2 w) (fSel5 w))
  | 0x76 =>
      need (reduceOk (fSel5 w)) (.xscan (rO2 w) (fX w) (fSel5 w))
  | 0x77 =>
      need (!fW w) (.isect (rO3n w))
  | 0x78 =>
      need (fB w == 0#6) (.matchL (rO2 w))
  | 0x79 =>
      .ok (.bcast (rO3 w))
  | 0x80 =>
      .ok (.ldS16A (rO3 w))
  | 0x81 =>
      .ok (.ldS16I (rO3 w))
  | 0x82 =>
      .ok (.ldN16A (rO3 w))
  | 0x83 =>
      .ok (.ldN16I (rO3 w))
  | 0x84 =>
      .ok (.ldB32A (rO3 w))
  | 0x85 =>
      .ok (.ldB32I (rO3 w))
  | 0x88 =>
      need (!fW w) (.stB32A (rO3n w))
  | 0x89 =>
      need (!fW w) (.stB32I (rO3n w))
  | 0x8A =>
      need (!fW w) (.stN16A (rO3n w))
  | 0x8B =>
      need (!fW w) (.stN16I (rO3n w))
  | 0x8C =>
      .ok (.ldc (rO3 w))
  | 0x8D =>
      need (!fW w) (.stc (rO3n w))
  | 0x90 =>
      need (!fW w) (.atomAdd (rO3n w))
  | 0x91 =>
      need (!fW w) (.atomAnd (rO3n w))
  | 0x92 =>
      need (!fW w) (.atomOr (rO3n w))
  | 0x93 =>
      need (!fW w) (.atomXor (rO3n w))
  | 0x94 =>
      need (!fW w) (.atomMinS32 (rO3n w))
  | 0x95 =>
      need (!fW w) (.atomMaxS32 (rO3n w))
  | 0x96 =>
      need (!fW w) (.atomMinN32 (rO3n w))
  | 0x97 =>
      need (!fW w) (.atomMaxN32 (rO3n w))
  | 0x98 =>
      need (!fW w) (.atomXchg (rO3n w))
  | 0x99 =>
      need (!fW w) (.atomCas (rO3n w))
  | 0x9A =>
      need (!fW w) (.redMAdd (rO3n w))
  | 0x9B =>
      need (!fW w) (.redMAddF32 (rO3n w))
  | 0x9C =>
      need (!fW w) (.redMMinS32 (rO3n w))
  | 0x9D =>
      need (!fW w) (.redMMaxS32 (rO3n w))
  | 0x9E =>
      need (!fW w) (.redMMinN32 (rO3n w))
  | 0x9F =>
      need (!fW w) (.redMMaxN32 (rO3n w))
  | 0xA0 =>
      .ok (.ldv (rO3 w))
  | 0xA1 =>
      need (!fW w) (.stv (rO3n w))
  | 0xA2 =>
      .ok (.vlatest (rO3 w))
  | 0xC0 =>
      need (fD w == 0#6 && fB w == 0#6 && !fW w) (.bnext (rOA w))
  | 0xC1 =>
      need (fD w == 0#6 && fB w == 0#6 && !fW w) (.setblk (rOA w))
  | _ => .error .illegalOpcode

/-- Gang pipe, 0x40–0xFF (R79). -/
def decodeGang (w : Word) (op : Nat) : Except Reject Instr :=
  match op with
  | 0x80 =>
      .ok (.ldgA (rO3 w))
  | 0x81 =>
      .ok (.ldgI (rO3 w))
  | 0x82 =>
      need (!fW w) (.stgA (rO3n w))
  | 0x83 =>
      need (!fW w) (.stgI (rO3n w))
  | 0x84 =>
      need (fD w == 0#6 && !fW w) (.vpin (rOAB w))
  | 0x85 =>
      need (fD w == 0#6 && !fW w) (.vunpin (rOAB w))
  | 0x86 =>
      need (fD w == 0#6 && !fW w) (.vfloor (rOAB w))
  | 0x87 =>
      .ok (.spalloc (rO3 w))
  | 0x88 =>
      need (fD w == 0#6 && !fW w) (.sprenew (rOAB w))
  | 0x89 =>
      need (fD w == 0#6 && !fW w) (.sprenewZ (rOAB w))
  | 0x8A =>
      need (fD w == 0#6 && fB w == 0#6 && !fW w) (.spfree (rOA w))
  | 0x8B =>
      need (fB w == 0#6) (.spinfo (rO2 w))
  | 0x8C =>
      .ok (.pkst (rO3 w))
  | 0x8D =>
      .ok (.pkld (rO3 w))
  | 0x8E =>
      need (!fW w && fenceOk (fD w) (fA w) (fB w)) (.fence (rO3n w))
  | 0x8F =>
      need (fD w == 0#6 && !fW w) (.flush (rOAB w))
  | 0x90 =>
      need (fD w == 0#6 && !fW w) (.tdLoad (rOAB w))
  | 0x91 =>
      need (fD w == 0#6 && !fW w) (.tdSet (rOAB w))
  | 0xA0 =>
      need (fD w == 0#6 && !fW w) (.mload (rOAB w))
  | 0xA1 =>
      need (fD w == 0#6 && fA w == 0#6 && fB w == 0#6 && !fW w) (.mswap (fS w) (fH w))
  | 0xA2 =>
      need (fD w == 0#6 && !fW w) (.mstream (rOAB w))
  | 0xA3 =>
      need (fD w == 0#6 && fB w == 0#6 && !fW w) (.mzero (rOA w))
  | 0xA4 =>
      if (fB w).extractLsb' 3 3 == 0#3 then need (drainLaneOk (fSel3 w)) (.mdrain (rO2 w) (fSel3 w))
      else need (fD w == 0#6 && !fW w && drainPortOk (fB w)) (.mdrainXp (rOAB w))
  | 0xA5 =>
      need (!fW w) (.mtile (rO3n w))
  | 0xA6 =>
      need (fB w == 0#6) (.mstat (rO2 w))
  | 0xC0 =>
      need (fQi w == 0#3 && !fPol w) (.bra (fOff19 w))
  | 0xC1 =>
      .ok (.brcAny (fQi w) (fPol w) (fOff19 w))
  | 0xC2 =>
      .ok (.brcAll (fQi w) (fPol w) (fOff19 w))
  | 0xC3 =>
      need (fQi w == 0#3 && !fPol w) (.call (fOff19 w))
  | 0xC4 =>
      need (fD w == 0#6 && fB w == 0#6 && !fW w) (.ret (rOA w))
  | 0xC5 =>
      need (fD w == 0#6 && fA w == 0#6 && fB w == 0#6 && !fW w && fH w == 0#2) (.regang (fS w))
  | 0xC6 =>
      need (fD w == 0#6 && fA w == 0#6 && fB w == 0#6 && !fW w && fH w == 0#2) (.exitG (fS w))
  | 0xC7 =>
      need (fD w == 0#6 && fA w == 0#6 && fB w == 0#6 && !fW w && fH w == 0#2) (.nop (fS w))
  | 0xC8 =>
      need (fD w == 0#6 && fA w == 0#6 && fB w == 0#6 && !fW w && fH w == 0#2) (.yield (fS w))
  | 0xD0 =>
      .ok (.autoEnter (fD w) (fOff17 w))
  | 0xD2 =>
      need (fD w == 0#6 && fA w == 0#6 && fB w == 0#6 && fS w == 0#2 && !fW w && fH w == 0#2) (.autoStep)
  | 0xD3 =>
      need (fD w == 0#6 && fA w == 0#6 && fB w == 0#6 && fS w == 0#2 && !fW w && fH w == 0#2) (.autoExit)
  | 0xE0 =>
      need (fD w == 0#6 && !fW w) (.barInit (rOAB w))
  | 0xE1 =>
      need (fB w == 0#6) (.barArrive (rO2 w))
  | 0xE2 =>
      need (fD w == 0#6 && !fW w) (.barWait (rOAB w))
  | 0xE3 =>
      need (fD w == 0#6 && !fW w) (.barArm (rOAB w))
  | 0xE4 =>
      .ok (.barTest (rO3 w))
  | 0xE5 =>
      .ok (.cohJoin (rO3 w))
  | 0xE6 =>
      need (fD w == 0#6 && fB w == 0#6 && !fW w) (.cohLeave (rOA w))
  | 0xE7 =>
      need (fB w == 0#6) (.cohInfo (rO2 w))
  | 0xE8 =>
      need (fB w == 0#6) (.nodePost (rO2 w))
  | 0xE9 =>
      need (fD w == 0#6 && !fW w) (.tlWait (rOAB w))
  | 0xEA =>
      need (fB w == 0#6) (.tlRead (rO2 w))
  | 0xEB =>
      need (fD w == 0#6 && !fW w) (.xpStart (rOAB w))
  | 0xEC =>
      need (fB w == 0#6) (.xpStatus (rO2 w))
  | 0xF0 =>
      need (fD w == 0#6 && fA w == 0#6 && fB w == 0#6 && !fW w && fH w == 0#2) (.idem (fS w))
  | 0xF1 =>
      need (fD w == 0#6 && fB w == 0#6 && !fW w && fH w == 0#2) (.contOpen (fA w) (fS w))
  | 0xF2 =>
      need (fD w == 0#6 && fA w == 0#6 && fB w == 0#6 && !fW w && fH w == 0#2) (.contClose (fS w))
  | 0xF3 =>
      need (fD w == 0#6 && fA w == 0#6 && !fW w && fH w == 0#2) (.trap (fB w) (fS w))
  | 0xF4 =>
      need (fD w == 0#6 && fA w == 0#6 && fB w == 0#6 && fS w == 0#2 && !fW w && fH w == 0#2) (.rett)
  | 0xF5 =>
      .ok (.sysrd (fD w) (fA w ++ fB w) (fS w) (fW w) (fH w))
  | 0xF6 =>
      need (!fW w) (.syswr (fD w) (fA w ++ fB w) (fS w) (fH w))
  | 0xF7 =>
      need (fD w == 0#6 && fA w == 0#6 && fB w == 0#6 && !fW w && fH w == 0#2) (.stepMark (fS w))
  | 0xF8 =>
      if fB w == 0#6 then need (fS w == 0#2) (.movsGet (fD w) (fA w) (fW w) (fH w))
      else need (fB w == 1#6 && fS w == 0#2 && !fW w) (.movsPut (fD w) (fA w) (fH w))
  | _ => .error .illegalOpcode

/-- The decoder of the compute pipes: every 32-bit word is an instruction or is rejected by name.
The opcode is looked up in the map of the word's own pipe (R71 check 1, R80), then the reserved
fields are checked (R71 check 2, R76). -/
def decodeCompute (w : Word) : Except Reject Instr :=
  let op := (fOp w).toNat
  if op < 0x40 then decodeShared (fPipe w) w op
  else match fPipe w with
    | .lane => decodeLane w op
    | .gang => decodeGang w op

/-- The opcodes of a copy word other than MOVE.G (R252). -/
noncomputable def decodeXpOp (w : Word) (op : Nat) : Except Reject Instr :=
  match op with
  | 0x00 =>
      xneed (w.extractLsb' 0 26 == 0#26) .xpNop
  | 0x01 =>
      xneed (w.extractLsb' 0 26 == 0#26) .xpHalt
  | 0x02 =>
      xneed (w.extractLsb' 16 5 == 0#5) (.xpMovi (w.extractLsb' 22 4) (w.getLsbD 21) (w.extractLsb' 0 16))
  | 0x03 =>
      xneed (w.extractLsb' 16 3 == 0#3) (.xpLdx (w.extractLsb' 22 4) (w.extractLsb' 19 3) (w.extractLsb' 0 16))
  | 0x04 =>
      if w.getLsbD 17 then .ok (.xpAddImm (rCrI w)) else xneed (w.extractLsb' 0 13 == 0#13) (.xpAddReg (rCrR w))
  | 0x05 =>
      if w.getLsbD 17 then .ok (.xpSubImm (rCrI w)) else xneed (w.extractLsb' 0 13 == 0#13) (.xpSubReg (rCrR w))
  | 0x06 =>
      if w.getLsbD 17 then .ok (.xpMulImm (rCrI w)) else xneed (w.extractLsb' 0 13 == 0#13) (.xpMulReg (rCrR w))
  | 0x07 =>
      if w.getLsbD 17 then xneed (shiftImmOk (fI17 w)) (.xpShlImm (rCrI w)) else xneed (w.extractLsb' 0 13 == 0#13) (.xpShlReg (rCrR w))
  | 0x08 =>
      if w.getLsbD 17 then xneed (shiftImmOk (fI17 w)) (.xpShrImm (rCrI w)) else xneed (w.extractLsb' 0 13 == 0#13) (.xpShrReg (rCrR w))
  | 0x09 =>
      if w.getLsbD 17 then .ok (.xpAndImm (rCrI w)) else xneed (w.extractLsb' 0 13 == 0#13) (.xpAndReg (rCrR w))
  | 0x0A =>
      if w.getLsbD 17 then .ok (.xpOrImm (rCrI w)) else xneed (w.extractLsb' 0 13 == 0#13) (.xpOrReg (rCrR w))
  | 0x0C =>
      if w.getLsbD 17 then .ok (.xpCmpEqImm (rCrI w)) else xneed (w.extractLsb' 0 13 == 0#13) (.xpCmpEqReg (rCrR w))
  | 0x0D =>
      if w.getLsbD 17 then .ok (.xpCmpNeImm (rCrI w)) else xneed (w.extractLsb' 0 13 == 0#13) (.xpCmpNeReg (rCrR w))
  | 0x0E =>
      if w.getLsbD 17 then .ok (.xpCmpLtImm (rCrI w)) else xneed (w.extractLsb' 0 13 == 0#13) (.xpCmpLtReg (rCrR w))
  | 0x0F =>
      if w.getLsbD 17 then .ok (.xpCmpLtuImm (rCrI w)) else xneed (w.extractLsb' 0 13 == 0#13) (.xpCmpLtuReg (rCrR w))
  | 0x10 =>
      xneed (w.extractLsb' 16 10 == 0#10) (.xpBr (w.extractLsb' 0 16))
  | 0x11 =>
      xneed (w.extractLsb' 16 6 == 0#6) (.xpBz (w.extractLsb' 22 4) (w.extractLsb' 0 16))
  | 0x12 =>
      xneed (w.extractLsb' 16 6 == 0#6) (.xpBnz (w.extractLsb' 22 4) (w.extractLsb' 0 16))
  | 0x13 =>
      if w.getLsbD 21 then xneed (w.extractLsb' 0 10 != 0#10) (.xpLoopImm (w.extractLsb' 22 4) (w.extractLsb' 10 11) (w.extractLsb' 0 10))
      else xneed (w.extractLsb' 10 11 == 0#11 && w.extractLsb' 0 10 != 0#10) (.xpLoopReg (w.extractLsb' 22 4) (w.extractLsb' 0 10))
  | 0x14 =>
      xneed (w.extractLsb' 0 26 == 0#26) .xpEndl
  | 0x15 =>
      xneed (w.extractLsb' 0 17 == 0#17) (.xpCurSet (w.extractLsb' 24 2) (w.extractLsb' 17 7))
  | 0x16 =>
      if w.getLsbD 20 then xneed (w.extractLsb' 16 4 == 0#4 && dimOk (fDim w)) (.xpCurStepImm (w.extractLsb' 24 2) (fDim w) (w.extractLsb' 0 16))
      else xneed (w.extractLsb' 0 16 == 0#16 && dimOk (fDim w)) (.xpCurStepReg (w.extractLsb' 24 2) (fDim w) (w.extractLsb' 16 4))
  | 0x17 =>
      xneed (w.extractLsb' 0 16 == 0#16 && dimOk (fDim w)) (.xpCurAt (w.extractLsb' 24 2) (fDim w) (w.getLsbD 20) (w.extractLsb' 16 4))
  | 0x18 =>
      xneed (w.extractLsb' 0 12 == 0#12 && barOk (fNb w) (fBar w)) (.xpMove (w.extractLsb' 24 2) (w.extractLsb' 22 2) (fNb w) (w.getLsbD 20) (fBar w))
  | 0x19 =>
      xneed (w.extractLsb' 0 12 == 0#12 && w.extractLsb' 22 2 == 0#2 && barOk (fNb w) (fBar w)) (.xpMoveA (w.extractLsb' 24 2) (fNb w) (w.getLsbD 20) (fBar w))
  | 0x1A =>
      xneed (w.extractLsb' 0 12 == 0#12 && w.extractLsb' 22 2 == 0#2 && barOk (fNb w) (fBar w)) (.xpMovePk (w.extractLsb' 24 2) (fNb w) (w.getLsbD 20) (fBar w))
  | 0x1B =>
      xneed (w.extractLsb' 0 8 == 0#8 && barOk (fNb w) (fBar w)) (.xpVpub (w.extractLsb' 24 2) (w.extractLsb' 22 2) (fNb w) (w.getLsbD 20) (fBar w) (w.extractLsb' 8 4))
  | 0x1C =>
      xneed (w.extractLsb' 0 3 == 0#3) (.xpFollow (w.extractLsb' 19 7) (w.extractLsb' 12 7) (w.extractLsb' 4 8) (w.getLsbD 3))
  | 0x1D =>
      xneed (w.extractLsb' 0 1 == 0#1) (.xpPsel (w.extractLsb' 19 7) (w.extractLsb' 12 7) (w.extractLsb' 9 3) (w.extractLsb' 1 8))
  | 0x1E =>
      xneed (w.extractLsb' 8 18 == 0#18) (.xpArrive (w.extractLsb' 0 8))
  | 0x1F =>
      xneed (w.extractLsb' 8 14 == 0#14) (.xpWaitb (w.extractLsb' 22 4) (w.extractLsb' 0 8))
  | 0x20 =>
      xneed (w.extractLsb' 0 19 == 0#19) (.xpTlsig (w.extractLsb' 22 4) (w.extractLsb' 19 3))
  | _ => .error .copyIllegal

/-- The decoder of a copy processor (R251, R252): bits 31:30 = 0b11 is MOVE.G. -/
noncomputable def decodeXp (w : Word) : Except Reject Instr :=
  if w.extractLsb' 30 2 == 0x3#2 then
    .ok (.xpMoveG (w.extractLsb' 26 4) (w.extractLsb' 19 7) (w.extractLsb' 12 7) (w.extractLsb' 9 3)
      (w.getLsbD 8) (w.extractLsb' 0 8))
  else decodeXpOp w (w.extractLsb' 26 6).toNat

/-- P as bit 31. -/
def pipeBit (p : Pipe) : BitVec 1 := match p with | .lane => 0#1 | .gang => 1#1

/-- Format A (R57). -/
def encA (p : Pipe) (op : BitVec 8) (d a b : BitVec 6) (s : BitVec 2) (w : Bool) (h : BitVec 2) : Word :=
  pipeBit p ++ op ++ d ++ a ++ b ++ s ++ BitVec.ofBool w ++ h

/-- Format W (R58). -/
def encW (p : Pipe) (op : BitVec 8) (d : BitVec 6) (m : BitVec 16) (hs : Bool) : Word :=
  pipeBit p ++ op ++ d ++ m ++ BitVec.ofBool hs

/-- Format B (R59). -/
def encB (op : BitVec 8) (q : BitVec 3) (pol : Bool) (f : BitVec 19) : Word :=
  1#1 ++ op ++ q ++ BitVec.ofBool pol ++ f

/-- AUTO.ENTER (R60). -/
def encE (op : BitVec 8) (i : BitVec 6) (f : BitVec 17) : Word := 1#1 ++ op ++ i ++ f

/-- The CR layout (R253). -/
def encCrR (op : BitVec 6) (o : CrR) : Word := op ++ o.d ++ o.a ++ 0#1 ++ o.b ++ 0#13
def encCrI (op : BitVec 6) (o : CrI) : Word := op ++ o.d ++ o.a ++ 1#1 ++ o.i

/-- The layout of MOVE, MOVE.A, MOVE.PK and VPUB. -/
def encMv (op : BitVec 6) (d s : BitVec 2) (nb st : Bool) (b : BitVec 8) (v : BitVec 4) : Word :=
  op ++ d ++ s ++ BitVec.ofBool nb ++ BitVec.ofBool st ++ b ++ v ++ 0#8

/-- The word of an instruction that has one, from the layouts of R56–R60 and R251–R265 and the
opcode maps of R77–R79 and R252; the steps of the module that are no words have none. -/
def encode (i : Instr) : Option Word :=
  match i with
  | .iaddA p o => some (encA p 0x00#8 o.d o.a o.b o.s o.w o.h)
  | .iaddI p o => some (encA p 0x01#8 o.d o.a o.b o.s o.w o.h)
  | .isubA p o => some (encA p 0x02#8 o.d o.a o.b o.s o.w o.h)
  | .isubI p o => some (encA p 0x03#8 o.d o.a o.b o.s o.w o.h)
  | .imulA p o => some (encA p 0x04#8 o.d o.a o.b o.s o.w o.h)
  | .imulI p o => some (encA p 0x05#8 o.d o.a o.b o.s o.w o.h)
  | .imulhS32 p o => some (encA p 0x06#8 o.d o.a o.b o.s o.w o.h)
  | .imulhN32 p o => some (encA p 0x07#8 o.d o.a o.b o.s o.w o.h)
  | .imad p o => some (encA p 0x08#8 o.d o.a o.b o.s o.w o.h)
  | .iaddSatS32 p o => some (encA p 0x09#8 o.d o.a o.b o.s o.w o.h)
  | .iaddSatN32 p o => some (encA p 0x0A#8 o.d o.a o.b o.s o.w o.h)
  | .isubSatS32 p o => some (encA p 0x0B#8 o.d o.a o.b o.s o.w o.h)
  | .isubSatN32 p o => some (encA p 0x0C#8 o.d o.a o.b o.s o.w o.h)
  | .iminS32 p o => some (encA p 0x0D#8 o.d o.a o.b o.s o.w o.h)
  | .iminN32 p o => some (encA p 0x0E#8 o.d o.a o.b o.s o.w o.h)
  | .imaxS32 p o => some (encA p 0x0F#8 o.d o.a o.b o.s o.w o.h)
  | .imaxN32 p o => some (encA p 0x10#8 o.d o.a o.b o.s o.w o.h)
  | .iabs p o => some (encA p 0x11#8 o.d o.a 0#6 o.s o.w o.h)
  | .iabsSat p o => some (encA p 0x12#8 o.d o.a 0#6 o.s o.w o.h)
  | .andA p o => some (encA p 0x13#8 o.d o.a o.b o.s o.w o.h)
  | .orB p o => some (encA p 0x14#8 o.d o.a o.b o.s o.w o.h)
  | .xorB p o => some (encA p 0x15#8 o.d o.a o.b o.s o.w o.h)
  | .andn p o => some (encA p 0x16#8 o.d o.a o.b o.s o.w o.h)
  | .andI p o => some (encA p 0x17#8 o.d o.a o.b o.s o.w o.h)
  | .shlA p o => some (encA p 0x18#8 o.d o.a o.b o.s o.w o.h)
  | .shlI p o => some (encA p 0x19#8 o.d o.a o.b o.s o.w o.h)
  | .shrA p o => some (encA p 0x1A#8 o.d o.a o.b o.s o.w o.h)
  | .shrI p o => some (encA p 0x1B#8 o.d o.a o.b o.s o.w o.h)
  | .sarA p o => some (encA p 0x1C#8 o.d o.a o.b o.s o.w o.h)
  | .sarI p o => some (encA p 0x1D#8 o.d o.a o.b o.s o.w o.h)
  | .rotA p o => some (encA p 0x1E#8 o.d o.a o.b o.s o.w o.h)
  | .rotI p o => some (encA p 0x1F#8 o.d o.a o.b o.s o.w o.h)
  | .bfxN32 p o => some (encA p 0x20#8 o.d o.a o.b o.s o.w o.h)
  | .bfxS32 p o => some (encA p 0x21#8 o.d o.a o.b o.s o.w o.h)
  | .bfi p o => some (encA p 0x22#8 o.d o.a o.b o.s o.w o.h)
  | .popc p o => some (encA p 0x23#8 o.d o.a 0#6 o.s o.w o.h)
  | .clz p o => some (encA p 0x24#8 o.d o.a 0#6 o.s o.w o.h)
  | .brev p o => some (encA p 0x25#8 o.d o.a 0#6 o.s o.w o.h)
  | .mov p o => some (encA p 0x26#8 o.d o.a 0#6 o.s o.w o.h)
  | .lea p o => some (encA p 0x27#8 o.d o.a o.b o.s false o.h)
  | .icmpEq p o => some (encA p 0x28#8 o.d o.a o.b o.s o.w o.h)
  | .icmpNe p o => some (encA p 0x29#8 o.d o.a o.b o.s o.w o.h)
  | .icmpLtS32 p o => some (encA p 0x2A#8 o.d o.a o.b o.s o.w o.h)
  | .icmpLeS32 p o => some (encA p 0x2B#8 o.d o.a o.b o.s o.w o.h)
  | .icmpGtS32 p o => some (encA p 0x2C#8 o.d o.a o.b o.s o.w o.h)
  | .icmpGeS32 p o => some (encA p 0x2D#8 o.d o.a o.b o.s o.w o.h)
  | .icmpLtN32 p o => some (encA p 0x2E#8 o.d o.a o.b o.s o.w o.h)
  | .icmpLeN32 p o => some (encA p 0x2F#8 o.d o.a o.b o.s o.w o.h)
  | .sel p o => some (encA p 0x30#8 o.d o.a o.b o.s o.w o.h)
  | .icmpGtN32 p o => some (encA p 0x31#8 o.d o.a o.b o.s o.w o.h)
  | .icmpGeN32 p o => some (encA p 0x32#8 o.d o.a o.b o.s o.w o.h)
  | .iaddSatS16 p o => some (encA p 0x33#8 o.d o.a o.b o.s o.w o.h)
  | .iaddSatN16 p o => some (encA p 0x34#8 o.d o.a o.b o.s o.w o.h)
  | .isubSatS16 p o => some (encA p 0x35#8 o.d o.a o.b o.s o.w o.h)
  | .isubSatN16 p o => some (encA p 0x36#8 o.d o.a o.b o.s o.w o.h)
  | .iaddS16 p o => some (encA p 0x37#8 o.d o.a o.b o.s o.w o.h)
  | .iaddN16 p o => some (encA p 0x38#8 o.d o.a o.b o.s o.w o.h)
  | .isubS16 p o => some (encA p 0x39#8 o.d o.a o.b o.s o.w o.h)
  | .isubN16 p o => some (encA p 0x3A#8 o.d o.a o.b o.s o.w o.h)
  | .imulS16 p o => some (encA p 0x3B#8 o.d o.a o.b o.s o.w o.h)
  | .imulN16 p o => some (encA p 0x3C#8 o.d o.a o.b o.s o.w o.h)
  | .imulSat p o => some (encA p 0x3D#8 o.d o.a o.b o.s o.w o.h)
  | .movl p d m => some (encW p 0x3E#8 d m false)
  | .movh p d m => some (encW p 0x3E#8 d m true)
  | .faddF32 o => some (encA .lane 0x40#8 o.d o.a o.b o.s o.w o.h)
  | .fsubF32 o => some (encA .lane 0x41#8 o.d o.a o.b o.s o.w o.h)
  | .fmulF32 o => some (encA .lane 0x42#8 o.d o.a o.b o.s o.w o.h)
  | .ffmaF32 o => some (encA .lane 0x43#8 o.d o.a o.b o.s o.w o.h)
  | .fminF32 o => some (encA .lane 0x44#8 o.d o.a o.b o.s o.w o.h)
  | .fmaxF32 o => some (encA .lane 0x45#8 o.d o.a o.b o.s o.w o.h)
  | .faddF16 o => some (encA .lane 0x46#8 o.d o.a o.b o.s o.w o.h)
  | .fsubF16 o => some (encA .lane 0x47#8 o.d o.a o.b o.s o.w o.h)
  | .fmulF16 o => some (encA .lane 0x48#8 o.d o.a o.b o.s o.w o.h)
  | .ffmaF16 o => some (encA .lane 0x49#8 o.d o.a o.b o.s o.w o.h)
  | .fminF16 o => some (encA .lane 0x4A#8 o.d o.a o.b o.s o.w o.h)
  | .fmaxF16 o => some (encA .lane 0x4B#8 o.d o.a o.b o.s o.w o.h)
  | .faddBf16 o => some (encA .lane 0x4C#8 o.d o.a o.b o.s o.w o.h)
  | .fsubBf16 o => some (encA .lane 0x4D#8 o.d o.a o.b o.s o.w o.h)
  | .fmulBf16 o => some (encA .lane 0x4E#8 o.d o.a o.b o.s o.w o.h)
  | .ffmaBf16 o => some (encA .lane 0x4F#8 o.d o.a o.b o.s o.w o.h)
  | .fminBf16 o => some (encA .lane 0x50#8 o.d o.a o.b o.s o.w o.h)
  | .fmaxBf16 o => some (encA .lane 0x51#8 o.d o.a o.b o.s o.w o.h)
  | .fcmpEq o => some (encA .lane 0x52#8 o.d o.a o.b o.s o.w o.h)
  | .fcmpLt o => some (encA .lane 0x53#8 o.d o.a o.b o.s o.w o.h)
  | .fcmpLe o => some (encA .lane 0x54#8 o.d o.a o.b o.s o.w o.h)
  | .fcmpUn o => some (encA .lane 0x55#8 o.d o.a o.b o.s o.w o.h)
  | .fscale o => some (encA .lane 0x56#8 o.d o.a o.b o.s o.w o.h)
  | .fabs o => some (encA .lane 0x57#8 o.d o.a o.b o.s o.w o.h)
  | .fneg o => some (encA .lane 0x58#8 o.d o.a o.b o.s o.w o.h)
  | .frcp o => some (encA .lane 0x59#8 o.d o.a o.b o.s o.w o.h)
  | .frsq o => some (encA .lane 0x5A#8 o.d o.a o.b o.s o.w o.h)
  | .fsqrt o => some (encA .lane 0x5B#8 o.d o.a o.b o.s o.w o.h)
  | .fexp2 o => some (encA .lane 0x5C#8 o.d o.a o.b o.s o.w o.h)
  | .flog2 o => some (encA .lane 0x5D#8 o.d o.a o.b o.s o.w o.h)
  | .fcvt o => some (encA .lane 0x5E#8 o.d o.a o.b o.s o.w o.h)
  | .fclass o => some (encA .lane 0x5F#8 o.d o.a o.b o.s o.w o.h)
  | .byteq o => some (encA .lane 0x60#8 o.d o.a o.b o.s o.w o.h)
  | .bfind o => some (encA .lane 0x61#8 o.d o.a o.b o.s o.w o.h)
  | .bperm o => some (encA .lane 0x62#8 o.d o.a o.b o.s o.w o.h)
  | .crcC o => some (encA .lane 0x63#8 o.d o.a o.b o.s o.w o.h)
  | .hmix o => some (encA .lane 0x64#8 o.d o.a o.b o.s o.w o.h)
  | .dfaStep4 o => some (encA .lane 0x65#8 o.d o.a o.b o.s o.w o.h)
  | .rngSeed o => some (encA .lane 0x66#8 0#6 o.a o.b o.s false o.h)
  | .rngNext o => some (encA .lane 0x67#8 o.d 0#6 0#6 o.s o.w o.h)
  | .prune o => some (encA .lane 0x68#8 o.d o.a o.b o.s o.w o.h)
  | .ballot o => some (encA .lane 0x70#8 o.d o.a o.b o.s o.w o.h)
  | .shflIdx o => some (encA .lane 0x71#8 o.d o.a o.b o.s o.w o.h)
  | .shflXor o => some (encA .lane 0x72#8 o.d o.a o.b o.s o.w o.h)
  | .shflUp o => some (encA .lane 0x73#8 o.d o.a o.b o.s o.w o.h)
  | .shflDown o => some (encA .lane 0x74#8 o.d o.a o.b o.s o.w o.h)
  | .xred o e => some (encA .lane 0x75#8 o.d o.a (0#1 ++ e) o.s o.w o.h)
  | .xscan o x e => some (encA .lane 0x76#8 o.d o.a (BitVec.ofBool x ++ e) o.s o.w o.h)
  | .isect o => some (encA .lane 0x77#8 o.d o.a o.b o.s false o.h)
  | .matchL o => some (encA .lane 0x78#8 o.d o.a 0#6 o.s o.w o.h)
  | .bcast o => some (encA .lane 0x79#8 o.d o.a o.b o.s o.w o.h)
  | .bnext o => some (encA .lane 0xC0#8 0#6 o.a 0#6 o.s false o.h)
  | .setblk o => some (encA .lane 0xC1#8 0#6 o.a 0#6 o.s false o.h)
  | .ldS16A o => some (encA .lane 0x80#8 o.d o.a o.b o.s o.w o.h)
  | .ldS16I o => some (encA .lane 0x81#8 o.d o.a o.b o.s o.w o.h)
  | .ldN16A o => some (encA .lane 0x82#8 o.d o.a o.b o.s o.w o.h)
  | .ldN16I o => some (encA .lane 0x83#8 o.d o.a o.b o.s o.w o.h)
  | .ldB32A o => some (encA .lane 0x84#8 o.d o.a o.b o.s o.w o.h)
  | .ldB32I o => some (encA .lane 0x85#8 o.d o.a o.b o.s o.w o.h)
  | .stB32A o => some (encA .lane 0x88#8 o.d o.a o.b o.s false o.h)
  | .stB32I o => some (encA .lane 0x89#8 o.d o.a o.b o.s false o.h)
  | .stN16A o => some (encA .lane 0x8A#8 o.d o.a o.b o.s false o.h)
  | .stN16I o => some (encA .lane 0x8B#8 o.d o.a o.b o.s false o.h)
  | .ldc o => some (encA .lane 0x8C#8 o.d o.a o.b o.s o.w o.h)
  | .stc o => some (encA .lane 0x8D#8 o.d o.a o.b o.s false o.h)
  | .atomAdd o => some (encA .lane 0x90#8 o.d o.a o.b o.s false o.h)
  | .atomAnd o => some (encA .lane 0x91#8 o.d o.a o.b o.s false o.h)
  | .atomOr o => some (encA .lane 0x92#8 o.d o.a o.b o.s false o.h)
  | .atomXor o => some (encA .lane 0x93#8 o.d o.a o.b o.s false o.h)
  | .atomMinS32 o => some (encA .lane 0x94#8 o.d o.a o.b o.s false o.h)
  | .atomMaxS32 o => some (encA .lane 0x95#8 o.d o.a o.b o.s false o.h)
  | .atomMinN32 o => some (encA .lane 0x96#8 o.d o.a o.b o.s false o.h)
  | .atomMaxN32 o => some (encA .lane 0x97#8 o.d o.a o.b o.s false o.h)
  | .atomXchg o => some (encA .lane 0x98#8 o.d o.a o.b o.s false o.h)
  | .atomCas o => some (encA .lane 0x99#8 o.d o.a o.b o.s false o.h)
  | .redMAdd o => some (encA .lane 0x9A#8 o.d o.a o.b o.s false o.h)
  | .redMAddF32 o => some (encA .lane 0x9B#8 o.d o.a o.b o.s false o.h)
  | .redMMinS32 o => some (encA .lane 0x9C#8 o.d o.a o.b o.s false o.h)
  | .redMMaxS32 o => some (encA .lane 0x9D#8 o.d o.a o.b o.s false o.h)
  | .redMMinN32 o => some (encA .lane 0x9E#8 o.d o.a o.b o.s false o.h)
  | .redMMaxN32 o => some (encA .lane 0x9F#8 o.d o.a o.b o.s false o.h)
  | .ldv o => some (encA .lane 0xA0#8 o.d o.a o.b o.s o.w o.h)
  | .stv o => some (encA .lane 0xA1#8 o.d o.a o.b o.s false o.h)
  | .vlatest o => some (encA .lane 0xA2#8 o.d o.a o.b o.s o.w o.h)
  | .ldgA o => some (encA .gang 0x80#8 o.d o.a o.b o.s o.w o.h)
  | .ldgI o => some (encA .gang 0x81#8 o.d o.a o.b o.s o.w o.h)
  | .stgA o => some (encA .gang 0x82#8 o.d o.a o.b o.s false o.h)
  | .stgI o => some (encA .gang 0x83#8 o.d o.a o.b o.s false o.h)
  | .vpin o => some (encA .gang 0x84#8 0#6 o.a o.b o.s false o.h)
  | .vunpin o => some (encA .gang 0x85#8 0#6 o.a o.b o.s false o.h)
  | .vfloor o => some (encA .gang 0x86#8 0#6 o.a o.b o.s false o.h)
  | .spalloc o => some (encA .gang 0x87#8 o.d o.a o.b o.s o.w o.h)
  | .sprenew o => some (encA .gang 0x88#8 0#6 o.a o.b o.s false o.h)
  | .sprenewZ o => some (encA .gang 0x89#8 0#6 o.a o.b o.s false o.h)
  | .spfree o => some (encA .gang 0x8A#8 0#6 o.a 0#6 o.s false o.h)
  | .spinfo o => some (encA .gang 0x8B#8 o.d o.a 0#6 o.s o.w o.h)
  | .pkst o => some (encA .gang 0x8C#8 o.d o.a o.b o.s o.w o.h)
  | .pkld o => some (encA .gang 0x8D#8 o.d o.a o.b o.s o.w o.h)
  | .fence o => some (encA .gang 0x8E#8 o.d o.a o.b o.s false o.h)
  | .flush o => some (encA .gang 0x8F#8 0#6 o.a o.b o.s false o.h)
  | .tdLoad o => some (encA .gang 0x90#8 0#6 o.a o.b o.s false o.h)
  | .tdSet o => some (encA .gang 0x91#8 0#6 o.a o.b o.s false o.h)
  | .mload o => some (encA .gang 0xA0#8 0#6 o.a o.b o.s false o.h)
  | .mswap s h => some (encA .gang 0xA1#8 0#6 0#6 0#6 s false h)
  | .mstream o => some (encA .gang 0xA2#8 0#6 o.a o.b o.s false o.h)
  | .mzero o => some (encA .gang 0xA3#8 0#6 o.a 0#6 o.s false o.h)
  | .mdrain o e => some (encA .gang 0xA4#8 o.d o.a (0#3 ++ e) o.s o.w o.h)
  | .mdrainXp o => some (encA .gang 0xA4#8 0#6 o.a o.b o.s false o.h)
  | .mtile o => some (encA .gang 0xA5#8 o.d o.a o.b o.s false o.h)
  | .mstat o => some (encA .gang 0xA6#8 o.d o.a 0#6 o.s o.w o.h)
  | .bra f => some (encB 0xC0#8 0#3 false f)
  | .brcAny q pol f => some (encB 0xC1#8 q pol f)
  | .brcAll q pol f => some (encB 0xC2#8 q pol f)
  | .call f => some (encB 0xC3#8 0#3 false f)
  | .ret o => some (encA .gang 0xC4#8 0#6 o.a 0#6 o.s false o.h)
  | .regang s => some (encA .gang 0xC5#8 0#6 0#6 0#6 s false 0#2)
  | .exitG s => some (encA .gang 0xC6#8 0#6 0#6 0#6 s false 0#2)
  | .nop s => some (encA .gang 0xC7#8 0#6 0#6 0#6 s false 0#2)
  | .yield s => some (encA .gang 0xC8#8 0#6 0#6 0#6 s false 0#2)
  | .autoEnter i f => some (encE 0xD0#8 i f)
  | .autoStep => some (encA .gang 0xD2#8 0#6 0#6 0#6 0#2 false 0#2)
  | .autoExit => some (encA .gang 0xD3#8 0#6 0#6 0#6 0#2 false 0#2)
  | .barInit o => some (encA .gang 0xE0#8 0#6 o.a o.b o.s false o.h)
  | .barArrive o => some (encA .gang 0xE1#8 o.d o.a 0#6 o.s o.w o.h)
  | .barWait o => some (encA .gang 0xE2#8 0#6 o.a o.b o.s false o.h)
  | .barArm o => some (encA .gang 0xE3#8 0#6 o.a o.b o.s false o.h)
  | .barTest o => some (encA .gang 0xE4#8 o.d o.a o.b o.s o.w o.h)
  | .cohJoin o => some (encA .gang 0xE5#8 o.d o.a o.b o.s o.w o.h)
  | .cohLeave o => some (encA .gang 0xE6#8 0#6 o.a 0#6 o.s false o.h)
  | .cohInfo o => some (encA .gang 0xE7#8 o.d o.a 0#6 o.s o.w o.h)
  | .nodePost o => some (encA .gang 0xE8#8 o.d o.a 0#6 o.s o.w o.h)
  | .tlWait o => some (encA .gang 0xE9#8 0#6 o.a o.b o.s false o.h)
  | .tlRead o => some (encA .gang 0xEA#8 o.d o.a 0#6 o.s o.w o.h)
  | .xpStart o => some (encA .gang 0xEB#8 0#6 o.a o.b o.s false o.h)
  | .xpStatus o => some (encA .gang 0xEC#8 o.d o.a 0#6 o.s o.w o.h)
  | .idem s => some (encA .gang 0xF0#8 0#6 0#6 0#6 s false 0#2)
  | .contOpen a s => some (encA .gang 0xF1#8 0#6 a 0#6 s false 0#2)
  | .contClose s => some (encA .gang 0xF2#8 0#6 0#6 0#6 s false 0#2)
  | .trap n s => some (encA .gang 0xF3#8 0#6 0#6 n s false 0#2)
  | .rett => some (encA .gang 0xF4#8 0#6 0#6 0#6 0#2 false 0#2)
  | .sysrd d n s w h => some (encA .gang 0xF5#8 d (n.extractLsb' 6 6) (n.extractLsb' 0 6) s w h)
  | .syswr d n s h => some (encA .gang 0xF6#8 d (n.extractLsb' 6 6) (n.extractLsb' 0 6) s false h)
  | .stepMark s => some (encA .gang 0xF7#8 0#6 0#6 0#6 s false 0#2)
  | .movsGet d i w h => some (encA .gang 0xF8#8 d i 0#6 0#2 w h)
  | .movsPut i a h => some (encA .gang 0xF8#8 i a 1#6 0#2 false h)
  | .xpNop => some (0x00#6 ++ 0#26)
  | .xpHalt => some (0x01#6 ++ 0#26)
  | .xpMovi d hs m => some (0x02#6 ++ d ++ BitVec.ofBool hs ++ 0#5 ++ m)
  | .xpLdx d l o => some (0x03#6 ++ d ++ l ++ 0#3 ++ o)
  | .xpAddReg o => some (encCrR 0x04#6 o)
  | .xpAddImm o => some (encCrI 0x04#6 o)
  | .xpSubReg o => some (encCrR 0x05#6 o)
  | .xpSubImm o => some (encCrI 0x05#6 o)
  | .xpMulReg o => some (encCrR 0x06#6 o)
  | .xpMulImm o => some (encCrI 0x06#6 o)
  | .xpShlReg o => some (encCrR 0x07#6 o)
  | .xpShlImm o => some (encCrI 0x07#6 o)
  | .xpShrReg o => some (encCrR 0x08#6 o)
  | .xpShrImm o => some (encCrI 0x08#6 o)
  | .xpAndReg o => some (encCrR 0x09#6 o)
  | .xpAndImm o => some (encCrI 0x09#6 o)
  | .xpOrReg o => some (encCrR 0x0A#6 o)
  | .xpOrImm o => some (encCrI 0x0A#6 o)
  | .xpCmpEqReg o => some (encCrR 0x0C#6 o)
  | .xpCmpEqImm o => some (encCrI 0x0C#6 o)
  | .xpCmpNeReg o => some (encCrR 0x0D#6 o)
  | .xpCmpNeImm o => some (encCrI 0x0D#6 o)
  | .xpCmpLtReg o => some (encCrR 0x0E#6 o)
  | .xpCmpLtImm o => some (encCrI 0x0E#6 o)
  | .xpCmpLtuReg o => some (encCrR 0x0F#6 o)
  | .xpCmpLtuImm o => some (encCrI 0x0F#6 o)
  | .xpBr f => some (0x10#6 ++ 0#10 ++ f)
  | .xpBz a f => some (0x11#6 ++ a ++ 0#6 ++ f)
  | .xpBnz a f => some (0x12#6 ++ a ++ 0#6 ++ f)
  | .xpLoopReg a f => some (0x13#6 ++ a ++ 0#12 ++ f)
  | .xpLoopImm a m f => some (0x13#6 ++ a ++ 1#1 ++ m ++ f)
  | .xpEndl => some (0x14#6 ++ 0#26)
  | .xpCurSet k n => some (0x15#6 ++ k ++ n ++ 0#17)
  | .xpCurStepReg k d a => some (0x16#6 ++ k ++ d ++ 0#1 ++ a ++ 0#16)
  | .xpCurStepImm k d m => some (0x16#6 ++ k ++ d ++ 1#1 ++ 0#4 ++ m)
  | .xpCurAt k d wb a => some (0x17#6 ++ k ++ d ++ BitVec.ofBool wb ++ a ++ 0#16)
  | .xpMove d s nb st b => some (encMv 0x18#6 d s nb st b 0#4)
  | .xpMoveA d nb st b => some (encMv 0x19#6 d 0#2 nb st b 0#4)
  | .xpMovePk d nb st b => some (encMv 0x1A#6 d 0#2 nb st b 0#4)
  | .xpVpub d s nb st b v => some (encMv 0x1B#6 d s nb st b v)
  | .xpFollow s a r z => some (0x1C#6 ++ s ++ a ++ r ++ BitVec.ofBool z ++ 0#3)
  | .xpPsel s q l k => some (0x1D#6 ++ s ++ q ++ l ++ k ++ 0#1)
  | .xpArrive n => some (0x1E#6 ++ 0#18 ++ n)
  | .xpWaitb a n => some (0x1F#6 ++ a ++ 0#14 ++ n)
  | .xpTlsig k l => some (0x20#6 ++ k ++ l ++ 0#19)
  | .xpMoveG k d s l st b => some (0x3#2 ++ k ++ d ++ s ++ l ++ BitVec.ofBool st ++ b)
  | .autoSeal _ _ _ => none
  | .autoUnseal _ _ => none
  | .vregDesignate _ _ _ => none
  | .vregRelease _ _ _ => none
  | .secUnlock _ => none
  | .secAttest _ => none
  | .secIdentity _ => none
  | .secCommandDone => none
  | .tlbInvPage _ _ => none
  | .tlbInvAll _ _ => none
  | .tlbInvComplete _ => none
  | .ptRootWrite _ _ _ => none
  | .quiesceRequest _ => none
  | .quiesceRelease _ => none
  | .waitBoundWrite _ _ => none
  | .runBoundWrite _ _ => none
  | .vdirDataRead _ => none
  | .submit _ _ => none
  | .memwr _ _ _ => none
  | .memrd _ _ _ => none
  | .hostFlush _ _ _ => none
  | .hostQuiesceRequest _ => none
  | .hostQuiesceRelease _ => none
  | .coll _ _ => none
  | .collComplete _ _ => none
  | .collMemberFail _ _ _ => none
  | .loadObj _ _ _ => none
  | .loadp _ _ _ => none
  | .unload _ _ => none
  | .handlerName _ _ => none
  | .cacheinv _ _ => none
  | .fwload _ _ _ => none
  | .openCtx _ _ _ => none
  | .endCtx _ => none
  | .healthQ _ => none
  | .pageServiceAnswer _ _ => none
  | .unreliablePacketDrop => none
  | .issueQueuePerform _ _ => none
  | .storeBufferApply _ => none
  | .applyQueueTake _ _ => none
  | .homeUpdateArrival _ => none
  | .gutterReplay _ => none
  | .translationWalkComplete _ _ _ => none
  | .barArrivalCounted _ => none
  | .cohJoinTimeout _ => none
  | .barWaitBoundExpire _ => none
  | .tlWaitBoundExpire _ => none
  | .versionWaitBoundExpire _ => none
  | .vpubPublish _ _ _ => none
  | .copyProgramBegin _ _ => none
  | .copyWriteComplete _ _ _ _ => none
  | .copyCommandComplete _ _ _ => none
  | .copyWaitBoundExpire _ _ => none
  | .followMtileIssue _ _ _ => none
  | .matrixCommandExecute _ => none
  | .drainPortBoundExpire _ => none
  | .matrixStateSave _ => none
  | .matrixStateRestore _ => none
  | .purlinRefreshStart _ => none
  | .purlinRefreshEnd _ => none
  | .holdLapse _ _ => none
  | .yieldExpire _ => none
  | .ageLimitReached _ => none
  | .deferredCauseDelivery _ => none
  | .handlerInstanceStart _ => none
  | .runBoundWatchdog _ => none
  | .admitUnit _ _ => none
  | .admissionSkipTimeout _ => none
  | .gangSaveComplete _ => none
  | .gangReadmit _ => none
  | .readmitBoundSwap _ _ => none
  | .sweeperRenew _ _ _ => none
  | .bufferRestoreStart _ _ _ => none
  | .bufferRestoreComplete _ _ _ => none
  | .quiesceCutComplete _ => none
  | .quiesceBoundExpire _ => none
  | .nodeComplete _ => none
  | .scrubVisit _ _ _ => none
  | .controlParityError _ => none
  | .errorRateThreshold _ => none
  | .predictiveFailureTimeout _ => none
  | .oppLower => none
  | .oppRaise => none
  | .oppChangeComplete => none
  | .overLimitShutdown _ _ => none
  | .powerUp => none
  | .lifecycleAdvance _ => none
  | .bufferExpiry _ _ _ => none
  | .renewalComplete _ _ _ => none
  | .ridgeLinkError _ _ _ _ => none
  | .powerLoss => none
  | .debugPortRequest _ _ _ => none
  | .malformedMessage _ _ => none
  | .railUndervolt _ => none
  | .errorRateBelowThreshold _ => none

/-- Little-endian bytes of a word, the first at the lowest address (R56). -/
def wordBytes (w : Word) : List Byte :=
  [w.extractLsb' 0 8, w.extractLsb' 8 8, w.extractLsb' 16 8, w.extractLsb' 24 8]

/-- The word that four bytes hold, little-endian (R56). -/
def bytesWord (b0 b1 b2 b3 : Byte) : Word := b3 ++ b2 ++ b1 ++ b0

/-- The instruction that a word, laid out in memory as R56 stores it, is read as: by the decoder of
the compute pipes, or, where that one rejects the word, by the decoder of a copy processor. -/
noncomputable def decodeAny (w : Word) : Option Instr :=
  match decodeCompute w with
  | .ok i => some i
  | .error _ =>
    match decodeXp w with
    | .ok i => some i
    | .error _ => none

/-- The host's question: the instruction read from bits numbered as the opcode table numbers them,
laid out as four little-endian bytes and given to the decoders. A row of the table has 32 bits. -/
noncomputable def decodeTableWord (nbits w : Nat) : Option Instr :=
  if nbits ≤ 32 then
    match wordBytes (w32 w) with
    | [b0, b1, b2, b3] => decodeAny (bytesWord b0 b1 b2 b3)
    | _ => none
  else none

end Sys2Proof
end

