-- ==== Sys2Proof/Machine/Sparse.lean ====
section
/-!
DEFINITION. Operations on sparse maps and lists of plain data.
-/
namespace Sys2Proof.Machine

/-- The value at a key; the default where the key is not listed. -/
def sget {α : Type} (d : α) : Sparse α → Nat → α
  | [], _ => d
  | (k, v) :: m, i => if k = i then v else sget d m i

/-- The value at a key, if the key is listed. -/
def slook {α : Type} : Sparse α → Nat → Option α
  | [], _ => none
  | (k, v) :: m, i => if k = i then some v else slook m i

/-- The map without a key. -/
def sdel {α : Type} : Sparse α → Nat → Sparse α
  | [], _ => []
  | (k, v) :: m, i => if k = i then sdel m i else (k, v) :: sdel m i

/-- Insertion before the first larger key. -/
def sins {α : Type} : Sparse α → Nat → α → Sparse α
  | [], k, v => [(k, v)]
  | (i, x) :: m, k, v => if k < i then (k, v) :: (i, x) :: m else (i, x) :: sins m k v

/-- The map with a new value at a key; writing the default removes the key. -/
def sset {α : Type} [DecidableEq α] (d : α) (m : Sparse α) (k : Nat) (v : α) : Sparse α :=
  if v = d then sdel m k else sins (sdel m k) k v

/-- The canonical form: keys strictly rising, no value equal to the default. -/
def swf {α : Type} [DecidableEq α] (d : α) : Sparse α → Bool
  | [] => true
  | [(_, v)] => decide (v ≠ d)
  | (k, v) :: (i, x) :: m => decide (v ≠ d) && decide (k < i) && swf d ((i, x) :: m)

/-- Several keys set in turn. -/
def ssets {α : Type} [DecidableEq α] (d : α) (m : Sparse α) (kvs : List (Nat × α)) : Sparse α :=
  kvs.foldl (fun a e => sset d a e.1 e.2) m

/-- The keys that hold a value other than `none`. -/
def skeys {α : Type} (m : Sparse (Option α)) : List Nat :=
  m.filterMap fun e => e.2.map fun _ => e.1

/-- The listed (key, value) pairs of a map of optional values. -/
def sentries {α : Type} (m : Sparse (Option α)) : List (Nat × α) :=
  m.filterMap fun e => e.2.map fun x => (e.1, x)

/-- Position `i` of a list replaced. -/
def lset {α : Type} : List α → Nat → α → List α
  | [], _, _ => []
  | _ :: l, 0, y => y :: l
  | x :: l, n + 1, y => x :: lset l n y

/-- Ascending insertion without repeats. -/
def linsert (x : Nat) : List Nat → List Nat
  | [] => [x]
  | y :: l => if x < y then x :: y :: l else if x = y then y :: l else y :: linsert x l

/-- A list of numbers sorted ascending, each once. -/
def lsort (l : List Nat) : List Nat := l.foldl (fun a x => linsert x a) []

/-- The least element, if there is one. -/
def lmin : List Nat → Option Nat
  | [] => none
  | x :: l => match lmin l with
    | none => some x
    | some y => some (min x y)

/-- The greatest element, 0 for an empty list. -/
def lmax (l : List Nat) : Nat := l.foldl max 0

end Sys2Proof.Machine
end

