-- ==== Sys2Proof/Machine/Mem.lean ====
section
/-!
DEFINITION. The module's memory: where each part lies in `State.mem`, reads and writes of bytes and
little-endian words, and the poison of uncorrectable words (R164, R218, R319).
-/
namespace Sys2Proof.Machine

/-- The key of physical byte `pa` in the view of die `d` (R218). -/
def viewLoc (d pa : Nat) : Nat := d * 0x10000000000000 + pa % 0x10000000000000

/-- The key of byte `off` of the scratchpad of a core. -/
def spLoc (core off : Nat) : Nat := 8 * 0x10000000000000 + core * 0x200000 + off

/-- The key of byte `off` of the Eaves window of a die. -/
def eavesLoc (die off : Nat) : Nat := 9 * 0x10000000000000 + die * 0x10000 + off

/-- The key of byte `off` of the Purlin store of a die. -/
def purlinLoc (die off : Nat) : Nat := 10 * 0x10000000000000 + die * 0x80000000 + off

/-- What a byte that nothing has written reads as (log entry 3). -/
def unwritten : Byte := 0#8

/-- One byte of memory. -/
def readByte (s : State) (loc : Nat) : Byte := sget unwritten s.mem loc

/-- One byte of memory replaced. -/
def writeByte (s : State) (loc : Nat) (b : Byte) : State :=
  { s with mem := sset unwritten s.mem loc b }

/-- Bytes written at listed keys, in order. -/
def writeBytes (s : State) (kvs : List (Nat × Byte)) : State :=
  { s with mem := ssets unwritten s.mem kvs }

/-- The canonical form of memory. -/
def memWf (m : List Host.Cell) : Bool := swf unwritten m

/-- The number that little-endian bytes hold. -/
def leNat : List Byte → Nat
  | [] => 0
  | b :: l => b.toNat + 256 * leNat l

/-- The `n` little-endian bytes of a number. -/
def natLe : Nat → Nat → List Byte
  | 0, _ => []
  | n + 1, v => BitVec.ofNat 8 v :: natLe n (v / 256)

/-- `n` bytes from a key upward. -/
def readBytes (s : State) (loc n : Nat) : List Byte := (List.range n).map fun i => readByte s (loc + i)

/-- A 32-bit word at a key. -/
def readWord (s : State) (loc : Nat) : Word := w32 (leNat (readBytes s loc 4))

/-- The bytes of a value at a key, as pairs for `writeBytes`. -/
def placed (loc : Nat) (bs : List Byte) : List (Nat × Byte) :=
  (List.range bs.length).zip bs |>.map fun e => (loc + e.1, e.2)

/-- The word that holds a key is marked uncorrectable (R319). -/
def isBad (s : State) (loc n : Nat) : Bool :=
  (List.range ((loc + n - 1) / 4 - loc / 4 + 1)).any fun i => sget 0 s.bad (loc / 4 + i) = 2

/-- A write that covers a whole ECC word clears its mark (R319). -/
def clearBad (s : State) (loc n : Nat) : State :=
  if s.bad = [] then s
  else { s with bad := s.bad.filter fun e => !(decide (loc ≤ e.1 * 4) && decide (e.1 * 4 + 4 ≤ loc + n)) }

/-- As `clearBad`, for a write of listed bytes: a word is covered when all four of its bytes are. -/
def clearBadKeys (s : State) (ks : List Nat) : State :=
  if s.bad = [] then s
  else { s with bad := s.bad.filter fun e => !([0, 1, 2, 3].all fun i => ks.contains (e.1 * 4 + i)) }

/-- The words that hold some keys are marked uncorrectable. -/
def markBad (s : State) (ks : List Nat) : State := { s with bad := ssets 0 s.bad (ks.map fun k => (k / 4, 2)) }

/-- The key of the write that set a byte of a die view (R226). -/
def keyAt (s : State) (loc : Nat) : Nat := sget 0 s.keys loc

end Sys2Proof.Machine
end

