-- ==== Sys2Proof/Machine/Ops.lean ====
section
/-!
DEFINITION. The shared operations: access to gangs, groups, instances and registers; program
counters; latches; idempotent regions; taking an exception (`raise`) and returning from one
(`rett`); and the checks of R71 that open every instruction.
-/
namespace Sys2Proof.Machine

/-- What a meaning answers. -/
abbrev Out := Host.Outcome State Fault Refusal

/-! ## Access to the records -/

def gang? (s : State) (gk : Nat) : Option Gang := sget none s.gangs gk
def setGang (s : State) (gk : Nat) (g : Option Gang) : State := { s with gangs := sset none s.gangs gk g }
def updGang (s : State) (gk : Nat) (f : Gang → Gang) : State :=
  match gang? s gk with
  | some g => setGang s gk (some (f g))
  | none => s

def group? (g : Gang) (gid : Nat) : Option Group := sget none g.groups gid
def setGroup (g : Gang) (gid : Nat) (r : Option Group) : Gang := { g with groups := sset none g.groups gid r }
def updGroup (s : State) (gk gid : Nat) (f : Group → Group) : State :=
  updGang s gk fun g => match group? g gid with
    | some r => setGroup g gid (some (f r))
    | none => g

def inst? (s : State) (id : Nat) : Option Inst := sget none s.insts id
def setInst (s : State) (id : Nat) (i : Option Inst) : State := { s with insts := sset none s.insts id i }
def updInst (s : State) (id : Nat) (f : Inst → Inst) : State :=
  match inst? s id with
  | some i => setInst s id (some (f i))
  | none => s

def ctx? (s : State) (c : Nat) : Option Context := sget none s.ctxs c
def ctxD (s : State) (c : Nat) : Context := (ctx? s c).getD {}
def updCtx (s : State) (c : Nat) (f : Context → Context) : State :=
  match ctx? s c with
  | some x => { s with ctxs := sset none s.ctxs c (some (f x)) }
  | none => s

/-- The key of the records that a core holds for a context. -/
def ccKey (ctx core : Nat) : Nat := ctx * 1024 + core % 1024
def ccOf (s : State) (ctx core : Nat) : CtxCore := sget {} s.cc (ccKey ctx core)
def updCc (s : State) (ctx core : Nat) (f : CtxCore → CtxCore) : State :=
  { s with cc := sset {} s.cc (ccKey ctx core) (f (ccOf s ctx core)) }

def coreOf (s : State) (core : Nat) : CoreSt := sget {} s.cores core
def updCore (s : State) (core : Nat) (f : CoreSt → CoreSt) : State :=
  { s with cores := sset {} s.cores core (f (coreOf s core)) }
def dieOf (s : State) (d : Nat) : DieSt := sget {} s.dies d
def updDie (s : State) (d : Nat) (f : DieSt → DieSt) : State :=
  { s with dies := sset {} s.dies d (f (dieOf s d)) }

/-- The die and the hardware cluster of a core (R134). -/
def dieNo (core : Nat) : Nat := core / 128
def clusterNo (core : Nat) : Nat := core / 8

/-- SYS.FADE_TICK: microseconds since the cores left reset, wrapping (R171, R173). -/
def fadeTick (s : State) : Nat := (s.usec - s.ctl.resetAt) % 0x100000000

/-! ## Time (R24, R171, R327) -/

/-- Clocks in a microsecond at the operating point (R369). -/
def clocksPerUs (s : State) : Nat :=
  match s.ctl.opp with
  | 0 => 600
  | 1 => 450
  | _ => 300

/-- What a kept buffer has left when the sweeper renews it: BUDGET; half of a LIFE that does not exceed it (R327,
log entry 77). -/
def sweepMark (budget : Nat) (t : Tag) : Nat := if budget < t.life then budget else max 1 (t.life / 2)

/-- A tag after `d` µs from a tick, in which the sweeper has renewed it whenever its mark came up (R327). -/
def keptFor (budget tick d : Nat) (t : Tag) : Tag :=
  let b := sweepMark budget t
  let rem := (t.expiry + 0x100000000 - tick) % 0x100000000
  let step := max 1 (t.life - b)
  if !t.kept || t.saved || rem ≥ d + b then t
  else { t with expiry := (t.expiry + (d + b - rem + step - 1) / step * step) % 0x100000000 }

/-- Microseconds pass: buffers that the sweeper keeps are renewed (R327). -/
def passTime (d : Nat) (s : State) : State :=
  { s with
    usec := s.usec + d
    cc := s.cc.map fun e => if e.2.tags.any fun t => t.2.kept then
      (e.1, { e.2 with tags := e.2.tags.map fun t => (t.1, keptFor (ctxD s (e.1 / 1024)).budget (fadeTick s) d t.2) }) else e }

/-- Time reaches a microsecond, if it has not. -/
def usecTo (t : Nat) (s : State) : State := if t ≤ s.usec then s else passTime (t - s.usec) s

/-- Tenths of a microsecond since power-up. -/
def tenths (s : State) : Nat := 10 * s.usec + s.clk % clocksPerUs s * 10 / clocksPerUs s

/-- Time reaches a tenth of a microsecond, if it has not. -/
def tenthsTo (t : Nat) (s : State) : State :=
  let n := clocksPerUs s
  if t ≤ tenths s then s
  else usecTo (t / 10) { s with clk := max s.clk ((s.clk / n + (t / 10 - s.usec)) * n + t % 10 * n / 10) }

/-- The position of a die in its Purlin refresh cycle, in 0.1 µs (R175, R176). -/
def purlinPos (s : State) (die : Nat) : Nat := (Config.purlinPhase die + tenths s) % 640

/-- The bank group in refresh, or the next one, and whether a window is open (R175). -/
def purlinGroup (s : State) (die : Nat) : Nat × Bool :=
  let p := purlinPos s die
  if p % 40 < 16 then (p / 40, true) else ((p / 40 + 1) % 16, false)

/-- The machine's next unused number, taken. -/
def taken (s : State) : State := { s with next := s.next + 1 }

/-- A free value: the next draw of `Config.freeWord`, and the state after drawing it. -/
def drawn (s : State) : State := { s with fresh := s.fresh + 1 }

/-! ## The unit that issues -/

/-- Whose code a unit runs. -/
inductive UKind where
  | grp (gid : Nat)
  | inst (id : Nat)
deriving DecidableEq, Repr

/-- What the meanings of instruction words need to know of the issuing unit. -/
structure UView where
  ref : UnitRef
  kind : UKind
  core : Nat
  ctx : Nat
  /-- The gang whose lanes it acts on; none for a detached instance. -/
  gk : Option Nat
  /-- The lanes a strand-0 lane-pipe word acts on outside state code. -/
  lanes : List Nat
  /-- The region, when the unit is in state code. -/
  region : Option Region
  legacy : Bool
  half : Nat
  lregs : Nat
  pc : Nat
  qids : List Nat
  seq : Nat
  priv : Bool
deriving DecidableEq, Repr

/-- Lanes of a gang: 32, or 16 in legacy-width mode (R29). -/
def UView.width (u : UView) : Nat := if u.legacy then 16 else 32

/-- The live lanes of a group's slices (R11, R19). -/
def groupLanes (g : Gang) (r : Group) : List Nat := g.live.filter fun l => r.slices.contains (l / 4)

/-- The lanes an instance acts on (R311, R313): those of the stopped group or of the fragment that
it serves, directly or through the instance it is nested in. -/
def instLanes (s : State) : Nat → Nat → Option Nat × List Nat
  | 0, _ => (none, [])
  | n + 1, id => match inst? s id with
    | none => (none, [])
    | some i => match i.serves with
      | .detached => (none, [])
      | .nested j => instLanes s n j
      | .group gk gid => match gang? s gk with
        | none => (none, [])
        | some g => match group? g gid with
          | none => (some gk, [])
          | some r => (some gk, groupLanes g r)
      | .frag gk => match gang? s gk with
        | none => (none, [])
        | some g => (some gk, ((g.frags.filter fun f => f.inst = id).flatMap fun f =>
            f.rejoin.map Prod.fst).filter g.live.contains)

/-- The view of the issuing unit, when it exists and its gang is resident. -/
def unitView (s : State) : Option UView :=
  match s.cur with
  | some (.grp gk gid) => (gang? s gk).bind fun g => (group? g gid).map fun r =>
      { ref := .grp gk gid, kind := .grp gid, core := g.core, ctx := g.ctx, gk := some gk
        lanes := groupLanes g r, region := g.region, legacy := g.legacy, half := g.half
        lregs := g.lregs, pc := r.pc, qids := r.qids, seq := r.issued, priv := g.ctx = 1 }
  | some (.inst id) => (inst? s id).map fun i =>
      let gl := instLanes s 3 id
      let g := gl.1.bind (gang? s)
      { ref := .inst id, kind := .inst id, core := i.core, ctx := i.ctx, gk := gl.1, lanes := gl.2
        region := none, legacy := (g.map Gang.legacy).getD false, half := (g.map Gang.half).getD 0
        lregs := (g.map Gang.lregs).getD 60, pc := i.pc, qids := [i.qid], seq := i.issued, priv := true }
  | _ => none

/-- Lanes of the unit's present word that have failed while others of it wait (R317). -/
def failedLanes (g : Gang) (u : UView) : List Nat :=
  match u.region, u.kind with
  | some _, .grp gid => ((group? g gid).map fun r => r.failed.map Prod.fst).getD []
  | _, _ => []

/-- The lanes a word acts on: in state code those that strand `s` selects (R33) and that have not failed
there, elsewhere the unit's lanes. -/
def actingLanes (s : State) (u : UView) (strand : Nat) : List Nat :=
  match u.region, u.gk.bind (gang? s) with
  | some r, some g =>
    let blocks := match sget none (ctxD s u.ctx).images r.img with
      | some im => ((im.states.getD r.state ([], 0, 0)).1)
      | none => []
    let on := if strand = 0 then blocks else (blocks.drop (strand - 1)).take 1
    g.live.filter fun l => on.contains (sget 1023 g.blk l) && !(failedLanes g u).contains l
  | _, _ => u.lanes

/-! ## Registers -/

/-- v register `r` of a lane. -/
def vreg (s : State) (u : UView) (lane r : Nat) : Word :=
  match u.gk.bind (gang? s) with
  | some g => sget 0 g.v (lane * 64 + r)
  | none => 0

/-- g register `r` of the unit: the gang's, or the handler's own (R311). -/
def greg (s : State) (u : UView) (r : Nat) : Word :=
  match u.kind with
  | .grp _ => match u.gk.bind (gang? s) with
    | some g => sget 0 g.g r
    | none => 0
  | .inst id => match inst? s id with
    | some i => sget 0 i.g r
    | none => 0

/-- The pair {g(r+1) : g(r)} (R62). -/
def gpair (s : State) (u : UView) (r : Nat) : Dword := pair (greg s u r) (greg s u (r + 1))

/-- Predicate q `n`, a lane mask (R118). -/
def qreg (s : State) (u : UView) (n : Nat) : Word :=
  match u.kind with
  | .grp _ => match u.gk.bind (gang? s) with
    | some g => sget 0 g.q n
    | none => 0
  | .inst id => match inst? s id with
    | some i => sget 0 i.q n
    | none => 0

/-- A change of what a unit holds: `fg` for a group's gang, `fi` for an instance. -/
def onUnit (s : State) (u : UView) (fg : Gang → Gang) (fi : Inst → Inst) : State :=
  match u.kind with
  | .grp _ => match u.gk with
    | some gk => updGang s gk fg
    | none => s
  | .inst id => updInst s id fi

/-- A change of the issuing group, or of the instance. -/
def onIssuer (s : State) (u : UView) (fg : Group → Group) (fi : Inst → Inst) : State :=
  match u.kind with
  | .grp gid => match u.gk with
    | some gk => updGroup s gk gid fg
    | none => s
  | .inst id => updInst s id fi

/-- A gang register or v registers written: an uncorrectable error there is gone (R319). -/
def Gang.putG (g : Gang) (r : Nat) (x : Word) : Gang :=
  { g with g := sset 0 g.g r x, poison := g.poison.filter fun k => k ≠ 4096 + r }
def Gang.putV (g : Gang) (r : Nat) (rs : List (Nat × Word)) : Gang :=
  let kvs := rs.map fun e => (e.1 * 64 + r, e.2)
  { g with v := ssets 0 g.v kvs, poison := g.poison.filter fun k => !(kvs.map Prod.fst).contains k }

def setVreg (s : State) (u : UView) (lane r : Nat) (x : Word) : State :=
  match u.gk with
  | some gk => updGang s gk fun g => g.putV r [(lane, x)]
  | none => s

/-- One v register of several lanes. -/
def setVregs (s : State) (u : UView) (r : Nat) (rs : List (Nat × Word)) : State :=
  match u.gk with
  | some gk => updGang s gk fun g => g.putV r rs
  | none => s

/-- As `Gang.putG`, in a handler's register set. -/
def Inst.putG (i : Inst) (r : Nat) (x : Word) : Inst :=
  { i with g := sset 0 i.g r x, poison := i.poison.filter fun k => k ≠ 4096 + r }

def setGreg (s : State) (u : UView) (r : Nat) (x : Word) : State :=
  onUnit s u (fun g => g.putG r x) (fun i => i.putG r x)

def setQreg (s : State) (u : UView) (n : Nat) (x : Word) : State :=
  onUnit s u (fun g => { g with q := sset 0 g.q n x }) (fun i => { i with q := sset 0 i.q n x })

/-! ## Latches (R64–R68) -/

/-- The four latches of a pipe kind. -/
def latches (s : State) (u : UView) (p : Pipe) : List Latch :=
  match u.kind with
  | .grp gid => match (u.gk.bind (gang? s)).bind fun g => group? g gid with
    | some r => match p with
      | .lane => r.laneLatch
      | .gang => r.gangLatch
    | none => []
  | .inst id => match inst? s id with
    | some i => match p with
      | .lane => i.laneLatch
      | .gang => i.gangLatch
    | none => []

def setLatches (s : State) (u : UView) (p : Pipe) (ls : List Latch) : State :=
  match p with
  | .lane => onIssuer s u (fun r => { r with laneLatch := ls }) (fun i => { i with laneLatch := ls })
  | .gang => onIssuer s u (fun r => { r with gangLatch := ls }) (fun i => { i with gangLatch := ls })

def emptyLatches : List Latch := [{}, {}, {}, {}]

/-- Every VALID entry becomes LOST (R67). -/
def lostLatches (ls : List Latch) : List Latch :=
  ls.map fun l => if l.st = .valid then { l with st := .lost } else l

def Group.lose (r : Group) : Group :=
  { r with laneLatch := lostLatches r.laneLatch, gangLatch := lostLatches r.gangLatch }

def Group.empty (r : Group) : Group :=
  { r with laneLatch := emptyLatches, gangLatch := emptyLatches }

/-- Older entries that record register `r` no longer match it (R64, R129). -/
def dropReg (ls : List Latch) (r : Nat) : List Latch :=
  ls.map fun l => if l.reg = some r then { l with reg := none } else l

/-- An entry that every lane counts, and will go on counting: it awaits nothing and was shifted everywhere. -/
def Latch.solid (l : Latch) : Bool := l.pend.isNone && l.skip = []

/-- The newest entries, until `n` of them are solid: what each lane needs to find its `n` newest. -/
def takeLatches : Nat → List Latch → List Latch
  | 0, _ => []
  | _, [] => []
  | n + 1, l :: ls => l :: takeLatches (if l.solid then n else n + 1) ls

/-- The entry that a lane finds at place `n`. An older copy of a register that a newer entry was also written
to no longer matches it (R64). -/
def latchAt (ls : List Latch) (lane n : Nat) : Latch :=
  let mine := ls.filter fun l => !l.skip.contains lane
  let l := mine.getD n {}
  match l.reg with
  | some r => if (mine.take n).any fun x => x.reg = some r then { l with reg := none } else l
  | none => l

/-- A result shifts in (R64): `reg` is the register also written, `idem` as R64 says, `skip` the lanes in which
nothing is shifted. The older copies of a register whose value is still awaited are dropped as it is read. -/
def shiftLatch (ls : List Latch) (reg : Option Nat) (idem : Bool) (pend : Option Nat)
    (val : Sparse Word) (skip : List Nat := []) : List Latch :=
  let older := match reg, pend, skip with
    | some r, none, [] => dropReg ls r
    | _, _, _ => ls
  takeLatches 4 ({ st := .valid, reg := reg, idem := idem, pend := pend, val := val, skip := skip } :: older)

/-- Results issued now are produced since the gang's current IDEM (R64, R133). -/
def idemNow (s : State) (u : UView) : Bool :=
  match u.kind with
  | .grp _ => match u.gk.bind (gang? s) with
    | some g => g.idemSet
    | none => false
  | .inst _ => false

/-- Lanes in which a result of the present word is not shifted in: those of it that have raised (R148, R319). -/
def notShifted (s : State) (u : UView) (p : Pipe) : List Nat :=
  match p, u.gk.bind (gang? s) with
  | .lane, some g => failedLanes g u
  | _, _ => []

def shiftIn (s : State) (u : UView) (p : Pipe) (reg : Option Nat) (pend : Option Nat)
    (val : Sparse Word) : State :=
  setLatches s u p (shiftLatch (latches s u p) reg (idemNow s u) pend val (notShifted s u p))

/-- The value of a source field for a lane of the lane pipe: a v register, or a latch (R61, R68).
Where a VALID entry holds no value for the lane, because its producer did not act on it, the value
is open (log entry 44). -/
def vsrc (s : State) (u : UView) (f : BitVec 6) (lane : Nat) : Word :=
  if f.toNat < 60 then vreg s u lane f.toNat
  else match latchAt (latches s u .lane) lane (f.toNat - 60) with
    | { st := .valid, val := m, .. } => (slook m lane).getD (Config.freeWord (s.fresh * 64 + lane))
    | { reg := some r, .. } => vreg s u lane r
    | _ => 0

/-- The value of a source field of the gang pipe. -/
def gsrc (s : State) (u : UView) (f : BitVec 6) : Word :=
  if f.toNat < 60 then greg s u f.toNat
  else match latchAt (latches s u .gang) 0 (f.toNat - 60) with
    | { st := .valid, val := m, .. } => (slook m 0).getD (Config.freeWord (s.fresh * 64))
    | { reg := some r, .. } => greg s u r
    | _ => 0

/-! ## Program counters and waits -/

/-- The next word, modulo 2^32 (R59). -/
def nextPc (pc : Nat) : Nat := (pc + 1) % 0x100000000

/-- The issuing unit goes on at `pc`: it has issued, so its age resets (R24) and no wait remains. -/
def goto (s : State) (u : UView) (pc : Nat) : State :=
  drawn (onIssuer s u
    (fun r => { r with pc := pc, wait := none, age := 0, issued := r.issued + 1 })
    (fun i => { i with pc := pc, wait := none, issued := i.issued + 1 }))

/-- The issuing unit goes on at the following word. -/
def advance (s : State) (u : UView) : State := goto s u (nextPc u.pc)

/-- The wait a unit is in. -/
def waitOf (s : State) (u : UView) : Option Wait :=
  match u.kind with
  | .grp gid => ((u.gk.bind (gang? s)).bind fun g => group? g gid).bind Group.wait
  | .inst id => (inst? s id).bind Inst.wait

/-- The issuing unit waits at its word (R22). A wait for the same thing keeps its start. -/
def hold (s : State) (u : UView) (w : WaitOn) : State :=
  let since := match waitOf s u with
    | some x => if x.on = w then x.since else s.usec
    | none => s.usec
  onIssuer s u (fun r => { r with wait := some ⟨w, since⟩ }) (fun i => { i with wait := some ⟨w, since⟩ })

/-! ## Idempotent regions (R133, R315) -/

/-- The generators of the live lanes. -/
def liveGens (g : Gang) : List (Nat × Dword) := g.live.map fun l => (l, sget 1 g.gen l)

/-- The latch marking of an IDEM: later entries carry idem, earlier ones do not (R64, R133). -/
def markGang (g : Gang) : Gang :=
  { g with
    idemSet := true
    groups := g.groups.map fun e => (e.1, e.2.map fun r =>
      { r with laneLatch := r.laneLatch.map fun l => { l with idem := false }
               gangLatch := r.gangLatch.map fun l => { l with idem := false } }) }

/-- The checkpoint of an IDEM, and in linear code the entry, which becomes `pc` (R133). -/
def startRegion (linear : Bool) (pc : Nat) (gens : List (Nat × Dword)) (g : Gang) : Gang :=
  let g := { g with ckpt := ssets 1 g.ckpt gens }
  if linear then { g with idemPc := pc, idemCount := g.idemCount + 1 } else g

/-- What an IDEM does to a gang that has issued it. -/
def idemGang (linear : Bool) (pc : Nat) (g : Gang) : Gang := startRegion linear pc (liveGens g) (markGang g)

/-- The effect of an IDEM, or of an instruction of R315's list that has taken effect: nothing in a
handler instance. -/
def idem (s : State) (u : UView) : State :=
  match u.kind, u.gk with
  | .grp _, some gk => updGang s gk (idemGang u.region.isNone (nextPc u.pc))
  | _, _ => s

/-- A queue entry whose accesses may yet fail a check (R375). -/
def mayFail (e : QEntry) : Bool :=
  match e.op with
  | .accesses xs => xs.any fun x => match x.op with
    | .store _ _ => decide (0xFF00 ≤ (x.addr.toNat / 0x1000000000000) ∧ (x.addr.toNat / 0x1000000000000) ≤ 0xFF01)
    | .redm _ _ => decide ((x.addr.toNat / 0x1000000000000) = 0xFF00)
    | _ => true
  | .stv _ _ _ => true
  | .dfa _ _ => true
  | _ => false

/-- An access is still in a queue, or an ATOM on its way, and may yet fail a check (R375). -/
def checkOutstanding (s : State) (qids : List Nat) : Bool :=
  s.queue.any (fun e => qids.contains e.qid && mayFail e)
    || s.homeq.any fun h => qids.contains h.qid && h.entry.isSome

/-- The entry number under which accesses of the unit's present word are still to be made: in its queue, or,
of an ATOM, at a home. -/
def openEntry (s : State) (u : UView) : Option Nat :=
  ((s.queue.find? fun e => u.qids.contains e.qid && e.seq = u.seq && mayFail e).map fun e => e.id)
    <|> (s.homeq.find? fun h => u.qids.contains h.qid && h.seq = u.seq && h.entry.isSome).bind HomeOp.entry

/-- An access instruction of R315's list has issued. Its region ends at once, unless accesses of its own may yet
fail: then the entry moves only when they have been made (R315, R375, log entry 91). -/
def idemAccess (s : State) (u : UView) : State :=
  match openEntry s u with
  | none => idem s u
  | some id => match u.kind, u.gk with
    | .grp _, some gk => updGang s gk fun g =>
        { markGang g with ends := g.ends ++ [⟨id, u.region.isNone, nextPc u.pc, liveGens g⟩] }
    | _, _ => s

/-- The region end that awaits an entry takes effect, or (`ok` false) does not. -/
def Gang.endDue (ok : Bool) (entry : Nat) (g : Gang) : Gang :=
  match g.ends.find? fun e => e.entry = entry with
  | none => g
  | some e =>
    let g := { g with ends := g.ends.filter fun e => e.entry ≠ entry }
    if ok then startRegion e.linear e.pc e.gens g else g

/-! ## Messages to hosts (R345, R350) -/

/-- A report goes out on the context's session of lowest number, or is held until one opens. -/
def report (s : State) (op ctx : Nat) (payload : List Byte) : State :=
  match (sentries s.sessions).find? fun e => decide (e.2.ctx = ctx) with
  | some e => { s with outbox := s.outbox ++ [⟨e.1, op, ctx, 0, 0, payload⟩] }
  | none => { s with held := s.held ++ [⟨0, op, ctx, 0, 0, payload⟩] }

/-! ## Taking an exception -/

/-- A context stops: every gang of it stands where it is, and its host is told (R311). -/
def faultContext (ctx : Nat) (c : Cause) (s : State) : State :=
  if (ctxD s ctx).faulted then s else
  let s := { s with
    gangs := s.gangs.map fun e => (e.1, e.2.map fun g => if g.ctx = ctx then { g with dead := true } else g)
    insts := s.insts.map fun e => (e.1, e.2.map fun i => if i.ctx = ctx then { i with stopped := true } else i) }
  let s := updCtx s ctx fun x => { x with faulted := true }
  report s 0x41 ctx (natLe 4 c.code ++ natLe 4 c.d0.toNat ++ natLe 4 c.d1.toNat
    ++ natLe 4 c.d2.toNat ++ natLe 4 c.d3.toNat)

/-- The lowest free handler register set of a core (R311). -/
def freeSet (s : State) (core : Nat) : Option Nat :=
  (List.range Config.trapSets).find? fun n =>
    !(sentries s.insts).any fun e => e.2.core = core && e.2.set = some n

/-- A handler instance starts, or waits for a register set (R303, R311, R313); while a quiesce runs it is
pre-empted at once (R331). Its number is `s.next`. -/
def startInst (s : State) (core ctx : Nat) (serves : Serves) (r : Record) (at_ : Word) : State :=
  let x := ctxD s ctx
  let i : Inst :=
    { core := core, ctx := ctx, serves := serves, rcd := r, set := freeSet s core
      pc := x.trapEntry.toNat
      g := ssets 0 [] [(0, w32 r.cause.code), (1, at_), (2, r.cause.d0)]
      qid := s.next, since := s.usec, hinted := x.handlerHinted, stopped := x.qState = 1 }
  taken (setInst s s.next (some i))

/-- The position of a word in state code, as g1 holds it (R313). -/
def codePos (img idx : Nat) : Word := w32 (img % 64 * 0x1000000 + idx % 0x1000000)

/-- Where the unit's current word lies: its position, and whether in state code. -/
def whereAt (u : UView) : Word × Bool :=
  match u.region with
  | some r => (codePos r.img u.pc, true)
  | none => (w32 u.pc, false)

/-- The array at whose counter a cause counts (R371): scratchpads by core, Purlin stores, tiers, register
files and accumulators, shadow units. -/
def arrayOf (core code : Nat) : Option Nat :=
  match code with
  | 0x22 => some (5000 + core)
  | 0x30 => some 2000
  | 0x31 => some 2001
  | 0x32 => some core
  | 0x33 => some (3000 + core)
  | 0x34 => some (1024 + dieNo core)
  | _ => none

/-- An error counts once at the controller (R371). -/
def counted (core code : Nat) (s : State) : State :=
  match arrayOf core code with
  | some k => { s with ctl := { s.ctl with errors := sset 0 s.ctl.errors k (sget 0 s.ctl.errors k + 1) } }
  | none => s

/-- A detached instance (R311): for a notice, or where no lane is left to stop. A notice to a context
without a handler is discarded; any other cause then stops the context. -/
def raiseDetached (core ctx : Nat) (c : Cause) (notice defer : Bool) (at_ : Word) (scode : Bool)
    (s : State) (half : Nat := 0) (cdepth : Nat := 0) : State :=
  let s := counted core c.code s
  if (ctxD s ctx).faulted then s
  else if (ctxD s ctx).trapValid then
    startInst s core ctx .detached
      { cause := c, defer := defer, notice := notice, detached := true, scode := scode, half := half
        cdepth := cdepth } at_
  else if notice then s else faultContext ctx c s

/-- A region ends without running its exit (R318): every lane takes DONE, fragments are abandoned. -/
def leaveRegion (g : Gang) : Gang :=
  { g with blk := [], pblk := [], region := none, frags := [], back := [] }

/-- An instance, with those that it is nested in. -/
def instChain (s : State) : Nat → Nat → List Nat
  | 0, id => [id]
  | n + 1, id => match (inst? s id).map Inst.serves with
    | some (.nested j) => id :: instChain s n j
    | _ => [id]

/-- The instances of a gang's fragments are abandoned, with those nested in them. -/
def dropFrags (s : State) (g : Gang) : State :=
  let gone := ((sentries s.insts).filter fun e => (instChain s 3 e.1).any fun k => g.frags.any fun f => f.inst = k).map Prod.fst
  gone.foldl (fun s id => setInst s id none) s

/-- A cause 0x30–0x34 in a group with an open containment level unwinds it (R318). -/
def unwind (gk gid : Nat) (g : Gang) (r : Group) (c : Cause) (lanes : List Nat) (defer : Bool)
    (s : State) : State :=
  let rec0 : Record :=
    { cause := { code := 0x35, d0 := w32 c.code, source := c.source }, defer := defer, cdepth := r.cont.length
      half := g.half, lanes := lanes }
  let s := dropFrags s g
  let r' : Group := { (r.lose) with
    pc := (r.cont.headD 0), cont := r.cont.drop 1, unwind := some rec0, wait := none, age := 0, failed := [] }
  match g.region with
  | none => setGang s gk (some (setGroup g gid (some r')))
  | some _ => setGang s gk (some (setGroup (leaveRegion g) gid (some r')))

/-- The whole group stops, and the context's handler runs on it (R303, R309). -/
def stopGroup (gk gid : Nat) (g : Gang) (r : Group) (c : Cause) (lanes : List Nat) (defer : Bool)
    (at_ : Word) (scode : Bool) (s : State) : State :=
  if !(ctxD s g.ctx).trapValid then faultContext g.ctx c s else
  let id := s.next
  let s := startInst s g.core g.ctx (.group gk gid)
    { cause := c, defer := defer, cdepth := r.cont.length, half := g.half, scode := scode, lanes := lanes } at_
  setGang s gk (some (setGroup g gid (some { r with
    wait := some ⟨.stopped id, s.usec⟩, unwind := none })))

/-- The REENTRY block of a block of a sealed image (R44, R50). -/
def reentry (s : State) (ctx img blk : Nat) : Nat :=
  match sget none (ctxD s ctx).images img with
  | some im => (im.blocks.getD blk (0, [])).1
  | none => 0

/-- Lanes leave the step as one fragment (R43, R317): blk PARKED, no pending block, each with the
REENTRY of its block as rejoin block, and an instance at trap priority. -/
def park (gk : Nat) (g : Gang) (r : Region) (cdepth : Nat) (c : Cause) (lanes : List Nat)
    (defer : Bool) (at_ : Word) (scode : Bool) (s : State) : State :=
  if lanes = [] then s else
  if !(ctxD s g.ctx).trapValid then faultContext g.ctx c s else
  let id := s.next
  let s := startInst s g.core g.ctx (.frag gk)
    { cause := c, frag := true, defer := defer, cdepth := cdepth, half := g.half, scode := scode
      lanes := lanes } at_
  let rejoin := lanes.map fun l => (l, reentry s g.ctx r.img (sget 1023 g.blk l))
  setGang s gk (some { g with
    blk := ssets 1023 g.blk (lanes.map fun l => (l, 1022))
    pblk := ssets 0 g.pblk (lanes.map fun l => (l, 0))
    frags := g.frags ++ [⟨id, rejoin⟩] })

/-- Uncorrectable causes, which containment replaces (R318). -/
def isUncorrectable (c : Cause) : Bool := decide (0x30 ≤ c.code ∧ c.code ≤ 0x34)

/-- A cause reaches a group, at `at_`: containment unwinds it, in linear code it stops, in state code
the lanes are parked (R309, R318). -/
def raiseGroup (gk gid : Nat) (c : Cause) (lanes : List Nat) (defer : Bool) (at_ : Word) (scode : Bool)
    (s : State) : State :=
  match gang? s gk with
  | none => s
  | some g => match group? g gid with
    | none => s
    | some r =>
      let s := counted g.core c.code s
      if isUncorrectable c && r.cont ≠ [] then unwind gk gid g r c lanes defer s
      else match g.region with
        | none => stopGroup gk gid g r c lanes defer at_ scode s
        | some rg => park gk g rg r.cont.length c lanes defer at_ scode s

/-- A unit is stopped by a cause. -/
def stoppedWait (w : Option Wait) : Bool :=
  match w with
  | some ⟨.stopped _, _⟩ => true
  | _ => false

/-- A cause reaches an instance, for the word at `at_`: containment unwinds it, a nested instance starts for it,
or, in a nested one, the context stops (R314, R318). While a nested one runs the instance holds the cause
pending. -/
def raiseInst (id : Nat) (c : Cause) (lanes : List Nat) (defer : Bool) (at_ : Word) (s : State) : State :=
  match inst? s id with
  | none => s
  | some i =>
    if stoppedWait i.wait then updInst s id fun i => { i with pending := i.pending ++ [⟨c, lanes, at_, false, none, defer⟩] } else
    let s := counted i.core c.code s
    if isUncorrectable c && i.cont ≠ [] then
      setInst s id (some { i with pc := i.cont.headD 0, cont := i.cont.drop 1, wait := none
                                  laneLatch := lostLatches i.laneLatch
                                  gangLatch := lostLatches i.gangLatch })
    else match i.serves with
      | .nested _ => faultContext i.ctx c s
      | _ =>
        if !(ctxD s i.ctx).trapValid then faultContext i.ctx c s else
        let n := s.next
        let s := startInst s i.core i.ctx (.nested id)
          { cause := c, nest := true, defer := defer, detached := i.rcd.detached, cdepth := i.cont.length
            half := i.rcd.half, lanes := lanes } at_
        updInst s id fun i => { i with wait := some ⟨.stopped n, s.usec⟩ }

/-- The cause a stop carries when several lanes fail, given by rising lane: the lowest lane's (R310), but where
that is one of 0x20–0x22 the highest of those present (R148, R159). -/
def leadCause (bs : List (Nat × Cause)) : Option Cause :=
  let isFp (c : Cause) : Bool := decide (0x20 ≤ c.code ∧ c.code ≤ 0x22)
  match bs with
  | [] => none
  | (_, c) :: _ =>
    if isFp c then
      let fps := (bs.map Prod.snd).filter isFp
      fps.find? (fun x => x.code = fps.foldl (fun a e => max a e.code) 0)
    else some c

/-- Pairs by rising lane. -/
def byLane (bs : List (Nat × Cause)) : List (Nat × Cause) :=
  bs.foldl (fun a e => (a.takeWhile fun x => x.1 ≤ e.1) ++ e :: a.dropWhile fun x => x.1 ≤ e.1) []

/-- Lanes that failed earlier at a group's present word, of those still in the step. -/
def waitingFails (s : State) (gk gid : Nat) : List (Nat × Cause) :=
  match (gang? s gk).bind fun g => (group? g gid).map fun r => (g, r) with
  | some (g, r) => r.failed.filter fun e => sget 1023 g.blk e.1 < 1022
  | none => []

/-- TAKING AN EXCEPTION: cause `c` in the lanes `lanes` of the issuing unit, at its current word
(R303, R309–R314, R317, R318). A group in linear code stops; in state code the lanes are parked, with those of
the word that failed before, as one fragment, and the group stays in the step, at its word; in an instance a
nested one starts; in a nested one the context stops. Containment unwinds the group instead. -/
def raise (c : Cause) (lanes : List Nat) (u : UView) (s : State) : State :=
  match u.kind with
  | .grp gid => match u.gk with
    | none => s
    | some gk => match if u.region.isNone then [] else waitingFails s gk gid with
      | [] => raiseGroup gk gid c lanes false (whereAt u).1 (whereAt u).2 s
      | before =>
        let all := byLane (before ++ lanes.map fun l => (l, c))
        raiseGroup gk gid ((leadCause all).getD c) (all.map Prod.fst) false
          (whereAt u).1 (whereAt u).2 (updGroup s gk gid fun r => { r with failed := [] })
  | .inst id => match inst? s id with
    | none => s
    | some i => raiseInst id c lanes false (w32 i.pc) s

/-- Lanes of the unit's word fail in state code while others of it may have to wait: they are parked when the
word completes (R317). -/
def setFailed (bads : List (Nat × Cause)) (u : UView) (s : State) : State :=
  match u.kind, u.gk with
  | .grp gid, some gk => updGroup s gk gid fun r => { r with failed := r.failed ++ bads }
  | _, _ => s

/-- A word has completed: lanes of it that failed are parked, as one fragment. -/
def parkFailed (u : UView) (s : State) : State :=
  match u.region, u.kind, u.gk with
  | some _, .grp gid, some gk => match (gang? s gk).bind fun g => group? g gid with
    | some r => match r.failed with
      | [] => s
      | e :: _ => if r.issued = u.seq then s else raise e.2 [] u s
    | none => s
  | _, _, _ => s

/-- In state code the remaining lanes go on with the next word after lanes have been parked
(R43); elsewhere the unit has stopped at its word. -/
def raiseOn (c : Cause) (lanes : List Nat) (u : UView) (s : State) : State :=
  let s' := raise c lanes u s
  match u.region, u.gk.bind (gang? s') with
  | some _, some g => match g.region with
    | some _ => if g.dead then s' else advance s' u
    | none => s'
  | _, _ => s'

/-! ## Returning from an exception -/

/-- A stopped group resumes at the gang's idempotent entry (R315, R316): its lanes take their
generator checkpoints, its latches become LOST. -/
def resume (gk gid : Nat) (s : State) : State :=
  updGang s gk fun g => match group? g gid with
    | none => g
    | some r =>
      let g := { g with gen := ssets 1 g.gen ((groupLanes g r).map fun l => (l, sget 1 g.ckpt l)) }
      setGroup g gid (some { r.lose with pc := g.idemPc, wait := none, age := 0, failed := [] })

/-- Every VALID latch entry of a gang becomes LOST (R67). -/
def Gang.lose (g : Gang) : Gang := { g with groups := g.groups.map fun e => (e.1, e.2.map Group.lose) }

/-- A fragment's lanes await the commit with their rejoin blocks, or take them at once when the gang
waits at an empty vote (R44), and the gang's latches are LOST (R67). With `exit`, the region is leaving and they take
DONE (R41). -/
def rejoinLanes (id : Nat) (g : Gang) : Gang :=
  let g := g.lose
  let mine := g.frags.filter fun f => f.inst = id
  let rest := g.frags.filter fun f => f.inst ≠ id
  let pairs := (mine.flatMap Fragment.rejoin).filter fun e => g.live.contains e.1
  let wait := ((sentries g.groups).head?).bind fun e => e.2.wait
  match wait with
  | some ⟨.fragments true, _⟩ =>
    { g with frags := rest, blk := ssets 1023 g.blk (pairs.map fun e => (e.1, 1023)) }
  | some ⟨.fragments false, _⟩ => { g with frags := rest, blk := ssets 1023 g.blk pairs }
  | _ => { g with frags := rest, back := ssets 0 g.back (pairs.map fun e => (e.1, e.2 + 1)) }

/-- RETURNING FROM AN EXCEPTION (R314): a stopped group resumes, a fragment rejoins, a nested
instance goes back to the point where the first stopped, and the instance's register set is free. -/
def rett (id : Nat) (i : Inst) (s0 : State) : State :=
  let s := setInst s0 id none
  match i.serves with
  | .detached => s
  | .group gk gid => resume gk gid s
  | .frag gk => updGang s gk (rejoinLanes id)
  | .nested j =>
    let s := updInst s j fun x => { x with wait := none, pending := x.pending.drop 1
                                           laneLatch := lostLatches x.laneLatch
                                           gangLatch := lostLatches x.gangLatch }
    match ((inst? s0 j).map Inst.pending).getD [] with
    | [] => s
    | p :: _ => raiseInst j p.cause p.lanes p.defer p.pc s

/-- A restart of the issuing group at the gang's idempotent entry (R68); in state code the region is
left, since the entry lies before it (log entry 13). It waits while a region end is due (log entry 91). -/
def restartUnit (s : State) (u : UView) : State :=
  match u.kind, u.gk with
  | .grp gid, some gk => match gang? s gk with
    | some g =>
      if g.ends ≠ [] then hold s u .drain
      else match g.region with
        | none => resume gk gid s
        | some _ => resume gk gid (setGang (dropFrags s g) gk (some (leaveRegion g)))
    | none => s
  | _, _ => s

/-! ## The checks that open an instruction (R71) -/

/-- What an instruction's entry says of its fields. Sources name fields of the pipe's own file;
`gs` are gang registers it reads by number (address pairs and the like); `more` are gang registers
it writes beside D. -/
structure Need where
  pipe : Pipe
  strand : BitVec 2 := 0
  priv : Bool := false
  /-- Reserved fields hold nothing (beyond what the decoder has checked). -/
  reserved : Bool := true
  /-- The entry's own limits hold. -/
  limits : Bool := true
  /-- D as a destination, and W. -/
  dst : Option (BitVec 6) := none
  w : Bool := false
  /-- D names a lane register although the word is a gang-pipe word (R61). -/
  laneDst : Bool := false
  /-- D + 1 is written too (R94). -/
  pairD : Bool := false
  /-- The operation reads D, so that with W D may name a latch (R65). -/
  readsD : Bool := false
  srcs : List (BitVec 6) := []
  gs : List Nat := []
  more : List Nat := []
  /-- The word runs even when its strand has no active lane (AUTO.STEP, AUTO.EXIT). -/
  always : Bool := false
  /-- The word ends an idempotent region, or is IDEM: it waits for outstanding checks (R375). -/
  ends : Bool := false
  /-- A source that is read in another lane (R111, R114, R117): the field, and the lane that a lane reads. -/
  other : Option (BitVec 6 × (State → UView → Nat → Nat)) := none

/-- What the checks answer. -/
inductive Pre where
  | go (acts : List Nat)
  /-- In state code some lanes would read an uncorrectable register (R319): the others run the word. -/
  | some (acts : List Nat) (bads : List (Nat × Cause))
  | skip
  | wait (w : WaitOn)
  | restart
  | raise (c : Cause) (lanes : List Nat)
deriving DecidableEq, Repr

/-- The word of an instruction, as a detail word (R307). -/
def wordOf (i : Instr) : Word := (encode i).getD 0

/-- The lane-register side of check 4: a lane-pipe source or written destination below LREGS, and a
destination field below 60 even where W suppresses the write (R61, R63, R65). -/
def limitsOk (n : Need) (u : UView) : Bool :=
  let vOk (f : BitVec 6) : Bool := f.toNat ≥ 60 || f.toNat < u.lregs
  let srcOk := match n.pipe with
    | .lane => n.srcs.all vOk && n.other.all fun e => vOk e.1
    | .gang => true
  let dstOk := match n.dst with
    | none => true
    | some d =>
      if n.w && n.readsD then true
      else d.toNat < 60 && (match n.pipe, n.laneDst, n.w with
        | .gang, false, _ => true
        | _, _, true => true
        | _, _, false => d.toNat < u.lregs)
        && (!n.pairD || (d.toNat < 59 && (n.pipe = .gang || d.toNat + 1 < u.lregs)))
  n.limits && srcOk && dstOk && n.gs.all (fun r => r < 60) && n.more.all (fun r => r < 60)

/-- How one latch source resolves for a lane (R68): none when it may be read. -/
def latchCheck (ls : List Latch) (lane : Nat) (f : BitVec 6) : Option Pre :=
  if f.toNat < 60 then none else
  match latchAt ls lane (f.toNat - 60) with
  | { st := .valid, pend := none, .. } => none
  | { st := .valid, pend := some id, .. } => some (.wait (.entry id))
  | { st := .lost, reg := some _, .. } => none
  | { st := .lost, reg := none, idem := true, .. } => some .restart
  | _ => some (.raise { code := 0x06, d0 := w32 (f.toNat - 60) } [])

/-- The queue entry that a register awaits, if any (the scoreboard of R70). -/
def awaited (s : State) (u : UView) (isG : Bool) (lanes : List Nat) (r : Nat) : Option Nat :=
  let gangSb := match u.gk.bind (gang? s) with
    | some g => g.scoreboard
    | none => []
  let look (m : Sparse Nat) (k : Nat) : Option Nat := match sget 0 m k with
    | 0 => none
    | n + 1 => some n
  if isG then match u.kind with
    | .grp _ => look gangSb (4096 + r)
    | .inst id => look (((inst? s id).map Inst.scoreboard).getD []) (4096 + r)
  else lanes.findSome? fun l => look gangSb (l * 64 + r)

/-- The register that a field reads in a lane: itself, or a LOST latch's register. -/
def fieldReg (ls : List Latch) (lane : Nat) (f : BitVec 6) : Option Nat :=
  if f.toNat < 60 then some f.toNat
  else match latchAt ls lane (f.toNat - 60) with
    | { st := .lost, reg := some r, .. } => some r
    | _ => none

/-- The registers that a word's sources read, with the lane of each: in the gang pipe the gang's own, at lane 0;
a source read in another lane is that lane's. -/
def readRegs (s : State) (u : UView) (n : Need) (acts : List Nat) : List (Nat × Nat) :=
  let ls := latches s u n.pipe
  let own := (if n.pipe = .gang then [0] else acts).flatMap fun l => (n.srcs.filterMap (fieldReg ls l)).map fun r => (l, r)
  match n.other with
  | none => own
  | some (f, src) => own ++ (acts.map (src s u)).flatMap fun l => ((fieldReg ls l f).toList).map fun r => (l, r)

/-- Registers whose data is uncorrectable (R319), of the gang and of the handler's set: a gang register of the
unit, or a lane's register. -/
def poisoned (s : State) (u : UView) (isG : Bool) (lane r : Nat) : Bool :=
  let ofGang := match u.gk.bind (gang? s) with
    | some g => g.poison
    | none => []
  if isG then match u.kind with
    | .grp _ => ofGang.contains (4096 + r)
    | .inst id => (((inst? s id).map Inst.poison).getD []).contains (4096 + r)
  else ofGang.contains (lane * 64 + r)

/-- Acting lanes that would read an uncorrectable register (R319), each with cause 0x33: all of them where a
gang register is concerned. -/
def badReads (s : State) (u : UView) (n : Need) (acts : List Nat) : List (Nat × Cause) :=
  let isG := decide (n.pipe = .gang)
  let src := if isG then 1 else 0
  let ls := latches s u n.pipe
  let bad (r : Nat) : Cause := { code := 0x33, d0 := w32 r, source := src }
  let gs := n.gs ++ (if isG then n.srcs.filterMap (fieldReg ls 0) else [])
  match gs.find? (poisoned s u true 0) with
  | some r => acts.map fun l => (l, bad r)
  | none =>
    if isG then []
    else acts.filterMap fun l =>
      let own := (n.srcs.filterMap (fieldReg ls l)).map fun r => (l, r)
      let far := match n.other with
        | none => []
        | some (f, src) => ((fieldReg ls (src s u l) f).toList).map fun r => (src s u l, r)
      ((own ++ far).find? fun e => poisoned s u false e.1 e.2).map fun e => (l, bad e.2)

/-- What the scoreboard and the registers' data leave of a word that has passed the checks of R71: a wait for a
register or an outstanding check (R70, R375), cause 0x33 (R319), or the lanes that run it. -/
def postcheck (n : Need) (acts : List Nat) (u : UView) (s : State) : Pre :=
  let isG := decide (n.pipe = .gang)
  let dst := match n.dst with
    | some d => if n.w || d.toNat ≥ 60 then [] else if n.pairD then [d.toNat, d.toNat + 1] else [d.toNat]
    | none => []
  match ((readRegs s u n acts).findSome? fun e => awaited s u isG [e.1] e.2) <|> (n.gs.findSome? (awaited s u true acts))
    <|> (n.more.findSome? (awaited s u true acts))
    <|> (dst.findSome? (awaited s u (isG && !n.laneDst) acts)) with
  | some id => .wait (.entry id)
  | none =>
    if acts = [] && n.pipe = .lane then .skip
    else if n.ends && checkOutstanding s u.qids then .wait .drain
    else match badReads s u n acts with
      | [] => .go acts
      | e :: bads =>
        let rest := acts.filter fun l => !(e :: bads).any fun b => b.1 = l
        if u.region.isNone || rest = [] then .raise e.2 ((e :: bads).map Prod.fst) else .some rest (e :: bads)

/-- The checks of R71 in their order, then uncorrectable registers (R319) and the scoreboard (R70, R198). A lane-pipe
word that acts on no lane is skipped; so is ISECT in a detached instance, which leaves gD and gD + 1 as they are
(DESIGN CHOICE on R116, log entry 108). -/
def precheck (i : Instr) (n : Need) (u : UView) (s : State) : Pre :=
  let acts := actingLanes s u n.strand.toNat
  if u.region.isSome && acts = [] && !n.always then .skip else
  let src := if n.pipe = .gang then 1 else 0
  let bad (code : Nat) : Pre := .raise { code := code, d0 := wordOf i, source := src } acts
  if !n.reserved || (u.region.isNone && n.strand ≠ 0#2) then bad 0x03 else
  if n.priv && !u.priv then bad 0x04 else
  if !limitsOk n u then bad 0x05 else
  let ls := latches s u n.pipe
  let lanes := if n.pipe = .gang ∨ acts = [] then [0] else acts
  let far := match n.other with
    | none => none
    | some (f, src) => acts.findSome? fun l => latchCheck ls (src s u l) f
  match (n.srcs.findSome? fun f => lanes.findSome? fun l => latchCheck ls l f) <|> far with
  | some (.raise c _) => .raise { c with source := src } acts
  | some p => p
  | none => postcheck n acts u s

/-- THE OPENING OF EVERY INSTRUCTION WORD: the issuing unit, the checks, then the instruction's own
effect on the acting lanes. -/
def issue (i : Instr) (n : Need) (body : UView → List Nat → State → State) (s : State) : Out :=
  match unitView s with
  | none => .fault .noUnit
  | some u => .next (parkFailed u (match precheck i n u s with
    | .skip => advance s u
    | .wait w => hold s u w
    | .restart => restartUnit s u
    | .raise c lanes => raiseOn c lanes u s
    | .go acts => body u acts s
    | .some acts bads => body u acts (setFailed bads u s)))

/-! ## Results -/

/-- A lane-pipe result: D of each lane unless W suppresses it, and the lane latches (R64, R65). -/
def laneResult (d : BitVec 6) (w : Bool) (rs : List (Nat × Word)) (u : UView) (s : State) : State :=
  let s := if w then s else setVregs s u d.toNat rs
  shiftIn s u .lane (if w then none else some d.toNat) none rs

/-- A gang-pipe result. -/
def gangResult (d : BitVec 6) (w : Bool) (x : Word) (u : UView) (s : State) : State :=
  let s := if w then s else setGreg s u d.toNat x
  shiftIn s u .gang (if w then none else some d.toNat) none [(0, x)]

/-- What a lane comes to: a value, or a cause. -/
inductive LaneRes where
  | ok (x : Word)
  | bad (c : Cause)
deriving DecidableEq, Repr

def laneOks (rs : List (Nat × LaneRes)) : List (Nat × Word) :=
  rs.filterMap fun e => match e.2 with
    | .ok x => some (e.1, x)
    | .bad _ => none

def laneBads (rs : List (Nat × LaneRes)) : List (Nat × Cause) :=
  rs.filterMap fun e => match e.2 with
    | .ok _ => none
    | .bad c => some (e.1, c)

/-- The end of a lane-pipe instruction whose lanes may fail: in linear code a failure stops the unit
and no lane writes; in state code the failing lanes are parked and the others complete (R309). `fin`
writes the results of the lanes it is given, if there are any: where one fails, nothing is written or shifted. -/
def finishLanes (rs : List (Nat × LaneRes)) (fin : List (Nat × Word) → UView → State → State)
    (u : UView) (s : State) : State :=
  match leadCause (laneBads rs) with
  | none => advance (fin (laneOks rs) u s) u
  | some c =>
    if u.region.isNone || laneOks rs = [] then raiseOn c ((laneBads rs).map Prod.fst) u s
    else advance (fin (laneOks rs) u (setFailed (laneBads rs) u s)) u

end Sys2Proof.Machine
end

