-- ==== Sys2Proof/Machine/Access.lean ====
section
/-!
DEFINITION. Accesses: apertures and checks (R164–R171, R196), translation (R321–R324), the Gutter
(R200), store buffers, die views and apply queues (R218–R229), and the performing of loads, stores,
atomics and reductions.
-/
namespace Sys2Proof.Machine

/-! ## Agents and apertures -/

/-- Who makes an access. -/
structure Agent where
  core : Nat
  ctx : Nat
  gk : Option Nat
  ref : Option UnitRef
  qids : List Nat := []
  seq : Nat := 0
  pc : Word := 0
  scode : Bool := false
  /-- Its launch, where it is not a gang of it: the node and the admission unit (R165). -/
  launch : Option (Nat × Nat) := none
deriving DecidableEq, Repr

def agentOf (u : UView) : Agent :=
  { core := u.core, ctx := u.ctx, gk := u.gk, ref := some u.ref, qids := u.qids, seq := u.seq
    pc := (whereAt u).1, scode := (whereAt u).2 }

/-- Which apertures an instruction class may reach (R165). -/
inductive Reach where
  | plain | localOnly | remote | globalOnly | desc
deriving DecidableEq, Repr

/-- Where an access lands. -/
inductive Spot where
  /-- Physical address, in the agent's die view. -/
  | view (pa : Nat)
  | sp (core off : Nat)
  | eaves (die off : Nat)
  /-- A designated line: the virtual address. -/
  | line (va : Nat)
  /-- The Purlin store of a die (R174). -/
  | purlin (die off : Nat)
deriving DecidableEq, Repr

/-- What the checks of an access come to. -/
inductive AccRes where
  | ok (p : Spot)
  | bad (c : Cause)
  | wait (w : WaitOn)
  /-- The page misses translation for access types `acc`. -/
  | miss (page acc : Nat)
deriving DecidableEq, Repr

/-- A cause with an address (R307, R308): `kind` 0 read, 1 write, 2 atomic, 3 fetch. -/
def addrCause (code : Nat) (addr : Dword) (kind : Nat) : Cause :=
  { code := code, d0 := lo32 addr, d1 := hi32 addr, d2 := w32 kind }

/-- Access types as a mask: 1 read, 2 write, 4 fetch, 8 atomic; as `kind` of R308. -/
def accKind (acc : Nat) : Nat := if acc = 4 then 3 else if acc ≥ 8 then 2 else if acc = 2 then 1 else 0

/-! ## Designated regions by address -/

/-- The region of the context that contains a virtual address, with its index: a region is whole lines (R181). -/
def regionAt (s : State) (ctx va : Nat) : Option (Nat × VRegion) :=
  (sentries (ctxD s ctx).regions).find? fun e =>
    decide (e.2.base / 64 ≤ va / 64 ∧ va / 64 < (e.2.base + e.2.size) / 64)

/-! ## Translation -/

/-- A cached translation that serves an access of types `acc` (R321). A write needs D cached. -/
def tlbServes (e : Tlb) (acc : Nat) : Bool :=
  (acc % 2 = 0 || e.r) && (acc / 2 % 2 = 0 || (e.w && e.d)) && (acc / 4 % 2 = 0 || e.x)
    && (acc / 8 % 2 = 0 || (e.r && e.w && e.d))

def tlbFind (s : State) (die ctx page acc : Nat) : Option Tlb :=
  s.tlb.find? fun e => decide (e.die = die ∧ e.ctx = ctx ∧ e.page = page) && tlbServes e acc

/-- The physical address of a virtual one, when a cached translation serves. -/
def translate (s : State) (die ctx va acc : Nat) : Option Nat :=
  (tlbFind s die ctx (va / 0x10000) acc).map fun e => e.pa + va % 0x10000

/-- A refusal that the unit is about to consume for a page (R323). -/
def refusedAt (s : State) (a : Agent) (page : Nat) : Option Nat :=
  let w := match a.ref with
    | some (.grp gk gid) => ((gang? s gk).bind fun g => group? g gid).bind Group.wait
    | some (.inst id) => (inst? s id).bind Inst.wait
    | some (.xp core p) => if p = 0 then (coreOf s core).xp0.wait else (coreOf s core).xp1.wait
    | none => none
  match w with
  | some ⟨.refused p c, _⟩ => if p = page then some c else none
  | _ => none

/-- The cause of a refusal: with its level detail when an entry was malformed (R308, R321). -/
def refusalCause (c : Nat) (addr : Dword) (kind : Nat) : Cause :=
  if c / 256 = 0 then addrCause (c % 256) addr kind
  else { code := c % 256, d0 := lo32 addr, d1 := hi32 addr, d2 := w32 (0x100 + (c / 256 - 1)) }

/-- Pages that a core's filter holds (R322). -/
def filterUse (s : State) (core : Nat) : Nat :=
  ((s.walks ++ s.pageRecs).filter fun w => w.who.any fun e => e.1 = core).length

/-- A walk or record that is to serve a page of a context at a core's die. -/
def sameWalk (core ctx page : Nat) (w : Walk) : Bool :=
  decide (w.die = dieNo core ∧ w.ctx = ctx ∧ w.page = page) && !w.stale

/-- A waiter joins a walk with its access types and the accesses that it holds. -/
def joinWalk (core acc : Nat) (who : PWaiter) (n : Nat) (w : Walk) : Walk :=
  { w with acc := w.acc ||| acc
           who := (w.who.filter fun e => !decide (e.1 = core ∧ e.2.1 = who)) ++ [(core, who, n)] }

/-- A TRANSLATION MISS asks for a walk for `n` accesses (R322): it joins the walk or the record outstanding for
the page, or starts one, unless the core's filter has no room for one page more, or the die's queue none for one
walk more; then it only waits. -/
def requestWalk (core ctx page acc : Nat) (who : PWaiter) (s : State) (n : Nat := 1) : State :=
  let d := dieNo core
  let same := sameWalk core ctx page
  let held : Bool := (s.walks ++ s.pageRecs).any fun w => same w && w.who.any fun e => e.1 = core
  if !held && filterUse s core ≥ Config.filterPages then s
  else
    let join := joinWalk core acc who n
    if s.walks.any same then { s with walks := s.walks.map fun w => if same w then join w else w }
    else if s.pageRecs.any same then { s with pageRecs := s.pageRecs.map fun w => if same w then join w else w }
    else if (s.walks.filter fun w => w.die = d).length ≥ Config.dieWalks + Config.dieWalkQueue then s
    else { s with walks := s.walks ++ [{ die := d, ctx := ctx, page := page, acc := acc, who := [(core, who, n)] }] }

/-! ## The scratchpad's checks (R169–R172) -/

def tagOf (s : State) (ctx core idx : Nat) : Tag := sget {} (ccOf s ctx core).tags idx
def updTag (s : State) (ctx core idx : Nat) (f : Tag → Tag) : State :=
  updCc s ctx core fun x => { x with tags := sset {} x.tags idx (f (sget {} x.tags idx)) }

/-- (SYS.FADE_TICK − EXPIRY) mod 2^32 < 2^31 (R171). -/
def expired (s : State) (t : Tag) : Bool :=
  decide ((fadeTick s + 0x100000000 - t.expiry) % 0x100000000 < 0x80000000)

def handleOf (t : Tag) (idx : Nat) : Word := w32 (t.gen * 256 + idx)

/-- The owner of a granule: (context, index). -/
def ownerAt (s : State) (core off : Nat) : Option (Nat × Nat) :=
  match sget 0 s.owner (core * 8192 + off / 256) with
  | 0 => none
  | n + 1 => some (n / 256, n % 256)

/-- A rewrite uses the port of a core's scratchpad (R172). -/
def portBusy (s : State) (core : Nat) : Bool :=
  s.cc.any fun e => decide (e.1 % 1024 = core) && e.2.tags.any fun t => t.2.rewrite.isSome

/-- Check 4 of R196 at the target core: other accesses wait while a buffer there is rewritten (R172). -/
def spCheck (s : State) (ctx core off size : Nat) (addr : Dword) (kind : Nat) : AccRes :=
  match ownerAt s core off with
  | none => .bad { code := 0x0D, d0 := lo32 addr }
  | some (c, idx) =>
    if c ≠ ctx then .bad { code := 0x0D, d0 := lo32 addr } else
    let t := tagOf s ctx core idx
    if off + size > t.base + t.size then .bad (addrCause 0x0E addr kind)
    else if t.saved then .wait (.buffer core idx)
    else if portBusy s core then .wait (.port core)
    else if expired s t then .bad { code := 0x0F, d0 := handleOf t idx }
    else if isBad s (spLoc core off) size && kind ≠ 1 then .bad { code := 0x32, d0 := w32 off }
    else .ok (.sp core off)

/-! ## Resolving an address -/

/-- The stack slot of a lane (R167): core, home slot, native lane. -/
def stackVa (s : State) (a : Agent) (lane off : Nat) : Nat :=
  match a.gk.bind (gang? s) with
  | some g => (g.stackBase.toNat + (g.core * 1024 + g.home * 32 + (g.half * 16 + lane)) * g.stackSize + off)
      % 0x100000000000000
  | none => off

def stackSizeOf (s : State) (a : Agent) : Nat :=
  match a.gk.bind (gang? s) with
  | some g => g.stackSize
  | none => 0

/-- The launch of a gang: its node and admission unit (R295). -/
def gangLaunch (g : Gang) : Nat × Nat := (g.node, g.batch / max 1 g.cluster.length)

def launchOf (s : State) (a : Agent) : Option (Nat × Nat) := a.launch <|> (a.gk.bind (gang? s)).map gangLaunch

/-- The cores whose scratchpads an agent may reach: those that hold a batch of its launch's cluster (R165). -/
def mates (s : State) (a : Agent) : List Nat :=
  match launchOf s a with
  | some l => ((sentries s.gangs).filter fun e => e.2.ctx = a.ctx && gangLaunch e.2 = l).map fun e => e.2.core
  | none => []

/-! ## Version lists (R184, R185) -/

def lineOf (s : State) (ctx va : Nat) : Line := sget {} (ctxD s ctx).lines (va / 64)

/-- The stored version that serves a read of `n`; none where version 0 does. -/
def serving (l : Line) (n : Nat) : Option Version := (l.vers.filter fun v => decide (v.num ≤ n)).getLast?

/-- The word of a line that serves a read of `n` at an address is uncorrectable (R319). -/
def lineBad (r : VRegion) (l : Line) (va n : Nat) : Bool :=
  match serving l n with
  | some v => v.bad.contains (va % 64 / 4)
  | none => r.bad.contains (va / 4)

/-- The word of the latest version of a designated line at an address is uncorrectable. -/
def latestBadAt (s : State) (ctx va : Nat) : Bool :=
  match regionAt s ctx va with
  | some (_, r) => lineBad r (lineOf s ctx va) va (lineOf s ctx va).latest
  | none => false

/-- Cause 0x30 or 0x31 for a physical address (R307). -/
def tierCause (pa kind : Nat) : Cause :=
  { code := if pa < Config.farBase then 0x30 else 0x31, d0 := w32 pa, d1 := w32 (pa / 0x100000000), d2 := w32 kind }

/-- Checks 5 to 8 of R196 for a virtual address. -/
def vaCheck (s : State) (a : Agent) (va size acc : Nat) (addr : Dword) (versioned : Bool) : AccRes :=
  let page := va / 0x10000
  let kind := accKind acc
  match translate s (dieNo a.core) a.ctx va acc with
  | none => match refusedAt s a page with
    | some c => .bad (refusalCause c addr kind)
    | none => .miss page acc
  | some pa => match regionAt s a.ctx va with
    | none =>
      if versioned then .bad (addrCause 0x15 addr kind)
      else if acc ≠ 2 && isBad s (viewLoc (dieNo a.core) pa) size then .bad (tierCause pa kind)
      else .ok (.view pa)
    | some (_, r) =>
      if versioned then .ok (.line va)
      else if acc ≠ 1 && acc ≠ 4 then .bad (addrCause 0x0A addr kind)
      else if lineBad r (lineOf s a.ctx va) va (lineOf s a.ctx va).latest then .bad (tierCause pa kind)
      else .ok (.line va)

/-- The Eaves page of an address is held by the context (R177). -/
def eavesHeld (s : State) (ctx off : Nat) : Bool := (ctxD s ctx).eaves.getLsbD (off / 0x1000)

/-- THE CHECKS OF AN ACCESS in the order of R196, for a lane: aperture and reach, alignment, stack
bound, scratchpad, translation, designation, data. -/
def resolve (s : State) (a : Agent) (reach : Reach) (lane : Nat) (addr : Dword) (size acc : Nat)
    (versioned : Bool := false) : AccRes :=
  let n := addr.toNat
  let top := n / 0x1000000000000
  let low := n % 0x1000000000000
  let kind := accKind acc
  let miss : AccRes := .bad (addrCause 0x08 addr kind)
  let mis : AccRes := .bad (addrCause 0x07 addr kind)
  let aligned : Bool := decide (n % size = 0)
  if top ≤ 0xFF then
    if reach = .localOnly || reach = .remote then miss
    else if !aligned then mis
    else vaCheck s a n size acc addr versioned
  else if top = 0xFF00 then
    if reach = .remote || reach = .globalOnly || low ≥ 0x180000 then miss
    else if !aligned then mis
    else spCheck s a.ctx a.core low size addr kind
  else if top = 0xFF01 then
    if !(reach = .remote || reach = .desc) || low / 0x1000000 ≠ 0 || low % 0x200000 ≥ 0x180000 then miss
    else if !aligned then mis
    else
      let t := a.core / 8 * 8 + low / 0x200000 % 8
      if t ≠ a.core && !(mates s a).contains t then .bad { code := 0x38, d0 := w32 (low / 0x200000 % 8) }
      else spCheck s a.ctx t (low % 0x200000) size addr kind
  else if top = 0xFF02 then
    if reach ≠ .plain then miss
    else if !aligned then mis
    else if low ≥ stackSizeOf s a then .bad { code := 0x0C, d0 := w32 low }
    else vaCheck s a (stackVa s a lane low) size acc addr versioned
  else if top = 0xFF03 then
    if !(reach = .plain || reach = .desc) || low / 0x80000 ≠ 0 || !eavesHeld s a.ctx (low % 0x10000) then miss
    else if !aligned then mis
    else .ok (.eaves (low / 0x10000) (low % 0x10000))
  else miss

/-- The address to compare accesses by: the stack carried to the global window (R167), and the issuing core's
place in the remote window to its local aperture (R204). -/
def canon (s : State) (a : Agent) (lane : Nat) (addr : Dword) : Nat :=
  let n := addr.toNat
  let low := n % 0x1000000000000
  if n / 0x1000000000000 = 0xFF02 then stackVa s a lane low
  else if n / 0x1000000000000 = 0xFF01 ∧ low / 0x200000 = a.core % 8 then 0xFF00000000000000 + low % 0x200000
  else n

/-- The buffer that a scratchpad access of the local aperture reaches, as (index, generation) (R208). -/
def bufAt (s : State) (a : Agent) (addr : Dword) : Option (Nat × Nat) :=
  if addr.toNat / 0x1000000000000 ≠ 0xFF00 then none
  else (ownerAt s a.core (addr.toNat % 0x1000000000000)).bind fun o =>
    if o.1 = a.ctx then some (o.2, (tagOf s a.ctx a.core o.2).gen) else none

/-- The buffer of an access has been freed since it issued (R208). -/
def bufGone (s : State) (a : Agent) (x : Access) : Bool := x.buf.isSome && bufAt s a x.addr ≠ x.buf

/-! ## Classes (R197) -/

/-- Class bits: LD 1, ST 2, AT 4, VER 8, ENG 16, SP 32. -/
def classOf (addr : Dword) (op : AccOp) : Nat :=
  let sp := decide (0xFF00 ≤ addr.toNat / 0x1000000000000 ∧ addr.toNat / 0x1000000000000 ≤ 0xFF01)
  match op with
  | .load _ _ => if sp then 32 else 1
  | .store _ _ => if sp then 32 else 2
  | .atom _ _ _ => if sp then 36 else 4
  | .redm _ _ => if sp then 36 else 4
  | .latest => 8

def opSize : AccOp → Nat
  | .load n _ => n
  | .store n _ => n
  | .atom _ _ _ => 4
  | .redm _ _ => 4
  | .latest => 4

/-- The access types an operation needs. -/
def opAcc : AccOp → Nat
  | .load _ _ => 1
  | .store _ _ => 2
  | .atom _ _ _ => 8
  | .redm _ _ => 8
  | .latest => 1

def isEaves (addr : Dword) : Bool := decide (addr.toNat / 0x1000000000000 = 0xFF03)

/-! ## Die views (R224–R227) -/

/-- A write applied in a die's own view: it always takes effect there (R225). -/
def applyOwn (d key ek : Nat) (bytes : List (Nat × Byte)) (s : State) : State :=
  let s := clearBadKeys s (bytes.map fun e => viewLoc d e.1)
  { (writeBytes s (bytes.map fun e => (viewLoc d e.1, e.2))) with
    keys := ssets 0 s.keys (bytes.map fun e => (viewLoc d e.1, key))
    enc := ssets 0 s.enc (bytes.map fun e => (viewLoc d e.1, ek)) }

/-- The data key of a context (R166, R368); 0 where it holds none. -/
def dataKey (s : State) (ctx : Nat) : Nat := (ctxD s ctx).key

/-- A byte of a die view as a reader with data key `ek` sees it (R166). -/
def viewByte (s : State) (ek loc : Nat) : Byte :=
  let k := sget 0 s.enc loc
  if k = 0 ∨ k = ek then readByte s loc else Config.wrongKey ek k loc (readByte s loc)

/-- `n` bytes of a die view as a context sees them. -/
def viewBytes (s : State) (ctx loc n : Nat) : List Byte := (List.range n).map fun i => viewByte s (dataKey s ctx) (loc + i)

/-- What a `Pub` remembers of the access that made the write. -/
structure Origin where
  gk : Option Nat := none
  qid : Nat := 0
  seq : Nat := 0
  ctx : Nat := 0
  at_ : Bool := false
  xp : Option (Nat × Nat × Nat) := none
  msg : Option Nat := none
deriving DecidableEq, Repr

/-- A WRITE ORIGINATES AT DIE `d` (R225): the die's own counter rises, the write takes the stamp and
the key, is applied in d's view, and joins the apply queue of every other die. -/
def originate (d : Nat) (bytes : List (Nat × Byte)) (o : Origin) (s : State) : State :=
  let c := (dieOf s d).clock
  let c := lset c d (c.getD d 0 + 1)
  let key := c.foldl (· + ·) 0 * 8 + d
  let s := updDie s d fun x => { x with clock := c }
  let ek := dataKey s o.ctx
  let s := applyOwn d key ek bytes s
  let id := s.next
  let pubs := ((List.range Config.dies).filter (· ≠ d)).map fun e =>
    ({ into := e, id := id, origin := d, stamp := c, key := key, bytes := bytes, gk := o.gk, qid := o.qid
       seq := o.seq, ctx := o.ctx, at_ := o.at_, xp := o.xp, msg := o.msg, ek := ek } : Pub)
  { taken s with pubs := s.pubs ++ pubs }

/-- Whether die `e` may take write `w` (R226). -/
def mayTake (s : State) (w : Pub) : Bool :=
  let c := (dieOf s w.into).clock
  decide (w.stamp.getD w.origin 0 = c.getD w.origin 0 + 1)
    && (List.range Config.dies).all fun k => k = w.origin || decide (w.stamp.getD k 0 ≤ c.getD k 0)

/-- A die takes a write from its apply queue (R226): a byte is replaced where the write's key exceeds
the key of the write that set it. -/
def take (w : Pub) (s : State) : State :=
  let s := updDie s w.into fun x => { x with clock := lset x.clock w.origin (w.stamp.getD w.origin 0) }
  let won := w.bytes.filter fun e => decide (w.key > keyAt s (viewLoc w.into e.1))
  let s := applyOwn w.into w.key w.ek won s
  { s with pubs := s.pubs.filter fun p => !(decide (p.into = w.into ∧ p.id = w.id)) }

/-! ## Version lists: reading (R185, R187) -/

/-- Version 0 of a line, as captured at designation (R183, R184). -/
def zeroBytes (r : VRegion) (line : Nat) : List Byte :=
  (List.range 64).map fun i => sget 0#8 r.zero (line * 64 + i)

/-- The bytes that serve a read of version `n` of a line (R185). -/
def versionBytes (r : VRegion) (l : Line) (line n : Nat) : List Byte :=
  match serving l n with
  | some v => v.bytes
  | none => zeroBytes r line

/-- The bytes of a line's latest version (R187). -/
def latestBytes (s : State) (ctx va : Nat) : List Byte :=
  match regionAt s ctx va with
  | some (_, r) => versionBytes r (lineOf s ctx va) (va / 64) (lineOf s ctx va).latest
  | none => []

/-! ## Performing accesses (R221, R222) -/

/-- A store-buffer entry that a load of a gang may read: one of its own gang's that is no younger in the load's
own queue, `q` naming the queue numbers and the load's place in it (R222). -/
def mayForward (core : Nat) (gk : Option Nat) (q : List Nat × Nat) (e : SbEntry) : Bool :=
  decide (e.core = core ∧ e.gk = gk) && !(q.1.contains e.qid && decide (q.2 ≤ e.seq))

/-- A byte of a die view as a gang's load sees it: from the youngest entry of its own gang's store
buffer that writes it and is older than the load, else from the view (R222). -/
def forwardByte (s : State) (core ek : Nat) (gk : Option Nat) (q : List Nat × Nat) (pa : Nat) : Byte :=
  match gk with
  | none => viewByte s ek (viewLoc (dieNo core) pa)
  | some _ =>
    match (s.sb.reverse.filter (mayForward core gk q)).findSome? fun e => slook e.bytes pa with
    | some b => b
    | none => viewByte s ek (viewLoc (dieNo core) pa)

/-- The bytes at a spot. -/
def spotBytes (s : State) (core ctx : Nat) (gk : Option Nat) (p : Spot) (n : Nat) (q : List Nat × Nat := ([], 0)) : List Byte :=
  match p with
  | .view pa => (List.range n).map fun i => forwardByte s core (dataKey s ctx) gk q (pa + i)
  | .sp c off => readBytes s (spLoc c off) n
  | .eaves d off => readBytes s (eavesLoc d off) n
  | .line va => ((latestBytes s ctx va).drop (va % 64)).take n
  | .purlin d off => readBytes s (purlinLoc d off) n

/-- A loaded value, extended (R198). -/
def extend (size : Nat) (signed : Bool) (bs : List Byte) : Word :=
  let v := leNat bs
  if signed && size = 2 && v ≥ 0x8000 then w32 (v + 0xFFFF0000) else w32 v

/-- The new word of an ATOM by its opcode (R202). -/
def atomNew (op : Nat) (old a b : Word) : Word :=
  match op with
  | 0x90 => old + a
  | 0x91 => old &&& a
  | 0x92 => old ||| a
  | 0x93 => old ^^^ a
  | 0x94 => if old.slt a then old else a
  | 0x95 => if old.slt a then a else old
  | 0x96 => if old.ult a then old else a
  | 0x97 => if old.ult a then a else old
  | 0x98 => a
  | _ => if old = a then b else old

/-- Where memory holds a spot that is no die view. -/
def spotLoc (p : Spot) : Option Nat :=
  match p with
  | .sp c off => some (spLoc c off)
  | .eaves d off => some (eavesLoc d off)
  | .purlin d off => some (purlinLoc d off)
  | _ => none

/-- Bytes written at a spot that is no die view: those whose offsets are kept. -/
def storeSpot (p : Spot) (bs : List Byte) (s : State) (keep : Nat → Bool := fun _ => true) : State :=
  match spotLoc p with
  | some loc =>
    let kvs := (placed loc bs).filter fun e => keep (e.1 - loc)
    writeBytes (clearBadKeys s (kvs.map Prod.fst)) kvs
  | none => s

/-- The die that is home to a physical address (R227): bits 10:8. -/
def homeDie (pa : Nat) : Nat := pa / 256 % 8

end Sys2Proof.Machine
end

