-- ==== Sys2Proof/Machine/Operands.lean ====
section
/-!
DEFINITION. The operand shapes of the compute words (R57–R63, R86, R136): which fields are read and
written, and how an instruction that computes one value per lane, or one for the gang, ends.
-/
namespace Sys2Proof.Machine

/-- IMM6 as a signed 32-bit value (R57, R88). -/
def imm6 (f : BitVec 6) : Word := f.signExtend 32

/-- A non-negative shift count in IMM6 (R88). -/
def countOk (f : BitVec 6) : Bool := !f.getLsbD 5

/-- The needs of the shapes of R86 and R150. -/
def need3 (p : Pipe) (o : O3) : Need :=
  { pipe := p, strand := o.s, dst := some o.d, w := o.w, srcs := [o.a, o.b] }
def needT (p : Pipe) (o : O3) : Need :=
  { pipe := p, strand := o.s, dst := some o.d, w := o.w, readsD := true, srcs := [o.d, o.a, o.b] }
def needI (p : Pipe) (o : O3) : Need :=
  { pipe := p, strand := o.s, dst := some o.d, w := o.w, srcs := [o.a] }
def need2 (p : Pipe) (o : O2) : Need :=
  { pipe := p, strand := o.s, dst := some o.d, w := o.w, srcs := [o.a] }

/-- An instruction that computes D from its sources: `f` reads the fields of one lane, or of the
gang. -/
def computes (i : Instr) (n : Need) (d : BitVec 6) (f : (BitVec 6 → Word) → Word) (s : State) : Out :=
  issue i n (fun u acts s => match n.pipe with
    | .lane => advance (laneResult d n.w (acts.map fun l => (l, f fun x => vsrc s u x l)) u s) u
    | .gang => advance (gangResult d n.w (f fun x => gsrc s u x) u s) u) s

/-- Binary shape (R86). -/
def binary (i : Instr) (p : Pipe) (o : O3) (f : Word → Word → Word) (s : State) : Out :=
  computes i (need3 p o) o.d (fun rd => f (rd o.a) (rd o.b)) s

/-- Immediate shape. -/
def immediate (i : Instr) (p : Pipe) (o : O3) (f : Word → Word → Word) (s : State) : Out :=
  computes i (needI p o) o.d (fun rd => f (rd o.a) (imm6 o.b)) s

/-- Immediate shape of a shift or rotate: the count lies in 0–31 or cause 0x05 (R88). -/
def shiftImm (i : Instr) (p : Pipe) (o : O3) (f : Word → Word → Word) (s : State) : Out :=
  computes i { needI p o with limits := countOk o.b } o.d (fun rd => f (rd o.a) (imm6 o.b)) s

/-- Ternary shape: D is read as the third input. -/
def ternary (i : Instr) (p : Pipe) (o : O3) (f : Word → Word → Word → Word) (s : State) : Out :=
  computes i (needT p o) o.d (fun rd => f (rd o.d) (rd o.a) (rd o.b)) s

/-- Unary shape. -/
def unary (i : Instr) (p : Pipe) (o : O2) (f : Word → Word) (s : State) : Out :=
  computes i (need2 p o) o.d (fun rd => f (rd o.a)) s

end Sys2Proof.Machine
end

