-- ==== Sys2Proof/Machine/Flags.lean ====
section
/-!
DEFINITION. Float exceptions: SYS.FP_STAT, the enables of SYS.FP_CTL, and the shadow check (R146–R148,
R158, R159).
-/
namespace Sys2Proof.Machine

/-- Flags ORed into the gang's SYS.FP_STAT (R146). -/
def setFlags (fl : Nat) (u : UView) (s : State) : State :=
  if fl = 0 then s else
  match u.gk with
  | some gk => updGang s gk fun g => { g with fpStat := g.fpStat ||| w32 fl }
  | none => s

/-- SYS.FP_CTL as the unit's gang holds it. -/
def fpCtlOf (s : State) (u : UView) : Word :=
  match u.gk.bind (gang? s) with
  | some g => g.fpCtl
  | none => 0

/-- What a lane's operation comes to: its value, or the enabled exception it signals, or a shadow
difference (R148, R159). -/
def laneFloat (ctl : Word) (shadow : Bool) (x : Word) (fl : FFlags) : LaneRes :=
  if shadow then .bad { code := 0x22 }
  else if ctl.getLsbD 1 && fl / 4 % 2 = 1 then .bad { code := 0x21 }
  else if ctl.getLsbD 0 && fl % 2 = 1 then .bad { code := 0x20 }
  else .ok x

/-- The flags of every acting lane together; a lane whose shadow differs sets none. -/
def orFlags (xs : List FFlags) : FFlags := xs.foldl (· ||| ·) 0

/-- A float instruction's lanes: flags first, then results or causes (R146–R148, R158, R159). `f`
gives one lane's bits and flags; `checked` says as what kind of result the shadow checks it, if it does. -/
def floats (i : Instr) (n : Need) (d : BitVec 6) (checked : Option ResFmt)
    (f : (BitVec 6 → Word) → Word × FFlags) (s : State) : Out :=
  issue i n (fun u acts s =>
    let rs := acts.map fun l => (l, f fun x => vsrc s u x l)
    let bad (e : Nat × Word × FFlags) : Bool := match checked with
      | some k => shadowFails s.shadow k e.1 e.2.1
      | none => false
    let ctl := fpCtlOf s u
    let out := rs.map fun e => (e.1, laneFloat ctl (bad e) e.2.1 e.2.2)
    let s := setFlags (orFlags (rs.map fun e => if bad e then 0 else e.2.2)) u s
    let s := if checked.isSome then { s with shadow := [] } else s
    finishLanes out (laneResult d n.w) u s) s

end Sys2Proof.Machine
end

