-- ==== Sys2Proof/Machine/CrossLane.lean ====
section
/-!
DEFINITION. Cross-lane instructions, lane pipe 0x70–0x79 (R111–R117).
-/
namespace Sys2Proof.Machine

/-- The mask of a list of lanes. -/
def maskOf (ls : List Nat) : Word := ls.foldl (fun m l => m ||| (1#32 <<< l)) 0

/-- The lane positions: 32, or 16 in legacy-width mode (R111). -/
def positions (s : State) : Nat :=
  match unitView s with
  | some u => u.width
  | none => 32

/-- BALLOT (R113). -/
def execBallot (o : O3) (s : State) : Out :=
  issue (.ballot o) (needI .lane o)
    (fun u acts s =>
      let m := maskOf (acts.filter fun l => vsrc s u o.a l ≠ 0)
      let s := laneResult o.d o.w (acts.map fun l => (l, m)) u s
      advance (if o.b.getLsbD 5 then setQreg s u (o.b.toNat % 8) m else s) u) s

/-- The lane that a lane of SHFL reads: `src n lane k` names it (R114). -/
def shuffleLane (b : BitVec 6) (src : Nat → Nat → Nat → Nat) (s : State) (u : UView) (l : Nat) : Nat :=
  src u.width l ((vsrc s u b l).toNat % u.width)

/-- What SHFL needs: B in its own lane, A in the source lane. -/
def needShuffle (o : O3) (src : Nat → Nat → Nat → Nat) : Need :=
  { needI .lane o with srcs := [o.b], other := some (o.a, shuffleLane o.b src) }

/-- SHFL (R114). A gang of fewer than eight threads shuffles over its 32 or 16 positions like any other: a position
without a thread gives the v register it holds (log entry 95). -/
def shuffle (i : Instr) (o : O3) (src : Nat → Nat → Nat → Nat) (s : State) : Out :=
  issue i (needShuffle o src)
    (fun u acts s =>
      advance (laneResult o.d o.w (acts.map fun l => (l, vsrc s u o.a (shuffleLane o.b src s u l))) u s) u) s

def execShflIdx (o : O3) (s : State) : Out := shuffle (.shflIdx o) o (fun _ _ k => k) s
def execShflXor (o : O3) (s : State) : Out := shuffle (.shflXor o) o (fun _ l k => l ^^^ k) s
def execShflUp (o : O3) (s : State) : Out :=
  shuffle (.shflUp o) o (fun _ l k => if k ≤ l then l - k else l) s
def execShflDown (o : O3) (s : State) : Out :=
  shuffle (.shflDown o) o (fun n l k => if l + k ≤ n - 1 then l + k else l) s

/-! ## Reductions and scans (R115) -/

/-- The combination that a selector names, with its flags. -/
def combine (e : Nat) (a b : Word) : Word × FFlags :=
  match e with
  | 0 => (a + b, 0)
  | 1 => (if b.slt a then b else a, 0)
  | 2 => (if a.slt b then b else a, 0)
  | 3 => (if b.ult a then b else a, 0)
  | 4 => (if a.ult b then b else a, 0)
  | 5 => (a &&& b, 0)
  | 6 => (a ||| b, 0)
  | 7 => (a ^^^ b, 0)
  | 8 => let r := fAdd f32 (unpack f32 a.toNat) (unpack f32 b.toNat); (w32 r.1, r.2)
  | 9 => let r := fMinMax f32 false a.toNat b.toNat; (w32 r.1, r.2)
  | _ => let r := fMinMax f32 true a.toNat b.toNat; (w32 r.1, r.2)

def identityOf (e : Nat) : Word :=
  match e with
  | 1 => 0x7FFFFFFF
  | 2 => 0x80000000
  | 3 => 0xFFFFFFFF
  | 5 => 0xFFFFFFFF
  | 8 => 0x80000000
  | 9 => 0x7F800000
  | 10 => 0xFF800000
  | _ => 0

/-- One level of XRED's tree: the nodes, and the flags of its steps. -/
def redLevel (e : Nat) : List (Option Word) → List (Option Word) × List FFlags
  | some a :: some b :: l =>
    let r := combine e a b
    let t := redLevel e l
    (some r.1 :: t.1, r.2 :: t.2)
  | some a :: none :: l => let t := redLevel e l; (some a :: t.1, t.2)
  | none :: x :: l => let t := redLevel e l; (x :: t.1, t.2)
  | l => (l, [])

/-- All levels: the single node, and every step's flags. -/
def redTree (e : Nat) : Nat → List (Option Word) → Word × List FFlags
  | 0, l => (((l.head?).bind id).getD 0, [])
  | n + 1, l =>
    let r := redLevel e l
    let t := redTree e n r.1
    (t.1, r.2 ++ t.2)

/-- XSCAN's inclusive prefixes: per acting lane the prefix before it, its own, and the flags of the
steps that each includes. -/
def scanFrom (e : Nat) : Option (Word × FFlags) → List (Nat × Word) →
    List (Nat × (Word × FFlags) × Word × FFlags)
  | _, [] => []
  | none, (l, x) :: t => (l, (identityOf e, 0), x, 0) :: scanFrom e (some (x, 0)) t
  | some p, (l, x) :: t =>
    let r := combine e p.1 x
    let q := (r.1, p.2 ||| r.2)
    (l, p, q) :: scanFrom e (some q) t

/-- The end of a reduction or scan: flags of every step, then each lane's value or cause. The shadow of a step is
checked in each lane that is listed, against what the lane comes to; a lane that differs sets no flag (log entry 94). -/
def combined (isFloat : Bool) (fl : FFlags) (d : BitVec 6) (w : Bool) (rs : List (Nat × Word × FFlags))
    (u : UView) (s : State) : State :=
  if isFloat then
    let ctl := fpCtlOf s u
    let bad (e : Nat × Word × FFlags) : Bool := shadowFails s.shadow (.float f32) e.1 e.2.1
    let out := rs.map fun e => (e.1, laneFloat ctl (bad e) e.2.1 e.2.2)
    let fl := if rs.any bad then orFlags ((rs.filter fun e => !bad e).map fun e => e.2.2) else fl
    finishLanes out (laneResult d w) u (setFlags fl u { s with shadow := [] })
  else advance (laneResult d w (rs.map fun e => (e.1, e.2.1)) u s) u

def execXred (o : O2) (e : BitVec 5) (s : State) : Out :=
  issue (.xred o e) (need2 .lane o)
    (fun u acts s =>
      let nodes := (List.range u.width).map fun j => if acts.contains j then some (vsrc s u o.a j) else none
      let r := redTree e.toNat (if u.legacy then 4 else 5) nodes
      combined (e.toNat ≥ 8) (orFlags r.2) o.d o.w (acts.map fun l => (l, r.1, orFlags r.2)) u s) s

def execXscan (o : O2) (x : Bool) (e : BitVec 5) (s : State) : Out :=
  issue (.xscan o x e) (need2 .lane o)
    (fun u acts s =>
      let rs := scanFrom e.toNat none (acts.map fun l => (l, vsrc s u o.a l))
      combined (e.toNat ≥ 8) (orFlags (rs.map fun r => r.2.2.2)) o.d o.w
        (rs.map fun r => (r.1, if x then r.2.1 else r.2.2)) u s) s

/-! ## Intersection, matching, broadcast (R116, R117) -/

def sentinel : Word := 0xFFFFFFFF

/-- The highest element that is not the sentinel. -/
def lastOf (l : List Word) : Word := ((l.filter (· ≠ sentinel)).getLast?).getD sentinel

/-- How many elements lie at or below `m`. -/
def upTo (m : Word) (l : List Word) : Word := w32 (l.filter fun x => decide (x ≠ sentinel) && !m.ult x).length

/-- The lowest position that holds `x`. -/
def lowestOf (l : List Word) (x : Word) : Word :=
  match l.findIdx? (· = x) with
  | some j => w32 j
  | none => sentinel

/-- A gang register written beside a lane result: older gang latches forget it (R111, R119, R129). -/
def setGregAside (u : UView) (r : Nat) (x : Word) (s : State) : State :=
  setLatches (setGreg s u r x) u .gang (dropReg (latches s u .gang) r)

def execIsect (o : O3n) (s : State) : Out :=
  issue (.isect o)
    { pipe := .lane, strand := o.s, dst := some o.d, srcs := [o.a, o.b], limits := o.d.toNat < 58
      more := [o.d.toNat, o.d.toNat + 1] }
    (fun u acts s =>
      let col (f : BitVec 6) : List Word := (List.range u.width).map fun j =>
        if acts.contains j then vsrc s u f j else sentinel
      let a := col o.a
      let b := col o.b
      let m := if (lastOf b).ult (lastOf a) then lastOf b else lastOf a
      let rs := acts.map fun l =>
        (l, if a.getD l sentinel = sentinel then sentinel else lowestOf b (a.getD l sentinel))
      let s := laneResult o.d false rs u s
      advance (setGregAside u (o.d.toNat + 1) (upTo m b) (setGregAside u o.d.toNat (upTo m a) s)) u) s

def execMatchL (o : O2) (s : State) : Out :=
  issue (.matchL o) (need2 .lane o)
    (fun u acts s =>
      advance (laneResult o.d o.w (acts.map fun l =>
        (l, maskOf (acts.filter fun j => vsrc s u o.a j = vsrc s u o.a l))) u s) u) s

/-- What BCAST needs: A in lane n. -/
def needBcast (o : O3) (s : State) : Need :=
  { needI .lane o with srcs := [], other := some (o.a, fun _ _ _ => o.b.toNat), limits := o.b.toNat < positions s }

def execBcast (o : O3) (s : State) : Out :=
  issue (.bcast o) (needBcast o s)
    (fun u acts s =>
      advance (laneResult o.d o.w (acts.map fun l => (l, vsrc s u o.a o.b.toNat)) u s) u) s

end Sys2Proof.Machine
end

