-- ==== Sys2Proof/Machine/Perform.lean ====
section
/-!
DEFINITION. Issue queues (R220–R223), the performing of accesses (R199, R202, R203), results that
arrive later, completion and FENCE (R228, R229), and late failures (R375).
-/
namespace Sys2Proof.Machine

/-! ## Order within a queue (R220) -/

def overlaps (a n b m : Nat) : Bool := decide (a < b + m ∧ b < a + n)

/-- The accesses that a queue entry has yet to perform. -/
def QueueOp.rows : QueueOp → List Access
  | .accesses xs => xs
  | .stv _ xs _ => xs
  | _ => []

/-- An operation of R193 at a version list: two of one line keep their order. -/
def isVersioned (op : QueueOp) (x : Access) : Bool :=
  match op, x.op with
  | .stv _ _ _, _ => true
  | _, .latest => true
  | _, _ => false

/-- Classes of a queue entry (R197). -/
def entryClass (op : QueueOp) : Nat :=
  match op with
  | .accesses xs => xs.foldl (fun m x => m ||| classOf x.addr x.op) 0
  | .stv _ _ _ => 8
  | .dfa _ _ => 32
  | _ => 0

/-- An entry is older than an agent's instruction, in its own queue. -/
def olderEntry (a : Agent) (e : QEntry) : Bool := a.qids.contains e.qid && decide (e.seq < a.seq)

/-- An older entry of the queue, or a FENCE, stands before these accesses, which `op` makes (R220, limits 1 to
4); the entries of a walk not yet complete may lie anywhere in the scratchpad. -/
def blocked (s : State) (a : Agent) (op : QueueOp) : Bool :=
  s.queue.any fun e => olderEntry a e && (match e.op with
    | .fence _ succ _ => entryClass op &&& succ ≠ 0
    | .arrive _ => false
    | .dfa _ _ => entryClass op &&& 32 ≠ 0
    | eop => eop.rows.any fun y => op.rows.any fun x =>
        overlaps (canon s a y.lane y.addr) (opSize y.op) (canon s a x.lane x.addr) (opSize x.op)
          || (isEaves x.addr && isEaves y.addr)
          || (isVersioned op x && isVersioned eop y
            && decide (canon s a x.lane x.addr / 64 = canon s a y.lane y.addr / 64)))

/-- Older accesses of classes `cls` or a FENCE to them, for instructions that are no plain access. -/
def fenced (s : State) (a : Agent) (cls : Nat) : Bool :=
  s.queue.any fun e => olderEntry a e && (match e.op with
    | .fence _ succ _ => cls &&& succ ≠ 0
    | _ => false)

/-- The unit's queue holds an entry. -/
def queued (s : State) (qids : List Nat) : Bool := s.queue.any fun e => qids.contains e.qid

/-! ## The Gutter (R200) -/

def gutterUse (s : State) (core : Nat) : Nat := (s.gutter.filter fun e => e.core = core).length

/-- The gang has a Gutter entry for the 64-byte line of a virtual address, no younger than its access in the same
queue. -/
def gutterHas (s : State) (a : Agent) (va : Nat) : Bool :=
  s.gutter.any fun e => decide (e.core = a.core ∧ e.ctx = a.ctx ∧ e.gk = a.gk ∧ e.addr.toNat / 64 = va / 64)
    && !(a.qids.contains e.qid && decide (a.seq < e.seq))

/-- A store or reduction retires into the Gutter, and its page is asked for; the lanes `lanes` raise its cause. -/
def gutterPush (a : Agent) (x : Access) (lanes : List Nat) (s : State) : State :=
  let va := canon s a x.lane x.addr
  let e : GutterEntry :=
    { id := s.next, core := a.core, ctx := a.ctx, gk := a.gk, qid := a.qids.headD 0, seq := a.seq
      addr := BitVec.ofNat 64 va, lane := x.lane, op := x.op, pc := a.pc, scode := a.scode, mask := x.mask
      lanes := lanes }
  requestWalk a.core a.ctx (va / 0x10000) (opAcc x.op) (.gutter s.next)
    { taken s with gutter := s.gutter ++ [e] }

/-! ## The lanes of one instruction (R199, R203) -/

/-- op of RED.M by opcode (R203). Float adds set no flag here. -/
def redmNew (op : Nat) (old u : Word) : Word :=
  match op with
  | 0x9A => old + u
  | 0x9B => w32 (fAdd f32 (unpack f32 old.toNat) (unpack f32 u.toNat)).1
  | 0x9C => if u.slt old then u else old
  | 0x9D => if old.slt u then u else old
  | 0x9E => if u.ult old then u else old
  | _ => if old.ult u then u else old

/-- Where an access lies, for the rules that compare the lanes of one instruction. -/
abbrev Placed := Access × Nat

/-- The bytes of a store that no later lane of the list writes (R199). -/
def keptBytes (x : Placed) (later : List Placed) : List Nat :=
  x.1.mask.filter fun i => !later.any fun y => decide (y.2 ≤ x.2 + i ∧ x.2 + i < y.2 + opSize y.1.op)

/-- The stores of one instruction, each with the bytes that it writes: the highest lane's wins (R199). -/
def maskStores : List Placed → List Access
  | [] => []
  | x :: l => { x.1 with mask := keptBytes x l } :: maskStores l

/-- The left fold of the lanes with one address (R149, R203), as one reduction. -/
def foldLanes (op : Nat) : List Placed → Option Access
  | [] => none
  | x :: l => some (l.foldl (fun a y => match a.op, y.1.op with
      | .redm _ v, .redm _ u => { a with op := .redm op (redmNew op v u), lanes := a.lanes ++ [y.1.lane] }
      | _, _ => a) { x.1 with lanes := [x.1.lane] })

/-- The distinct numbers of a list, in order. -/
def distinct : List Nat → List Nat
  | [] => []
  | x :: l => x :: (distinct l).filter (· ≠ x)

/-- The reductions of one instruction: one for each distinct address (R203). -/
def foldReds (op : Nat) (xs : List Placed) : List Access :=
  (distinct (xs.map Prod.snd)).filterMap fun p => foldLanes op (xs.filter fun x => x.2 = p)

/-- The accesses that one instruction sends out, given its lanes in ascending order. -/
def combineLanes (s : State) (a : Agent) (xs : List Access) : List Access :=
  let ps : List Placed := xs.map fun x => (x, canon s a x.lane x.addr)
  match xs.head?.map Access.op with
  | some (.store _ _) => maskStores ps
  | some (.redm op _) => foldReds op ps
  | _ => xs

/-! ## Performing -/

/-- The new word of an atomic or reduction. -/
def updated (op : AccOp) (old : Word) : Word :=
  match op with
  | .atom o a b => atomNew o old a b
  | .redm o u => redmNew o old u
  | _ => old

/-- An atomic or reduction is sent to the home of its word (R221, R227). -/
def sendHome (a : Agent) (entry : Option Nat) (order : Nat) (x : Access) (pa : Nat) (s : State) : State :=
  { taken s with homeq := s.homeq ++ [
    { id := s.next, home := homeDie pa, pa := pa, op := x.op, lanes := if x.lanes = [] then [x.lane] else x.lanes
      lane := x.lane, unit := a.ref, ctx := a.ctx, core := a.core, gk := a.gk, qid := a.qids.headD 0,
      seq := a.seq, entry := entry, pc := a.pc, scode := a.scode, order := order }] }

/-- A word at a spot that is no die view. -/
def spotWord (s : State) (p : Spot) : Word :=
  match spotLoc p with
  | some loc => readWord s loc
  | none => 0

/-- An atomic at a scratchpad or Eaves word: the old value, and the new one stored. -/
def atomSpot (op : AccOp) (p : Spot) (s : State) : Word × State :=
  let old := spotWord s p
  (old, storeSpot p (natLe 4 (updated op old).toNat) s)

/-- A store: of its bytes, those in its mask enter the store buffer, or are applied at the spot (R221). -/
def performStore (a : Agent) (x : Access) (p : Spot) (s : State) : State :=
  let bs := match x.op with
    | .store n d => natLe n d.toNat
    | _ => []
  match p with
  | .view pa =>
    let kept := (placed pa bs).filter fun b => x.mask.contains (b.1 - pa)
    if kept = [] then s
    else { taken s with sb := s.sb ++ [{ id := s.next, core := a.core, ctx := a.ctx, gk := a.gk
                                         qid := a.qids.headD 0, seq := a.seq, bytes := kept }] }
  | _ => storeSpot p bs s x.mask.contains

/-- Stores of one instruction, whose masks leave each byte to one lane. -/
def performStores (a : Agent) (xs : List (Access × Spot)) (s : State) : State :=
  xs.foldl (fun s e => performStore a e.1 e.2 s) s

/-- Atomics of one instruction, in ascending lane order: the old values known at once, and the state
(R202). -/
def performAtoms (a : Agent) (entry : Nat) : Nat → List (Access × Spot) → State → List (Nat × Word) × State
  | _, [], s => ([], s)
  | k, (x, p) :: l, s =>
    match p with
    | .view pa => performAtoms a entry (k + 1) l (sendHome a (some entry) k x pa s)
    | _ =>
      let r := atomSpot x.op p s
      let q := performAtoms a entry (k + 1) l r.2
      ((x.lane, r.1) :: q.1, q.2)

/-- Reductions of one instruction, folded (R203). -/
def performReds (a : Agent) (xs : List (Access × Spot)) (s : State) : State :=
  xs.foldl (fun s e => match e.2 with
    | .view pa => sendHome a none 0 e.1 pa s
    | p => (atomSpot e.1.op p s).2) s

/-- The value of a load at its spot, or LATEST of its line. -/
def loadValue (s : State) (a : Agent) (x : Access) (p : Spot) : Word :=
  match x.op, p with
  | .load n sg, _ => extend n sg (spotBytes s a.core a.ctx a.gk p n (a.qids, a.seq))
  | .latest, .line va => w32 (lineOf s a.ctx va).latest
  | _, _ => 0

/-- PERFORMING the accesses of one instruction, combined, or some lanes of a load (R221): the values known at
once, and the state. Every access of the list is of one kind. -/
def performAll (a : Agent) (entry : Nat) (xs : List (Access × Spot)) (s : State) : List (Nat × Word) × State :=
  match xs with
  | [] => ([], s)
  | (x, _) :: _ => match x.op with
    | .load _ _ => (xs.map fun e => (e.1.lane, loadValue s a e.1 e.2), s)
    | .latest => (xs.map fun e => (e.1.lane, loadValue s a e.1 e.2), s)
    | .store _ _ => ([], performStores a xs s)
    | .atom _ _ _ => performAtoms a entry 0 xs s
    | .redm _ _ => ([], performReds a xs s)

/-! ## Results that arrive later -/

/-- A change of every latch set of a unit: of all the groups of its gang, or of the instance. -/
def mapLatches (ref : UnitRef) (p : Pipe) (f : List Latch → List Latch) (s : State) : State :=
  match ref with
  | .grp gk _ => updGang s gk fun g => { g with groups := g.groups.map fun e => (e.1, e.2.map fun r =>
      match p with
      | .lane => { r with laneLatch := f r.laneLatch }
      | .gang => { r with gangLatch := f r.gangLatch }) }
  | .inst id => updInst s id fun i => match p with
      | .lane => { i with laneLatch := f i.laneLatch }
      | .gang => { i with gangLatch := f i.gangLatch }
  | .xp _ _ => s

/-- A scoreboard entry of a lane register, or of a gang register of the unit. -/
def setPending (u : UView) (gangDst : Bool) (keys : List Nat) (v : Nat) (s : State) : State :=
  if gangDst then
    onUnit s u (fun g => { g with scoreboard := ssets 0 g.scoreboard (keys.map fun k => (4096 + k, v)) })
      (fun i => { i with scoreboard := ssets 0 i.scoreboard (keys.map fun k => (4096 + k, v)) })
  else match u.gk with
    | some gk => updGang s gk fun g => { g with scoreboard := ssets 0 g.scoreboard (keys.map fun k => (k, v)) }
    | none => s

/-- An instruction's result that arrives later, under entry number `entry` (R64, R198): its registers are
awaited, and so is the latch entry that it shifts in. -/
def openResult (d : BitVec 6) (w gangDst : Bool) (entry : Nat) (lanes : List Nat) (u : UView) (s : State) : State :=
  let s := if w then s
    else if gangDst then setPending u true [d.toNat] (entry + 1) s
    else setPending u false (lanes.map fun l => l * 64 + d.toNat) (entry + 1) s
  shiftIn s u (if gangDst then .gang else .lane) (if w then none else some d.toNat) (some entry) []

/-- A register takes the value it awaits from an entry, if it still does. -/
def deliver (ref : UnitRef) (gk : Option Nat) (dst : Option Nat) (gangDst : Bool) (entry lane : Nat)
    (x : Word) (s : State) : State :=
  match dst with
  | none => s
  | some d =>
    if gangDst then match ref with
      | .inst id => updInst s id fun i =>
          if sget 0 i.scoreboard (4096 + d) = entry + 1 then
            { i.putG d x with scoreboard := sset 0 i.scoreboard (4096 + d) 0 } else i
      | _ => match gk with
        | some gk => updGang s gk fun g =>
            if sget 0 g.scoreboard (4096 + d) = entry + 1 then
              { g.putG d x with scoreboard := sset 0 g.scoreboard (4096 + d) 0 } else g
        | none => s
    else match gk with
      | some gk => updGang s gk fun g =>
          if sget 0 g.scoreboard (lane * 64 + d) = entry + 1 then
            { g.putV d [(lane, x)] with scoreboard := sset 0 g.scoreboard (lane * 64 + d) 0 }
          else g
      | none => s

/-- An entry gets no value any more: its registers are awaited no longer. -/
def undeliver (ref : UnitRef) (gk : Option Nat) (entry : Nat) (s : State) : State :=
  let clean (m : Sparse Nat) : Sparse Nat := m.filter fun e => e.2 ≠ entry + 1
  match ref with
  | .inst id => match gk with
    | some k => updGang (updInst s id fun i => { i with scoreboard := clean i.scoreboard }) k
        fun g => { g with scoreboard := clean g.scoreboard }
    | none => updInst s id fun i => { i with scoreboard := clean i.scoreboard }
  | _ => match gk with
    | some k => updGang s k fun g => { g with scoreboard := clean g.scoreboard }
    | none => s

/-- The latch entry that awaits `entry` holds its values, except in the lanes `skip`, in which it is not
shifted. -/
def fillLatch (entry : Nat) (vals : List (Nat × Word)) (skip : List Nat) (l : Latch) : Latch :=
  if l.pend = some entry then { l with pend := none, val := l.val ++ vals, skip := l.skip ++ skip } else l

/-- THE END OF A RESULT: the lanes of `vals` take their values, those of `skip` nothing. -/
def closeResult (ref : UnitRef) (gk : Option Nat) (dst : Option Nat) (gangDst : Bool) (entry : Nat)
    (vals : List (Nat × Word)) (skip : List Nat) (s : State) : State :=
  let s := vals.foldl (fun s v => deliver ref gk dst gangDst entry v.1 v.2 s) s
  mapLatches ref (if gangDst then .gang else .lane)
    (List.map (fillLatch entry (if gangDst then vals.map (fun e => (0, e.2)) else vals) skip)) (undeliver ref gk entry s)

/-- A result that comes to nothing: no register takes a value, and no latch entry has been shifted (R375). -/
def dropResult (ref : UnitRef) (gk : Option Nat) (gangDst : Bool) (entry : Nat) (s : State) : State :=
  mapLatches ref (if gangDst then .gang else .lane) (List.filter fun l => l.pend ≠ some entry) (undeliver ref gk entry s)

/-! ## Entering a queue -/

/-- The next draw of the oracle that says whether accesses leave their queue late. -/
def defersNow (s : State) : Bool := s.defers.headD false

def defersNext (s : State) : State := { s with defers := s.defers.drop 1 }

/-- The queue entry of a unit's present word, numbered `s.next`. -/
def entryOf (u : UView) (op : QueueOp) (dst : Option Nat) (gangDst : Bool) (acts : List Nat) (s : State) : QEntry :=
  let a := agentOf u
  { id := s.next, qid := u.qids.headD 0, seq := u.seq, unit := u.ref, ctx := u.ctx, core := u.core, gk := u.gk
    pc := a.pc, scode := a.scode, op := op, dst := dst, gangDst := gangDst, acts := if gangDst then acts else [] }

/-- The work of an instruction enters the unit's queue (R220). -/
def enqueue (u : UView) (op : QueueOp) (dst : Option Nat) (gangDst : Bool) (acts : List Nat) (s : State) : State :=
  { taken s with queue := s.queue ++ [entryOf u op dst gangDst acts s] }

/-- Accesses, each with the buffer that it reaches as it issues (R208). -/
def tagged (s : State) (a : Agent) (xs : List Access) : List Access := xs.map fun x => { x with buf := bufAt s a x.addr }

/-! ## Completion and FENCE (R214, R228, R229) -/

/-- Whether everything older than `seq` in the queues, of the classes `pred`, is complete at a scope:
0 gang, 1 core, 2 cluster, 3 die, 4 module, 5 host. -/
def complete (s : State) (a : Agent) (pred scope : Nat) : Bool :=
  let mine (qid seq : Nat) : Bool := a.qids.contains qid && decide (seq < a.seq)
  let older := s.queue.any fun e => mine e.qid e.seq && entryClass e.op &&& pred ≠ 0
  let st := pred &&& 2 ≠ 0
  let at_ := pred &&& 4 ≠ 0
  let gut := (st || at_) && s.gutter.any fun e => decide (e.core = a.core ∧ e.gk = a.gk ∧ e.ctx = a.ctx)
    && !(a.qids.contains e.qid && decide (a.seq < e.seq))
  let sb := st && scope ≥ 1 && s.sb.any fun e => mine e.qid e.seq
  let hm := at_ && scope ≥ 1 && s.homeq.any fun e => mine e.qid e.seq
  let pub := s.pubs.any fun p => mine p.qid p.seq &&
    ((!p.at_ && st && scope ≥ 4) || (p.at_ && at_ && (scope ≥ 4 || (scope ≥ 1 && p.into = dieNo a.core))))
  !(older || gut || sb || hm || pub)

/-! ## Late failures (R375) -/

/-- A cause is held pending for a gang; without one, or when the gang waits at EXIT for its stores, it goes
to a detached instance (R200, R309). -/
def pend (core ctx : Nat) (gk : Option Nat) (gid : Option Nat) (c : Cause) (lanes : List Nat) (pc : Word)
    (scode : Bool) (s : State) (defer : Bool := true) : State :=
  match gk.bind fun k => (gang? s k).map fun g => (k, g) with
  | some (k, g) =>
    if g.live = [] then raiseDetached core ctx c false defer pc scode s g.half
    else updGang s k fun g => { g with pending := g.pending ++ [⟨c, lanes, pc, scode, gid, defer⟩] }
  | none => raiseDetached core ctx c false defer pc scode s

/-- The group of a gang in whose queues a number lies. -/
def queueGroup (s : State) (gk : Option Nat) (qid : Nat) : Option Nat :=
  ((gk.bind (gang? s)).bind fun g => (sentries g.groups).find? fun e => e.2.qids.contains qid).map Prod.fst

/-- A group can be stopped: it is not stopped already, and its gang is on its core (R309). -/
def canStop (s : State) (g : Gang) (r : Group) : Bool :=
  g.place = .resident && !g.dead && g.live ≠ [] && !(ctxD s g.ctx).faulted && !stoppedWait r.wait

/-- AN ACCESS THAT HAS ISSUED FAILS when it is performed (R375): precise at the access when it held its unit, or
when the unit has issued nothing since; else deferred. A gang that cannot stop now holds the cause pending. -/
def lateFail (ref : UnitRef) (core ctx : Nat) (gk : Option Nat) (seq : Nat) (held : Bool) (pc : Word) (scode : Bool)
    (c : Cause) (lanes : List Nat) (s : State) : State :=
  match ref with
  | .grp k gid => match (gang? s k).bind fun g => (group? g gid).map fun r => (g, r) with
    | some (g, r) =>
      let precise := held || decide (r.issued = seq + 1)
      if precise && canStop s g r && scode == g.region.isSome then
        raiseGroup k gid c lanes false pc scode (if scode then s else updGroup s k gid fun r => { r with pc := pc.toNat })
      else pend core ctx gk (some gid) c lanes pc scode s (!precise)
    | none => pend core ctx gk none c lanes pc scode s
  | .inst id => match inst? s id with
    | some i => raiseInst id c lanes (!(held || decide (i.issued = seq + 1))) pc s
    | none => pend core ctx gk none c lanes pc scode s
  | .xp _ _ => s

/-- The region end that awaits a queue entry, if there is one (R375). -/
def endDue (e : QEntry) (ok : Bool) (s : State) : State :=
  match e.gk with
  | some gk => updGang s gk (Gang.endDue ok e.id)
  | none => s

/-- THE END OF AN ENTRY, all of whose lanes have been performed or have failed (R309, R310, R375): without a
failure its lanes take their values. In linear code a failure leaves every lane as it was; in state code only
the failing lanes, of gang-pipe work all of them. -/
def finishEntry (e : QEntry) (s : State) : State :=
  match leadCause (byLane e.fails) with
  | none => endDue e true (closeResult e.unit e.gk e.dst e.gangDst e.id e.got [] s)
  | some c =>
    let s := endDue e false s
    let s := if e.scode && !e.gangDst then closeResult e.unit e.gk e.dst false e.id e.got (e.fails.map Prod.fst) s
      else dropResult e.unit e.gk e.gangDst e.id s
    let c := if e.gangDst && c.source = 0 then { c with source := 1 } else c
    lateFail e.unit e.core e.ctx e.gk e.seq e.held e.pc e.scode c
      (if e.gangDst then e.acts else (byLane e.fails).map Prod.fst) s

/-- Atomics of an entry are on their way. -/
def homeward (s : State) (id : Nat) : Bool := s.homeq.any fun h => h.entry = some id

/-- An entry whose accesses have all been performed ends, or waits for its homes. -/
def settleEntry (e : QEntry) (s : State) : State :=
  if homeward s e.id then { s with sent := s.sent ++ [e] } else finishEntry e s

/-- Nothing has issued after an entry's instruction. -/
def nothingSince (s : State) (e : QEntry) : Bool :=
  match e.unit with
  | .grp k gid => match (gang? s k).bind fun g => group? g gid with
    | some r => r.issued = e.seq + 1
    | none => false
  | .inst id => match inst? s id with
    | some i => i.issued = e.seq + 1
    | none => false
  | .xp _ _ => false

/-- A change of one entry of the queues. -/
def updEntry (id : Nat) (f : QEntry → QEntry) (s : State) : State :=
  { s with queue := s.queue.map fun e => if e.id = id then f e else e }

/-- LANES OF A QUEUED ENTRY HAVE BEEN PERFORMED, with values, or have failed: they leave it, and with the last of
them the entry ends. A failure whose unit has issued nothing since holds it (R375). -/
def closeLanes (id : Nat) (rest : QueueOp) (got : List (Nat × Word)) (fails : List (Nat × Cause)) (s : State) : State :=
  match s.queue.find? fun e => e.id = id with
  | none => s
  | some e =>
    let e := { e with op := rest, got := e.got ++ got, fails := e.fails ++ fails
                      held := e.held || (fails ≠ [] && nothingSince s e) }
    let done : Bool := match rest with
      | .accesses [] => true
      | .stv _ [] _ => true
      | .dfa _ [] => true
      | _ => false
    if done then settleEntry e { s with queue := s.queue.filter fun x => x.id ≠ id } else updEntry id (fun _ => e) s

end Sys2Proof.Machine
end

