-- ==== Sys2Proof/Machine/MemAccess.lean ====
section
/-!
DEFINITION. Loads and stores, atomics, reductions, LDC and STC (R195–R204), and DFA.STEP4 (R106–R108).
-/
namespace Sys2Proof.Machine

/-! ## What the checks of one instruction's accesses come to -/

def accOks (rs : List (Access × AccRes)) : List (Access × Spot) :=
  rs.filterMap fun e => match e.2 with
    | .ok p => some (e.1, p)
    | _ => none

def accBads (rs : List (Access × AccRes)) : List (Nat × Cause) :=
  rs.filterMap fun e => match e.2 with
    | .bad c => some (e.1.lane, c)
    | _ => none

def accWait (rs : List (Access × AccRes)) : Option WaitOn :=
  rs.findSome? fun e => match e.2 with
    | .wait w => some w
    | _ => none

/-- The accesses that miss translation, with their pages and access types. -/
def accMisses (rs : List (Access × AccRes)) : List (Access × Nat × Nat) :=
  rs.filterMap fun e => match e.2 with
    | .miss page acc => some (e.1, page, acc)
    | _ => none

/-- The pages that some accesses miss are asked for, each for the accesses that it holds (R322). -/
def askPages (core ctx : Nat) (who : PWaiter) (ms : List (Access × Nat × Nat)) (s : State) : State :=
  (distinct (ms.map fun m => m.2.1)).foldl (fun s page =>
    let mine := ms.filter fun m => m.2.1 = page
    requestWalk core ctx page (mine.foldl (fun a m => a ||| m.2.2) 0) who s mine.length) s

/-- Walks are asked for and the unit waits for the first page (R322). -/
def holdPages (ms : List (Access × Nat × Nat)) (u : UView) (s : State) : State :=
  hold (askPages u.core u.ctx (.unit u.ref) ms s) u (.page ((ms.map fun m => m.2.1).headD 0))

/-- What an instruction's entry fixes of its accesses. -/
structure AccPlan where
  pipe : Pipe
  reach : Reach := .plain
  dst : Option (BitVec 6) := none
  w : Bool := false
  /-- A store or reduction: translation faults go to the Gutter (R200). -/
  gutter : Bool := false
  /-- The instruction ends the idempotent region (R315). -/
  ends : Bool := false
  /-- The unit waits until the accesses are performed (LDC, STC: R204). -/
  holds : Bool := false

/-- The pipe of the word is the gang pipe. -/
def AccPlan.isGang (p : AccPlan) : Bool := decide (p.pipe = .gang)

/-- The end of an access instruction that has issued: one some of whose lanes have failed ends no region (R315). -/
def accDone (p : AccPlan) (u : UView) (s : State) : State :=
  if p.ends && notShifted s u .lane = [] then idemAccess (advance s u) u else advance s u

/-- An access's line already has an entry of the unit's gang in the Gutter (R200). -/
def behindGutter (s : State) (a : Agent) (x : Access) : Bool :=
  s.gutter ≠ [] && (x.addr.toNat / 0x1000000000000 ≤ 0xFF || x.addr.toNat / 0x1000000000000 = 0xFF02)
    && gutterHas s a (canon s a x.lane x.addr)

/-- The result of accesses: their values, or, where they come later under an entry's number, none yet. -/
def accResult (p : AccPlan) (entry : Nat) (lanes : List Nat) (vals : Option (List (Nat × Word))) (u : UView)
    (s : State) : State :=
  match p.dst with
  | none => s
  | some d => match vals with
    | none => openResult d p.w p.isGang entry lanes u s
    | some vs => if p.isGang then gangResult d p.w ((vs.map Prod.snd).headD 0) u s else laneResult d p.w vs u s

/-- Accesses that have passed their checks are performed: their values are known, but for atomics that are on
their way to their homes. -/
def accPerform (p : AccPlan) (xs : List (Access × Spot)) (u : UView) (acts : List Nat) (s : State) : State :=
  if xs = [] then s else
  let lanes := xs.map fun x => x.1.lane
  let e := entryOf u (.accesses []) (p.dst.map (·.toNat)) p.isGang acts s
  let r := performAll (agentOf u) s.next xs (taken (if p.holds then s else defersNext s))
  if p.dst.isSome && r.1.length < xs.length then
    accResult p s.next lanes none u { r.2 with sent := r.2.sent ++ [{ e with got := r.1 }] }
  else accResult p s.next lanes (some r.1) u r.2

/-- Accesses enter the unit's issue queue, to be performed later (R220). -/
def accQueue (p : AccPlan) (xs : List Access) (u : UView) (acts : List Nat) (s : State) : State :=
  accResult p s.next (xs.map Access.lane) none u
    (defersNext (enqueue u (.accesses (tagged s (agentOf u) xs)) (p.dst.map (·.toNat)) p.isGang acts s))

/-- The lanes that raise what an access comes to. -/
def causeLanes (p : AccPlan) (acts : List Nat) (x : Access) : List Nat :=
  if p.isGang then acts else if x.lanes = [] then [x.lane] else x.lanes

/-- Stores and reductions whose turn it is: those that miss translation, or lie behind an entry for their line,
retire into the Gutter, the others are performed; where the Gutter has no room they hold (R199, R200, R203). -/
def accRetire (p : AccPlan) (rs : List (Access × AccRes)) (fin : State → State) (u : UView) (acts : List Nat)
    (s : State) : State :=
  let a := agentOf u
  let missed (x : Access) : Bool := (accMisses rs).any fun m => m.1.lane = x.lane
  let xs := combineLanes s a (rs.map Prod.fst)
  let into := xs.filter fun x => missed x || behindGutter s a x
  if into ≠ [] && gutterUse s u.core + into.length > Config.gutterEntries then hold s u (.gutter none)
  else
    let rest := (xs.filter fun x => !into.contains x).filterMap fun x =>
      ((accOks rs).find? fun e => e.1.lane = x.lane).map fun e => (x, e.2)
    fin (accPerform p rest u acts (into.foldl (fun s x => gutterPush a x (causeLanes p acts x) s) s))

/-- A wait for a saved buffer asks for it (R328). -/
def wanting (ctx : Nat) (w : WaitOn) (s : State) : State :=
  match w with
  | .buffer core idx => updTag s ctx core idx fun t => { t with wanted := true }
  | _ => s

/-- Accesses none of which fails: waits, translation misses, older entries of the queue that they must not pass or
the oracle's choice (R220), then the Gutter or performing. -/
def accGo (p : AccPlan) (rs : List (Access × AccRes)) (fin : State → State) (u : UView) (acts : List Nat)
    (s : State) : State :=
  let a := agentOf u
  let xs := rs.map Prod.fst
  match accWait rs with
  | some w => hold (wanting u.ctx w s) u w
  | none =>
    if !p.gutter && accMisses rs ≠ [] then holdPages (accMisses rs) u s
    else if p.holds && blocked s a (.accesses xs) then hold s u .drain
    else if xs ≠ [] && !p.holds && (blocked s a (.accesses xs) || defersNow s) then fin (accQueue p xs u acts s)
    else if p.gutter then accRetire p rs fin u acts s
    else match xs.find? (behindGutter s a) with
      | some x => hold s u (.gutter (some (canon s a x.lane x.addr / 64)))
      | none => fin (accPerform p (accOks rs) u acts s)

/-- THE ACCESSES OF ONE INSTRUCTION (R196, R198–R204): in linear code a failing lane stops the unit and
nothing is performed; in state code the failing lanes are set aside, to be parked when the word completes, and the
others go on, at once or, where one of them must wait, when the word issues again. -/
def access (p : AccPlan) (xs : List Access) (u : UView) (acts : List Nat) (s : State) : State :=
  let rs := xs.map fun x => (x, resolve s (agentOf u) p.reach x.lane x.addr (opSize x.op) (opAcc x.op)
    (decide (x.op = .latest)))
  let src := if p.isGang then 1 else 0
  let bads := accBads rs
  let good := rs.filter fun r => !bads.any fun b => b.1 = r.1.lane
  match leadCause bads with
  | none => accGo p rs (accDone p u) u acts s
  | some c =>
    if u.region.isNone || good = [] then raiseOn { c with source := src } (if p.isGang then acts else bads.map Prod.fst) u s
    else accGo p good (accDone p u) u acts (setFailed bads u s)

/-! ## Addresses (R195) -/

/-- A base pair and a sign-extended register offset, for a lane, or for the gang. -/
def addrReg (s : State) (u : UView) (a b : BitVec 6) (lane : Nat) : Dword :=
  gpair s u a.toNat + (vsrc s u b lane).signExtend 64

def addrGang (s : State) (u : UView) (a b : BitVec 6) : Dword :=
  gpair s u a.toNat + (gsrc s u b).signExtend 64

/-- A base pair and IMM6 scaled by the access size. -/
def addrImm (s : State) (u : UView) (a b : BitVec 6) (size : Nat) : Dword :=
  gpair s u a.toNat + b.signExtend 64 * BitVec.ofNat 64 size

/-- The gang registers of a base pair: A and A + 1 (R195). -/
def basePair (a : BitVec 6) : List Nat := [a.toNat, a.toNat + 1]

/-- The lane whose stack a gang-pipe access reaches: the lowest acting lane (log entry 15). -/
def leadLane (acts : List Nat) : Nat := acts.headD 0

/-! ## Loads -/

def loadLane (i : Instr) (imm : Bool) (size : Nat) (signed : Bool) (o : O3) (s : State) : Out :=
  issue i { pipe := .lane, strand := o.s, dst := some o.d, w := o.w
            srcs := if imm then [] else [o.b], gs := basePair o.a }
    (fun u acts s => access { pipe := .lane, dst := some o.d, w := o.w } (acts.map fun l =>
      { lane := l, addr := if imm then addrImm s u o.a o.b size else addrReg s u o.a o.b l, op := .load size signed }) u acts s) s

def loadGang (i : Instr) (imm : Bool) (o : O3) (s : State) : Out :=
  issue i { pipe := .gang, strand := o.s, dst := some o.d, w := o.w
            srcs := if imm then [] else [o.b], gs := basePair o.a }
    (fun u acts s => access { pipe := .gang, dst := some o.d, w := o.w }
      [{ lane := leadLane acts, addr := if imm then addrImm s u o.a o.b 4 else addrGang s u o.a o.b, op := .load 4 false }] u acts s) s

def execLdS16A (o : O3) (s : State) : Out := loadLane (.ldS16A o) false 2 true o s
def execLdS16I (o : O3) (s : State) : Out := loadLane (.ldS16I o) true 2 true o s
def execLdN16A (o : O3) (s : State) : Out := loadLane (.ldN16A o) false 2 false o s
def execLdN16I (o : O3) (s : State) : Out := loadLane (.ldN16I o) true 2 false o s
def execLdB32A (o : O3) (s : State) : Out := loadLane (.ldB32A o) false 4 false o s
def execLdB32I (o : O3) (s : State) : Out := loadLane (.ldB32I o) true 4 false o s
def execLdgA (o : O3) (s : State) : Out := loadGang (.ldgA o) false o s
def execLdgI (o : O3) (s : State) : Out := loadGang (.ldgI o) true o s

/-! ## Stores -/

def storeLane (i : Instr) (imm : Bool) (size : Nat) (o : O3n) (s : State) : Out :=
  issue i { pipe := .lane, strand := o.s, srcs := if imm then [o.d] else [o.d, o.b], gs := basePair o.a }
    (fun u acts s => access { pipe := .lane, gutter := true } (acts.map fun l =>
      { lane := l, addr := if imm then addrImm s u o.a o.b size else addrReg s u o.a o.b l, op := .store size (vsrc s u o.d l) }) u acts s) s

def storeGang (i : Instr) (imm : Bool) (o : O3n) (s : State) : Out :=
  issue i { pipe := .gang, strand := o.s, srcs := if imm then [o.d] else [o.d, o.b], gs := basePair o.a }
    (fun u acts s => access { pipe := .gang, gutter := true }
      [{ lane := leadLane acts, addr := if imm then addrImm s u o.a o.b 4 else addrGang s u o.a o.b
         op := .store 4 (gsrc s u o.d) }] u acts s) s

def execStB32A (o : O3n) (s : State) : Out := storeLane (.stB32A o) false 4 o s
def execStB32I (o : O3n) (s : State) : Out := storeLane (.stB32I o) true 4 o s
def execStN16A (o : O3n) (s : State) : Out := storeLane (.stN16A o) false 2 o s
def execStN16I (o : O3n) (s : State) : Out := storeLane (.stN16I o) true 2 o s
def execStgA (o : O3n) (s : State) : Out := storeGang (.stgA o) false o s
def execStgI (o : O3n) (s : State) : Out := storeGang (.stgI o) true o s

/-! ## The cluster's scratchpads (R204) -/

def execLdc (o : O3) (s : State) : Out :=
  issue (.ldc o) { pipe := .lane, strand := o.s, dst := some o.d, w := o.w, srcs := [o.b], gs := basePair o.a }
    (fun u acts s => access { pipe := .lane, reach := .remote, dst := some o.d, w := o.w, holds := true }
      (acts.map fun l => { lane := l, addr := addrReg s u o.a o.b l, op := .load 4 false }) u acts s) s

def execStc (o : O3n) (s : State) : Out :=
  issue (.stc o) { pipe := .lane, strand := o.s, srcs := [o.d, o.b], gs := basePair o.a }
    (fun u acts s => access { pipe := .lane, reach := .remote, holds := true }
      (acts.map fun l => { lane := l, addr := addrReg s u o.a o.b l, op := .store 4 (vsrc s u o.d l) }) u acts s) s

/-! ## Atomics (R202) -/

/-- `cas` reads D + 1 too; a D of 59 raises 0x05. -/
def atom (i : Instr) (op : Nat) (cas : Bool) (o : O3n) (s : State) : Out :=
  issue i { pipe := .lane, strand := o.s, dst := some o.d, limits := !(cas && o.d.toNat ≥ 59)
            srcs := if cas then [o.d, o.d + 1, o.b] else [o.d, o.b], gs := basePair o.a, ends := true }
    (fun u acts s => access { pipe := .lane, dst := some o.d, ends := true } (acts.map fun l =>
      { lane := l, addr := addrReg s u o.a o.b l, op := .atom op (vsrc s u o.d l) (if cas then vsrc s u (o.d + 1) l else 0) }) u acts s) s

def execAtomAdd (o : O3n) (s : State) : Out := atom (.atomAdd o) 0x90 false o s
def execAtomAnd (o : O3n) (s : State) : Out := atom (.atomAnd o) 0x91 false o s
def execAtomOr (o : O3n) (s : State) : Out := atom (.atomOr o) 0x92 false o s
def execAtomXor (o : O3n) (s : State) : Out := atom (.atomXor o) 0x93 false o s
def execAtomMinS32 (o : O3n) (s : State) : Out := atom (.atomMinS32 o) 0x94 false o s
def execAtomMaxS32 (o : O3n) (s : State) : Out := atom (.atomMaxS32 o) 0x95 false o s
def execAtomMinN32 (o : O3n) (s : State) : Out := atom (.atomMinN32 o) 0x96 false o s
def execAtomMaxN32 (o : O3n) (s : State) : Out := atom (.atomMaxN32 o) 0x97 false o s
def execAtomXchg (o : O3n) (s : State) : Out := atom (.atomXchg o) 0x98 false o s
def execAtomCas (o : O3n) (s : State) : Out := atom (.atomCas o) 0x99 true o s

/-! ## Combiner reductions (R203) -/

/-- Lanes whose shadow unit differs from the combiner's fold of their address (R149, R158). -/
def foldFails (s : State) (u : UView) (xs : List Access) : List Nat :=
  ((combineLanes s (agentOf u) xs).filter fun x => decide (x.lanes.length > 1)).flatMap fun x => match x.op with
    | .redm _ v => x.lanes.filter fun l => shadowFails s.shadow (.float f32) l v
    | _ => []

/-- RED.M. The shadow check of R158 covers a float reduction at the combiner (`checked`); the lanes that are listed
raise its cause (log entry 94). -/
def redM (i : Instr) (op : Nat) (checked : Bool) (o : O3n) (s : State) : Out :=
  issue i { pipe := .lane, strand := o.s, srcs := [o.d, o.b], gs := basePair o.a, ends := true }
    (fun u acts s =>
      let xs : List Access := acts.map fun l => { lane := l, addr := addrReg s u o.a o.b l, op := .redm op (vsrc s u o.d l) }
      let p : AccPlan := { pipe := .lane, gutter := true, ends := true }
      match if checked then lsort (foldFails s u xs) else [] with
      | [] => access p xs u acts s
      | hit =>
        let s := { s with shadow := [] }
        let rest := xs.filter fun x => !hit.contains x.lane
        if u.region.isNone || rest = [] then raiseOn { code := 0x22 } hit u s
        else access p rest u acts (setFailed (hit.map fun l => (l, { code := 0x22 })) u s)) s

def execRedMAdd (o : O3n) (s : State) : Out := redM (.redMAdd o) 0x9A false o s
def execRedMAddF32 (o : O3n) (s : State) : Out := redM (.redMAddF32 o) 0x9B true o s
def execRedMMinS32 (o : O3n) (s : State) : Out := redM (.redMMinS32 o) 0x9C false o s
def execRedMMaxS32 (o : O3n) (s : State) : Out := redM (.redMMaxS32 o) 0x9D false o s
def execRedMMinN32 (o : O3n) (s : State) : Out := redM (.redMMinN32 o) 0x9E false o s
def execRedMMaxN32 (o : O3n) (s : State) : Out := redM (.redMMaxN32 o) 0x9F false o s

/-! ## DFA.STEP4 (R106–R108) -/

/-- The address of the entry that a walk reads next. -/
def dfaAddr (table : Dword) (r : DfaRow) : Dword :=
  table + BitVec.ofNat 64 (2 * (256 * r.st + r.bytes.toNat / 2 ^ (8 * r.k) % 256))

/-- An entry is read: the next state, and the accepting bit of its byte. -/
def dfaNext (r : DfaRow) (e : Nat) : DfaRow :=
  { r with k := r.k + 1, st := e % 0x8000, flags := if e ≥ 0x8000 then r.flags + 2 ^ r.k else r.flags }

/-- The result of a walk of four entries: the last entry, below the accepting bits. -/
def dfaWord (r : DfaRow) : Word := w32 (r.flags * 0x10000 + (if r.flags.testBit 3 then 0x8000 else 0) + r.st)

/-- What a lane's walk comes to. -/
inductive Walked where
  | ok (x : Word)
  | bad (c : Cause)
  | wait (w : WaitOn)
deriving DecidableEq, Repr

/-- One entry of a walk is read. -/
def dfaRead (s : State) (a : Agent) (table : Dword) (r : DfaRow) : AccRes :=
  resolve s a .localOnly r.lane (dfaAddr table r) 2 1

/-- The whole entry at a spot. -/
def dfaEntry (s : State) (a : Agent) (p : Spot) : Nat := leNat (spotBytes s a.core a.ctx a.gk p 2)

/-- The walk of a lane from a row on, all of whose entries are read at once. -/
def dfaWalk (s : State) (a : Agent) (table : Dword) : Nat → DfaRow → Walked
  | 0, r => .ok (dfaWord r)
  | n + 1, r => match dfaRead s a table r with
    | .ok p => dfaWalk s a table n (dfaNext r (dfaEntry s a p))
    | .bad c => .bad c
    | .wait w => .wait w
    | .miss _ _ => .bad (addrCause 0x08 (dfaAddr table r) 0)

/-- Every entry a walk may still read could overlap an older queued access, so a walk waits until the
unit's queue holds no older scratchpad access (R220). -/
def spQueued (s : State) (a : Agent) : Bool :=
  s.queue.any fun e => olderEntry a e && (match e.op with
    | .fence _ succ _ => succ &&& 32 ≠ 0
    | op => entryClass op &&& 32 ≠ 0)

/-- DFA.STEP4: every lane's entries are read at once, or, behind an older access or where the oracle defers them,
one by one and lane by lane from the unit's queue (R108, R220). -/
def execDfaStep4 (o : O3) (s : State) : Out :=
  issue (.dfaStep4 o) { pipe := .lane, strand := o.s, dst := some o.d, w := o.w, readsD := true, srcs := [o.d, o.b], gs := basePair o.a }
    (fun u acts s =>
      let a := agentOf u
      let t := gpair s u o.a.toNat
      let rows : List DfaRow := acts.map fun l =>
        { lane := l, k := 0, st := (vsrc s u o.d l).toNat % 0x8000, flags := 0, bytes := vsrc s u o.b l }
      if acts ≠ [] && (spQueued s a || defersNow s) then
        advance (openResult o.d o.w false s.next acts u
          (defersNext (enqueue u (.dfa t rows) (some o.d.toNat) false acts s))) u
      else
        let rs := rows.map fun r => (r.lane, dfaWalk s a t 4 r)
        match rs.findSome? fun e => (match e.2 with
          | .wait w => some w
          | _ => none) with
        | some w => hold (wanting u.ctx w s) u w
        | none => finishLanes (rs.map fun e => (e.1, match e.2 with
            | .ok x => LaneRes.ok x
            | .bad c => .bad c
            | .wait _ => .ok 0)) (laneResult o.d o.w) u (defersNext s)) s

end Sys2Proof.Machine
end

