-- ==== Sys2Proof/Machine/Descr.lean ====
section
/-!
DEFINITION. Tensor descriptors: fields, checks, element addresses (R178–R180), accesses through a
descriptor's SPACE (R174, R175), and TD.LOAD and TD.SET (R216, R217).
-/
namespace Sys2Proof.Machine

/-! ## Fields (R178) -/

def dWord (d : Desc) (n : Nat) : Word := d.getD n 0
def bits (w : Word) (lo n : Nat) : Nat := w.toNat / 2 ^ lo % 2 ^ n
def dValid (d : Desc) : Bool := (dWord d 0).getLsbD 31
def dSpace (d : Desc) : Nat := bits (dWord d 0) 28 3
def dRank (d : Desc) : Nat := bits (dWord d 0) 25 3
def dSent (d : Desc) : Bool := (dWord d 0).getLsbD 24
def dFmt (d : Desc) : Nat := bits (dWord d 0) 20 4
def dScale (d : Desc) : Nat := bits (dWord d 0) 18 2
def dBlk (d : Desc) : Nat := bits (dWord d 0) 16 2
def dPerm (d : Desc) : Nat := bits (dWord d 0) 12 4
def dBase (d : Desc) : Dword := pair (dWord d 1) (dWord d 2)
/-- EXTk; a dimension at or above RANK has extent 1 (R179). -/
def dExt (d : Desc) (k : Nat) : Nat := if k < dRank d then (dWord d (3 + k)).toNat else 1
def dStr (d : Desc) (k : Nat) : Word := if k = 0 then 0 else dWord d (7 + k)
def dFill (d : Desc) : Word := dWord d 12
def dSbase (d : Desc) : Dword := pair (dWord d 13) (dWord d 14)

/-- The width in bits of an element format; 0 for the reserved ones. -/
def fmtWidth (f : Nat) : Nat :=
  match f with
  | 0 => 16
  | 1 => 16
  | 2 => 32
  | 4 => 8
  | 5 => 16
  | 6 => 32
  | 8 => 8
  | 9 => 8
  | 10 => 6
  | 11 => 6
  | 12 => 4
  | 13 => 8
  | _ => 0

/-- An entry of sixteen zero words. -/
def noDesc : Desc := List.replicate 16 0

/-- Descriptor t`n` of a context on a core (R216). -/
def descOf (s : State) (ctx core n : Nat) : Desc :=
  match sget [] (ccOf s ctx core).descs n with
  | [] => noDesc
  | d => d

def setDesc (ctx core n : Nat) (d : Desc) (s : State) : State :=
  updCc s ctx core fun x => { x with descs := sset [] x.descs n d }

/-! ## The checks of R179 -/

def descOk (d : Desc) : Bool :=
  let r := dRank d
  let f := dFmt d
  let bytes := fmtWidth f / 8
  let al (n : Nat) : Bool := bytes = 0 || n % bytes = 0
  dSpace d ≤ 1 && decide (1 ≤ r ∧ r ≤ 5) && fmtWidth f ≠ 0 && dScale d ≤ 2 && dBlk d ≤ 1 && dPerm d ≤ 6
    && bits (dWord d 0) 0 12 = 0 && dWord d 15 = 0
    && (List.range 5).all (fun k => if k < r then dWord d (3 + k) ≠ 0 else dWord d (3 + k) = 0)
    && [1, 2, 3, 4].all (fun k => k < r || dWord d (7 + k) = 0)
    && (!dSent d || (List.range r).all fun k => dWord d (3 + k) ≠ 0xFFFFFFFF)
    && (if 8 ≤ f then dBlk d = 1 && dScale d ≠ 0 else dBlk d = 0 && dScale d = 0)
    && (dBlk d = 0 || (dWord d 3).toNat % 32 = 0)
    && [1, 2, 3, 4].all (fun k => al (dWord d (7 + k)).toNat) && al (dBase d).toNat
    && (dSpace d = 0 || (dBase d).toNat % 256 = 0)

/-- The checks of an entry with VALID = 0 (R217). -/
def partOk (d : Desc) : Bool := bits (dWord d 0) 0 12 = 0 && dWord d 15 = 0

/-! ## Element addresses (R180) -/

/-- Whether a coordinate lies inside every extent. -/
def inside (d : Desc) (c : List Int) : Bool :=
  (List.range 5).all fun k => decide (0 ≤ c.getD k 0 ∧ c.getD k 0 < (dExt d k : Int))

/-- The offset of an element's first byte, before the permutation. -/
def elemOff (d : Desc) (c : List Int) : Int :=
  (c.getD 0 0 * fmtWidth (dFmt d)) / 8
    + (List.range 4).foldl (fun a k => a + c.getD (k + 1) 0 * (dStr d (k + 1)).toInt) 0

/-- The bank permutation swaps bits within a 256-byte line. -/
def permute (k : Nat) (off : Dword) : Dword :=
  if k = 0 then off else off ^^^ (((off >>> 8) &&& BitVec.ofNat 64 (2 ^ k - 1)) <<< 2)

def elemAddr (d : Desc) (c : List Int) : Dword :=
  dBase d + permute (dPerm d) (BitVec.ofInt 64 (elemOff d c))

/-- The index of an element's scale. -/
def scaleIdx (d : Desc) (c : List Int) : Nat :=
  let n (k : Nat) : Nat := (c.getD k 0).toNat
  n 0 / 32 + dExt d 0 / 32 * (n 1 + dExt d 1 * (n 2 + dExt d 2 * (n 3 + dExt d 3 * n 4)))

/-- Bytes of a stored scale: one for E8M0, four for NS20 (R141). -/
def scaleBytes (d : Desc) : Nat := if dScale d = 1 then 1 else 4

def scaleAddr (d : Desc) (c : List Int) : Dword :=
  dSbase d + BitVec.ofNat 64 (scaleIdx d c * scaleBytes d)

/-- The bit position of an element within its first byte (R141). -/
def elemBit (d : Desc) (c : List Int) : Nat := (c.getD 0 0).toNat * fmtWidth (dFmt d) % 8

/-! ## Accesses through a SPACE -/

/-- A copy processor of a node launched with the Purlin-load flag (R174, R299). -/
def purlinWriter (s : State) (a : Agent) : Bool :=
  match a.ref with
  | some (.xp core p) =>
    let x := if p = 0 then (coreOf s core).xp0 else (coreOf s core).xp1
    x.nodes.any fun k => match sget none s.pool k with
      | some n => (n.rcd.getD 5 0).getLsbD 17
      | none => false
  | _ => false

/-- A cause with a Purlin offset. -/
def purlinCause (code : Nat) (off : Dword) : Cause := { code := code, d0 := lo32 off }

/-- An access to the Purlin store through a descriptor (R174, R175). -/
def purlinSpot (s : State) (a : Agent) (off : Dword) (size acc : Nat) : AccRes :=
  let x := ctxD s a.ctx
  let n := off.toNat
  if n + size > x.purlinSize * 0x2000000 then .bad (purlinCause 0x1B off)
  else if n % size ≠ 0 then .bad (addrCause 0x07 off (accKind acc))
  else if acc ≠ 1 && !purlinWriter s a then .bad (purlinCause 0x1A off)
  else
    let at_ := x.purlinBase * 0x2000000 + n
    if acc = 1 && purlinGroup s (dieNo a.core) = (at_ / 256 % 16, true) then .wait (.purlin (at_ / 256 % 16))
    else if acc = 1 && isBad s (purlinLoc (dieNo a.core) at_) size then .bad (purlinCause 0x34 off)
    else .ok (.purlin (dieNo a.core) at_)

/-- An access at an address of a descriptor's SPACE. -/
def spaceSpot (s : State) (a : Agent) (space : Nat) (addr : Dword) (size acc : Nat) : AccRes :=
  if space = 0 then resolve s a .desc 0 addr size acc else purlinSpot s a addr size acc

/-! ## TD.LOAD and TD.SET (R217) -/

/-- The words of a list of bytes, little-endian. -/
def wordsOf : Nat → List Byte → List Word
  | 0, _ => []
  | n + 1, bs => w32 (leNat (bs.take 4)) :: wordsOf n (bs.drop 4)

/-- A gang-pipe instruction's cause for its acting lanes. -/
def gangFail (c : Cause) (acts : List Nat) (u : UView) (s : State) : State :=
  raiseOn { c with source := 1 } acts u s

/-- A whole entry replaced, or cause 0x18 and the entry as it was. -/
def loadDesc (n : Nat) (d : Desc) (acts : List Nat) (u : UView) (s : State) : State :=
  if (if dValid d then descOk d else partOk d) then advance (setDesc u.ctx u.core n d s) u
  else gangFail { code := 0x18, d0 := w32 n } acts u s

def execTdLoad (o : OAB) (s : State) : Out :=
  issue (.tdLoad o) { pipe := .gang, strand := o.s, srcs := [o.a], gs := basePair o.b }
    (fun u acts s =>
      let a := agentOf u
      let n := (gsrc s u o.a).toNat % 128
      let addr := gpair s u o.b.toNat
      let x : Access := { lane := leadLane acts, addr := addr, op := .load 4 false }
      if queued s a.qids then hold s u .drain
      else match resolve s a .plain (leadLane acts) addr 64 1 with
        | .wait w => hold (wanting u.ctx w s) u w
        | .bad c => gangFail c acts u s
        | .miss page acc => holdPages [(x, page, acc)] u s
        | .ok p =>
          if behindGutter s a x then hold s u (.gutter (some (canon s a x.lane addr / 64)))
          else loadDesc n (wordsOf 16 (spotBytes s u.core u.ctx u.gk p 64)) acts u s) s

def execTdSet (o : OAB) (s : State) : Out :=
  issue (.tdSet o) { pipe := .gang, strand := o.s, srcs := [o.a, o.b] }
    (fun u acts s =>
      let x := gsrc s u o.a
      let n := x.toNat % 128
      if bits x 7 1 ≠ 0 || bits x 12 20 ≠ 0 then gangFail { code := 0x05, d0 := wordOf (.tdSet o) } acts u s
      else loadDesc n (lset (descOf s u.ctx u.core n) (bits x 8 4) (gsrc s u o.b)) acts u s) s

end Sys2Proof.Machine
end

