-- ==== Sys2Proof/Machine/Scratch.lean ====
section
/-!
DEFINITION. Scratchpad buffers: SPALLOC, SPRENEW, SPRENEW.z, SPFREE and SPINFO (R169–R173, R207–R209).
-/
namespace Sys2Proof.Machine

/-- Bytes of memory from a key upward read as never written, which is zero (log entry 3), and hold no
uncorrectable word. -/
def zeroRange (loc n : Nat) (s : State) : State :=
  let out (k : Nat) : Bool := !(decide (loc ≤ k) && decide (k < loc + n))
  clearBad { s with mem := s.mem.filter fun e => out e.1 } loc n

/-! ## Granules -/

/-- The owned granules of a core, ascending. -/
def ownedGranules (s : State) (core : Nat) : List Nat :=
  (s.owner.filter fun e => e.1 / 8192 = core).map fun e => e.1 % 8192

/-- The lowest run of `n` free granules at or above `start`, given the owned ones in order. -/
def freeRun (n start : Nat) : List Nat → Option Nat
  | [] => if start + n ≤ Config.granules then some start else none
  | g :: l => if start + n ≤ min g Config.granules then some start else freeRun n (g + 1) l

/-- Free bytes of a core's scratchpad (R173). -/
def spFree (s : State) (core : Nat) : Nat := (Config.granules - (ownedGranules s core).length) * 256

/-- Free tag indices of a context on a core. -/
def tagsFree (s : State) (ctx core : Nat) : Nat :=
  256 - ((ccOf s ctx core).tags.filter fun e => e.2.live).length

def freeTag (s : State) (ctx core : Nat) : Option Nat :=
  (List.range 256).find? fun i => !(tagOf s ctx core i).live

def setOwner (core base size v : Nat) (s : State) : State :=
  { s with owner := ssets 0 s.owner ((List.range (size / 256)).map fun i => (core * 8192 + base / 256 + i, v)) }

/-! ## Renewal (R172) -/

/-- A rewrite of a buffer begins: the expiry moves, and an expired buffer, or one renewed by
SPRENEW.z, is filled with zeros. Accesses to the core's scratchpad wait until RENEWAL_COMPLETE. -/
def startRewrite (ctx core idx : Nat) (zero : Bool) (s : State) : State :=
  let t := tagOf s ctx core idx
  let z := zero || expired s t
  let s := if z then zeroRange (spLoc core t.base) t.size s else s
  updTag s ctx core idx fun t => { t with
    rewrite := some z, stale := false, expiry := (fadeTick s + t.life) % 0x100000000 }

/-- A renewal begins, or waits for the one in progress (R208). -/
def renew (ctx core idx : Nat) (zero : Bool) (s : State) : State :=
  if (tagOf s ctx core idx).rewrite.isSome then
    updTag s ctx core idx fun t => { t with more := t.more ++ [zero] }
  else startRewrite ctx core idx zero s

/-! ## Order with queued accesses (R197, R220) -/

/-- An entry of the issue queues has an access to a buffer still to be performed, or may yet make one. -/
def reaches (core : Nat) (t : Tag) (e : QEntry) : Bool :=
  match e.op with
  | .dfa _ _ => true
  | op => op.rows.any fun x =>
      let top := x.addr.toNat / 0x1000000000000
      let low := x.addr.toNat % 0x1000000000000
      let off := if top = 0xFF01 then low % 0x200000 else low
      (top = 0xFF00 || (top = 0xFF01 && low / 0x200000 = core % 8)) && overlaps off (opSize x.op) t.base t.size

/-- A word of the SP class that is no plain access waits: for a FENCE to SP, or for older accesses of its unit to
the buffer that it changes (R197, R220). -/
def spHeld (s : State) (u : UView) (idx : Option Nat) : Bool :=
  fenced s (agentOf u) 32 || (match idx with
    | some i => s.queue.any fun e => olderEntry (agentOf u) e && reaches u.core (tagOf s u.ctx u.core i) e
    | none => false)

/-! ## SPALLOC (R207) -/

/-- The buffer's tag, its granules, and the handle and address it answers. -/
def allocBuffer (ctx core idx run size life : Nat) (s : State) : State :=
  let s := updTag s ctx core idx fun t =>
    { t with live := true, saved := false, base := run * 256, size := size, life := life
             gen := (if t.gen = 255 then 1 else t.gen + 1), kept := false, restoring := none, more := [], wanted := false }
  startRewrite ctx core idx true (setOwner core (run * 256) size (ctx * 256 + idx + 1) s)

/-- Gang registers from `r` upward, beside a result. -/
def setAside (u : UView) : Nat → List Word → State → State
  | _, [], s => s
  | r, x :: l, s => setAside u (r + 1) l (setGregAside u r x s)

/-- A result in gD and further gang registers above it. W suppresses the write of gD, and of none of the others: the
manual does not say what it does to them (DESIGN CHOICE, log entry 96). -/
def gangResults (d : BitVec 6) (w : Bool) (x : Word) (more : List Word) (u : UView) (s : State) : State :=
  setAside u (d.toNat + 1) more (gangResult d w x u s)

def execSpalloc (o : O3) (s : State) : Out :=
  issue (.spalloc o) { pipe := .gang, strand := o.s, dst := some o.d, w := o.w, srcs := [o.a, o.b]
                       limits := o.d.toNat < 58, more := [o.d.toNat + 1, o.d.toNat + 2], ends := true }
    (fun u acts s =>
      let size := (gsrc s u o.a).toNat
      let life := gsrc s u o.b
      if size = 0 || size > Config.spBytes || life = 0 then
        gangFail { code := 0x05, d0 := wordOf (.spalloc o) } acts u s
      else if life.toNat > Config.retention then gangFail { code := 0x10, d0 := life } acts u s
      else if spHeld s u none then hold s u .drain
      else
        let bytes := (size + 255) / 256 * 256
        match freeTag s u.ctx u.core, freeRun (bytes / 256) 0 (ownedGranules s u.core) with
        | some idx, some run =>
          let s := allocBuffer u.ctx u.core idx run bytes life.toNat s
          let h := handleOf (tagOf s u.ctx u.core idx) idx
          idem (advance (gangResults o.d o.w h [w32 (run * 256), 0xFF000000] u s) u) u
        | _, _ => idem (advance (gangResults o.d o.w 0 [0, 0] u s) u) u) s

/-! ## Handles (R169) -/

/-- The index that a handle names, if it is good. -/
def handleIdx (s : State) (ctx core : Nat) (h : Word) : Option Nat :=
  let idx := h.toNat % 256
  let t := tagOf s ctx core idx
  if h.toNat / 0x10000 = 0 && t.live && t.gen = h.toNat / 256 then some idx else none

def badHandle (h : Word) : Cause := { code := 0x0D, d0 := h }

/-- SPRENEW and SPRENEW.z (R208). -/
def renewOp (i : Instr) (zero : Bool) (o : OAB) (s : State) : Out :=
  issue i { pipe := .gang, strand := o.s, srcs := [o.a, o.b] }
    (fun u acts s =>
      let h := gsrc s u o.a
      let life := gsrc s u o.b
      match handleIdx s u.ctx u.core h with
      | none => gangFail (badHandle h) acts u s
      | some idx =>
        if life.toNat > Config.retention then gangFail { code := 0x10, d0 := life } acts u s
        else if spHeld s u (some idx) then hold s u .drain
        else if (tagOf s u.ctx u.core idx).saved then hold (wanting u.ctx (.buffer u.core idx) s) u (.buffer u.core idx)
        else
          let s := if life = 0 then s else updTag s u.ctx u.core idx fun t => { t with life := life.toNat }
          advance (renew u.ctx u.core idx zero s) u) s

def execSprenew (o : OAB) (s : State) : Out := renewOp (.sprenew o) false o s
def execSprenewZ (o : OAB) (s : State) : Out := renewOp (.sprenewZ o) true o s

/-- The gang, in any of its queues, has an access to a buffer that is not performed. -/
def bufferQueued (s : State) (u : UView) (t : Tag) : Bool :=
  s.queue.any fun e => (decide (e.core = u.core ∧ e.ctx = u.ctx ∧ e.gk = u.gk) && u.gk.isSome || olderEntry (agentOf u) e)
    && reaches u.core t e

/-- A buffer's granules and index are freed; a rewrite in progress is abandoned (R208). -/
def freeBuffer (ctx core idx : Nat) (s : State) : State :=
  let t := tagOf s ctx core idx
  let s := setOwner core t.base t.size 0 s
  updTag s ctx core idx fun t => { gen := t.gen }

def execSpfree (o : OA) (s : State) : Out :=
  issue (.spfree o) { pipe := .gang, strand := o.s, srcs := [o.a], ends := true }
    (fun u acts s =>
      let h := gsrc s u o.a
      match handleIdx s u.ctx u.core h with
      | none => gangFail (badHandle h) acts u s
      | some idx =>
        if spHeld s u none || bufferQueued s u (tagOf s u.ctx u.core idx) then hold s u .drain
        else idem (advance (freeBuffer u.ctx u.core idx s) u) u) s

/-- Tag words 0–3 (R170). -/
def tagWords (s : State) (t : Tag) : List Word :=
  [w32 ((if t.live then 0x80000000 else 0) + (if expired s t then 0x40000000 else 0)
      + (if t.saved then 0x20000000 else 0) + t.base), w32 t.size, w32 t.expiry, w32 t.life]

def execSpinfo (o : O2) (s : State) : Out :=
  issue (.spinfo o) { pipe := .gang, strand := o.s, dst := some o.d, w := o.w, srcs := [o.a]
                      limits := o.d.toNat < 57, more := [o.d.toNat + 1, o.d.toNat + 2, o.d.toNat + 3] }
    (fun u acts s =>
      let h := gsrc s u o.a
      match handleIdx s u.ctx u.core h with
      | none => gangFail (badHandle h) acts u s
      | some idx => match tagWords s (tagOf s u.ctx u.core idx) with
        | x :: l => advance (gangResults o.d o.w x l u s) u
        | [] => s) s

end Sys2Proof.Machine
end

