-- ==== Sys2Proof/Machine/Automaton.lean ====
section
/-!
DEFINITION. The automaton sequencer: votes, passes, commits, region entry and exit, fragments
returning (R31–R48), with AUTO.ENTER, AUTO.STEP, AUTO.EXIT, BNEXT and SETBLK (R121).
-/
namespace Sys2Proof.Machine

/-! ## Votes (R35) -/

def imageOf (s : State) (ctx img : Nat) : Option Image := sget none (ctxD s ctx).images img

/-- The blocks of a state. -/
def stateBlocks (im : Image) (st : Nat) : List Nat := (im.states.getD st ([], 0, 0)).1

/-- V: the user blocks that live lanes hold, ascending. -/
def voteSet (g : Gang) : List Nat := lsort ((g.live.map fun l => sget 1023 g.blk l).filter (· < 1022))

/-- The set key of R52, for one to three blocks in ascending order. -/
def setKey (v : List Nat) : Nat :=
  v.length * 0x40000000 + v.getD 0 0x3FF * 0x100000 + v.getD 1 0x3FF * 0x400 + v.getD 2 0x3FF

/-- The state that the set map lists for a vote set. -/
def listed (im : Image) (v : List Nat) : Option Nat :=
  if v.length ≤ 3 then (im.setmap.find? fun e => e.1.toNat = setKey v).map Prod.snd else none

/-- The first state of a lead list whose blocks all lie in `u`. -/
def leadState (im : Image) (u : List Nat) (leads : List Nat) : Option Nat :=
  leads.find? fun st => (stateBlocks im st).all u.contains

/-- The passes of an unlisted step. -/
def decompose (im : Image) : Nat → List Nat → List Nat
  | 0, _ => []
  | _, [] => []
  | n + 1, b :: u =>
    match leadState im (b :: u) (im.blocks.getD b (0, [])).2 with
    | none => []
    | some st => st :: decompose im n ((b :: u).filter fun x => !(stateBlocks im st).contains x)

/-- The 0x2C notice of an unlisted step (R38, R308). -/
def missNotice (img missrun : Nat) (v : List Nat) : Cause :=
  { code := 0x2C, d0 := w32 img, d1 := if v.length ≤ 3 then w32 (setKey v) else 0, d2 := w32 missrun
    d3 := w32 v.length, source := 8 }

/-- The only group of an unparted gang. -/
def onlyGroup (g : Gang) : Nat := ((sentries g.groups).map Prod.fst).headD 0

/-- A region exits (R40): the gang continues at the exit address. -/
def exitRegion (gk : Nat) (s : State) : State :=
  updGang s gk fun g => match g.region with
    | none => g
    | some r =>
      let g := { g with blk := [], pblk := [], region := none, back := [] }
      { g with groups := g.groups.map fun e => (e.1, e.2.map fun x =>
          { (x.empty) with pc := r.exitPc, wait := none }) }

/-- A pass begins: state `st`, the passes after it, and those completed before it. -/
def startPass (gk : Nat) (im : Image) (st : Nat) (rest : List Nat) (done : Nat) (s : State) : State :=
  updGang s gk fun g => match g.region with
    | none => g
    | some r => { g with
        region := some { r with state := st, passes := rest, passNo := done
                                uncovered := r.uncovered.filter fun b => !(stateBlocks im st).contains b }
        groups := g.groups.map fun e => (e.1, e.2.map fun x =>
          { (x.empty) with pc := (im.states.getD st ([], 0, 0)).2.1, wait := none }) }

/-- The counters of an unlisted step: AUTO_MISS of the context on the core, and MISSRUN; with the
notice on the increment that reaches MISSLIM. -/
def countMiss (gk : Nat) (im : Image) (v : List Nat) (at_ : Word) (scode : Bool) (s : State) : State :=
  match gang? s gk with
  | none => s
  | some g => match g.region with
    | none => s
    | some r =>
      let s := updCc s g.ctx g.core fun x => { x with autoMiss := if x.autoMiss = 0xFFFFFFFF then x.autoMiss else x.autoMiss + 1 }
      if r.missrun < 0xFFFF then
        let s := updGang s gk fun g => { g with region := some { r with missrun := r.missrun + 1 } }
        if im.misstrap && r.missrun + 1 = im.misslim then
          raiseDetached g.core g.ctx (missNotice r.img (r.missrun + 1) v) true false at_ scode s g.half
            (((group? g (onlyGroup g)).map fun x => x.cont.length).getD 0)
        else s
      else s

/-- THE VOTE, and the first pass of the next step (R35). `at_` is the position of the word after which
it is taken. -/
def vote (gk : Nat) (at_ : Word) (scode : Bool) (s : State) : State :=
  match gang? s gk with
  | none => s
  | some g => match g.region with
    | none => s
    | some r => match imageOf s g.ctx r.img with
      | none => s
      | some im =>
        let v := voteSet g
        if v = [] then
          if g.frags = [] then exitRegion gk s
          else
            let s := updGang s gk fun g => { g with region := some { r with vote := [], uncovered := [], passes := [], passNo := 0 } }
            updGroup s gk (onlyGroup g) fun x => { x with wait := some ⟨.fragments false, s.usec⟩ }
        else
          let s := updGang s gk fun g => { g with region := some { r with vote := v, uncovered := v } }
          match listed im v with
          | some st => startPass gk im st [] 0 s
          | none =>
            let s := countMiss gk im v at_ scode s
            match decompose im v.length v with
            | st :: rest => startPass gk im st rest 0 s
            | [] => s

/-- The commit (R35, R44): pending blocks, then the rejoin blocks of fragments that have returned. -/
def commit (g : Gang) : Gang :=
  let took := g.live.filterMap fun l =>
    if sget 1023 g.blk l = 1022 then none
    else match sget 0 g.pblk l with
      | 0 => none
      | b + 1 => some (l, b)
  { g with blk := ssets 1023 (ssets 1023 g.blk took) (g.back.map fun e => (e.1, e.2 - 1)), pblk := [], back := [] }

/-! ## AUTO.ENTER, AUTO.STEP, AUTO.EXIT (R39–R41) -/

/-- A cause whose detail word is the instruction word, in the acting lanes. -/
def opFail (i : Instr) (code src : Nat) (acts : List Nat) (u : UView) (s : State) : State :=
  raiseOn { code := code, d0 := wordOf i, source := src } acts u s

/-- The lowest program counter among a gang's groups (R21). -/
def lowestPc (g : Gang) : Nat := (lmin ((sentries g.groups).map fun e => e.2.pc)).getD 0

/-- The unit runs a trap handler. -/
def inHandler (u : UView) : Bool := match u.kind with
  | .grp _ => false
  | .inst _ => true

/-- A region starts: every live lane in the entry block, latches empty, and the first vote. -/
def enterRegion (gk img exitPc : Nat) (im : Image) (u : UView) (s : State) : State :=
  let s := goto s u u.pc
  let s := updGang s gk fun g => { g with
    blk := ssets 1023 [] (g.live.map fun l => (l, im.entry)), pblk := [], back := []
    region := some { img := img, exitPc := exitPc }
    groups := g.groups.map fun e => (e.1, e.2.map Group.empty) }
  vote gk (w32 u.pc) false s

def execAutoEnter (i : BitVec 6) (f : BitVec 17) (s : State) : Out :=
  issue (.autoEnter i f) { pipe := .gang }
    (fun u acts s =>
      let exitPc := (u.pc + (f.signExtend 32).toNat) % 0x100000000
      match u.gk.bind fun k => (gang? s k).map fun g => (k, g) with
      | some (k, g) =>
        if (sentries g.groups).length > 1 then
          raiseOn { code := 0x2E, d0 := w32 (lowestPc g), source := 1 } acts u s
        else if u.region.isSome || inHandler u then opFail (.autoEnter i f) 0x2D 1 acts u s
        else match imageOf s u.ctx i.toNat with
          | none => raiseOn { code := 0x2A, d0 := w32 i.toNat, source := 1 } acts u s
          | some im => enterRegion k i.toNat exitPc im u s
      | none => opFail (.autoEnter i f) 0x2D 1 acts u s) s

/-- The pass ends: the next one of the step, or the commit and a vote (R35, R36). -/
def endPass (gk : Nat) (r : Region) (u : UView) (s : State) : State :=
  let at_ := (whereAt u).1
  let s := goto s u u.pc
  match r.passes, imageOf s u.ctx r.img with
  | st :: rest, some im => startPass gk im st rest (r.passNo + 1) s
  | _, _ =>
    let s := updGang s gk fun g =>
      let g := commit g
      { g with groups := g.groups.map fun e => (e.1, e.2.map Group.empty) }
    vote gk at_ true s

def execAutoStep (s : State) : Out :=
  issue .autoStep { pipe := .gang, always := true }
    (fun u acts s => match u.region, u.gk with
      | some r, some gk => endPass gk r u s
      | _, _ => opFail .autoStep 0x2F 1 acts u s) s

def execAutoExit (s : State) : Out :=
  issue .autoExit { pipe := .gang, always := true }
    (fun u acts s => match u.region, u.gk with
      | some r, some gk =>
        let s := goto s u u.pc
        let s := updGang s gk fun g => { g with
          blk := ssets 1023 [] ((g.live.filter fun l =>
            sget 1023 g.blk l = 1022 && sget 0 g.back l = 0).map fun l => (l, 1022))
          pblk := [], back := [], region := some { r with passes := [] }
          groups := g.groups.map fun e => (e.1, e.2.map Group.empty) }
        match gang? s gk with
        | some g =>
          if g.frags = [] then exitRegion gk s
          else updGroup s gk (onlyGroup g) fun x => { x with wait := some ⟨.fragments true, s.usec⟩ }
        | none => s
      | _, _ => opFail .autoExit 0x2F 1 acts u s) s

/-- A fragment has left a gang, by return or by exit: a gang that waits for fragments goes on (R35,
R41, R44). -/
def fragmentGone (gk : Nat) (s : State) : State :=
  match gang? s gk with
  | none => s
  | some g => match g.region, (sentries g.groups).head? with
    | some r, some e => match e.2.wait with
      | some ⟨.fragments true, _⟩ => if g.frags = [] then exitRegion gk s else s
      | some ⟨.fragments false, _⟩ => vote gk (codePos r.img e.2.pc) true s
      | _ => s
    | _, _ => s

/-! ## BNEXT and SETBLK (R32, R44) -/

/-- NB of the image that a gang's region runs. -/
def blockCount (s : State) (u : UView) : Nat :=
  match (u.gk.bind (gang? s)).bind Gang.region with
  | some r => ((imageOf s u.ctx r.img).map Image.nb).getD 0
  | none => 0

/-- A user block of the image, or DONE. -/
def blockOk (nb : Nat) (v : Word) : Bool := v.toNat < nb || v.toNat = 1023

def execBnext (o : OA) (s : State) : Out :=
  issue (.bnext o) { pipe := .lane, strand := o.s, srcs := [o.a] }
    (fun u acts s => match u.region with
      | none => opFail (.bnext o) 0x2F 0 acts u s
      | some _ =>
        let nb := blockCount s u
        finishLanes (acts.map fun l =>
            let v := vsrc s u o.a l
            (l, if blockOk nb v then LaneRes.ok v else .bad { code := 0x2B, d0 := v }))
          (fun rs u s => match u.gk with
            | some gk => updGang s gk fun g => { g with pblk := ssets 0 g.pblk (rs.map fun e => (e.1, e.2.toNat + 1)) }
            | none => s) u s) s

/-- The fragment that a unit's handler serves: the instance's number and the gang's key. -/
def servedFrag (s : State) (u : UView) : Option (Nat × Nat) :=
  match u.kind with
  | .grp _ => none
  | .inst id => match (inst? s id).map Inst.serves with
    | some (.frag gk) => some (id, gk)
    | _ => none

def execSetblk (o : OA) (s : State) : Out :=
  issue (.setblk o) { pipe := .lane, strand := o.s, srcs := [o.a] }
    (fun u acts s => match servedFrag s u with
      | some (id, gk) =>
        let v := vsrc s u o.a (leadLane acts)
        if blockOk (blockCount s u) v then
          advance (updGang s gk fun g => { g with frags := g.frags.map fun f =>
            if f.inst = id then { f with rejoin := f.rejoin.map fun e => (e.1, v.toNat) } else f }) u
        else raiseOn { code := 0x2B, d0 := v } acts u s
      | none => opFail (.setblk o) 0x2F 0 acts u s) s

end Sys2Proof.Machine
end

