-- ==== Sys2Proof/Machine/Fence.lean ====
section
/-!
DEFINITION. FENCE and FLUSH (R214, R215, R229).
-/
namespace Sys2Proof.Machine

/-- An ordering entry joins the unit's queue. -/
def enqueueOp (u : UView) (op : QueueOp) (s : State) : State := enqueue u op none true u.lanes s

/-- A FENCE whose condition holds leaves at once; another waits in the queue and the unit goes on. -/
def execFence (o : O3n) (s : State) : Out :=
  issue (.fence o) { pipe := .gang, strand := o.s }
    (fun u _ s =>
      if complete s (agentOf u) o.d.toNat o.b.toNat then advance s u
      else advance (enqueueOp u (.fence o.d.toNat o.a.toNat o.b.toNat) s) u) s

/-- A queue entry writes. -/
def entryWrites (op : QueueOp) : Bool :=
  match op with
  | .accesses xs => xs.any fun x => match x.op with
    | .load _ _ => false
    | .latest => false
    | _ => true
  | .stv _ _ _ => true
  | _ => false

/-- The conditions of R215 on the writes that the gang has issued, in any of its queues, before the FLUSH: none is
queued, in the Gutter, in the store buffer, or still to be taken by a die (log entry 16). -/
def flushed (s : State) (a : Agent) : Bool :=
  !(s.queue.any (fun e => decide (e.core = a.core ∧ e.ctx = a.ctx ∧ (e.gk = a.gk ∧ a.gk.isSome ∨ olderEntry a e))
        && entryWrites e.op && !(a.qids.contains e.qid && decide (a.seq ≤ e.seq)))
    || s.gutter.any (fun e => decide (e.core = a.core ∧ e.ctx = a.ctx ∧ e.gk = a.gk))
    || s.sb.any (fun e => decide (e.core = a.core ∧ e.ctx = a.ctx ∧ e.gk = a.gk))
    || s.homeq.any (fun e => decide (e.core = a.core ∧ e.ctx = a.ctx ∧ e.gk = a.gk))
    || s.pubs.any (fun e => decide (e.ctx = a.ctx ∧ e.gk = a.gk)))

/-- FLUSH holds the unit until its conditions hold. -/
def execFlush (o : OAB) (s : State) : Out :=
  issue (.flush o) { pipe := .gang, strand := o.s, srcs := [o.b], gs := basePair o.a }
    (fun u acts s =>
      let addr := gpair s u o.a.toNat
      let len := (gsrc s u o.b).toNat
      if len = 0 then advance s u
      else if addr.toNat + len > 0x100000000000000 then
        raiseOn { addrCause 0x08 addr 1 with source := 1 } acts u s
      else if flushed s (agentOf u) then advance s u
      else hold s u .flush) s

end Sys2Proof.Machine
end

