-- ==== Sys2Proof/Machine/Fetch.lean ====
section
/-!
DEFINITION. Fetching instruction words (R53, R56, R321), and what a word that is no instruction does
(R71).
-/
namespace Sys2Proof.Machine

/-- What a fetch comes to. -/
inductive Fetched where
  | word (w : Word)
  | bad (c : Cause)
  | miss (page : Nat)
deriving DecidableEq, Repr

/-- The word at the unit's counter: in a region from the sealed image's code area, elsewhere from
the global window at four times the word address, with fetch permission. -/
def fetch (s : State) (u : UView) : Fetched :=
  match u.region with
  | some r => match sget none (ctxD s u.ctx).images r.img with
    | some im => .word (im.code.getD u.pc 0)
    | none => .word 0
  | none =>
    let a := agentOf u
    match vaCheck s a (u.pc * 4) 4 4 (BitVec.ofNat 64 (u.pc * 4)) false with
    | .ok p => .word (w32 (leNat (spotBytes s u.core u.ctx none p 4)))
    | .bad c => .bad c
    | _ => .miss (u.pc * 4 / 0x10000)

/-! ## Formats (R57–R60) -/

/-- A word of format W, of format B, or AUTO.ENTER, which uses the footprint of format B: none of them has the
fields S, W and H. -/
def wordW (w : Word) : Bool := (fOp w).toNat = 0x3E
def wordB (w : Word) : Bool := fPipe w = .gang && decide (0xC0 ≤ (fOp w).toNat ∧ (fOp w).toNat ≤ 0xC3)
def wordEnter (w : Word) : Bool := fPipe w = .gang && (fOp w).toNat = 0xD0

/-- The strand of a word: S, or 0 in a format without that field (R69). A word whose opcode is unassigned has no
format: that its bits 4:3 name a strand too is the model's own choice (DESIGN CHOICE, log entry 100). -/
def strandOf (w : Word) : Nat := if wordW w || wordB w || wordEnter w then 0 else (fS w).toNat

/-- The check that a rejected word fails whose opcode is assigned: of its reserved fields (0x03), but that in state
code S is none, and RETT and MOVS, whose other fields are good, fail the next check there, which is that of their
privilege, or MOVS the one of its place (R69, R71, R79, R135). -/
def rejectedCode (w : Word) (u : UView) : Nat :=
  let rest := w &&& 0xFFFFFFE7#32
  let moves := fPipe w = .gang && fOp w = 0xF8 && (fB w = 0 || (fB w = 1 && !fW w))
  if u.region.isNone then 0x03
  else if rest = 0xFA000000#32 then 0x04
  else if moves then (if u.priv then 0x05 else 0x04)
  else 0x03

/-- A word that the decoder rejects raises its cause in the lanes of its strand (R71); the detail
word is the word itself (R307). Where its strand has no active lane it does nothing (R33; of an unassigned opcode
log entry 100). -/
def illegalWord (w : Word) (r : Reject) (u : UView) (s : State) : State :=
  let gangPipe := fPipe w = .gang
  let code := match r with
    | .illegalOpcode => 0x02
    | _ => rejectedCode w u
  let acts := actingLanes s u (if u.region.isSome then strandOf w else 0)
  if u.region.isSome && acts = [] then advance s u
  else raiseOn { code := code, d0 := w, source := if gangPipe then 1 else 0 } acts u s

end Sys2Proof.Machine
end

