-- ==== Sys2Proof/Machine/Versions.lean ====
section
/-!
DEFINITION. Versioned regions: reads by number, version stores, pins and floors (R181–R193, R205, R206).
-/
namespace Sys2Proof.Machine

/-- The version operand that stands for the latest (R184). -/
def latestVersion : Word := 0xFFFFFFFF

/-! ## Reading (R185) -/

inductive VRead where
  | bytes (bs : List Byte)
  | bad (c : Cause)
  | wait
deriving DecidableEq, Repr

/-- OLD of a line (R184, R190): every VFLOOR has raised it to the floor. -/
def oldOf (r : VRegion) (l : Line) : Nat := max l.old r.floor

/-- The cause of reading an uncorrectable word of the version that serves `n` (R307, R319): a stored version lies
in the context's heap, version 0 in the memory of the region. -/
def lineCause (s : State) (die ctx va n : Nat) : Cause :=
  match serving (lineOf s ctx va) n with
  | some v => tierCause (Config.heapBase ctx + 64 * v.heap + va % 64) 0
  | none => tierCause ((translate s die ctx va 1).getD va) 0

def readVersion (s : State) (die ctx va : Nat) (n : Word) : VRead :=
  match regionAt s ctx va with
  | none => .bad (addrCause 0x15 (BitVec.ofNat 64 va) 0)
  | some (_, r) =>
    let l := lineOf s ctx va
    let k := if n = latestVersion then l.latest else n.toNat
    if n ≠ latestVersion && n.toNat < oldOf r l then .bad { code := 0x11, d0 := n }
    else if k > l.latest then .wait
    else if lineBad r l va k then .bad (lineCause s die ctx va k)
    else .bytes (versionBytes r l (va / 64) k)

/-- The word at an address in a line's bytes. -/
def wordIn (bs : List Byte) (va : Nat) : Word := w32 (leNat ((bs.drop (va % 64)).take 4))

/-! ## Units that wait for a version (R188, R191) -/

/-- The view of any unit. -/
def viewOf (s : State) (ref : UnitRef) : Option UView := unitView { s with cur := some ref }

/-- A change of the wait of every unit of a context. -/
def mapWaits (ctx : Nat) (f : Wait → Wait) (s : State) : State :=
  { s with
    gangs := s.gangs.map fun e => (e.1, e.2.map fun g => if g.ctx = ctx then
      { g with groups := g.groups.map fun r => (r.1, r.2.map fun r => { r with wait := r.wait.map f }) } else g)
    insts := s.insts.map fun e => (e.1, e.2.map fun i => if i.ctx = ctx then { i with wait := i.wait.map f } else i) }

/-- Every unit of a context that has a wait, with it. -/
def waits (s : State) (ctx : Nat) : List (UnitRef × Wait) :=
  ((sentries s.gangs).filter fun e => e.2.ctx = ctx).flatMap (fun e =>
      (sentries e.2.groups).filterMap fun r => r.2.wait.map fun w => (UnitRef.grp e.1 r.1, w))
    ++ ((sentries s.insts).filter fun e => e.2.ctx = ctx).filterMap fun e => e.2.wait.map fun w => (UnitRef.inst e.1, w)

/-- Rows of a waiting LDV fail with a cause: in linear code the unit stops; in state code their lanes are set aside, to
be parked when the word completes, and the other rows wait on (R46, R188, R317). -/
def failRows (u : UView) (rows : List (Nat × Nat × Word)) (got : List (Nat × Word)) (since : Nat)
    (hit : Nat × Nat × Word → Bool) (c : Cause) (s : State) : State :=
  let lanes := (rows.filter hit).map Prod.fst
  if lanes = [] then s
  else if u.region.isNone then raise c lanes u s
  else
    let w : Wait := ⟨.version (rows.filter fun e => !hit e) got, since⟩
    onIssuer (setFailed (lanes.map fun l => (l, c)) u s) u (fun r => { r with wait := some w }) (fun i => { i with wait := some w })

/-- Waiting reads that `hit` picks raise a cause; the lanes that were served keep what they got. -/
def failReaders (ctx : Nat) (hit : Nat × Nat × Word → Bool) (c : Cause) (s : State) : State :=
  (waits s ctx).foldl (fun s e => match e.2.on, viewOf s e.1 with
    | .version rows got, some u => failRows u rows got e.2.since hit c s
    | _, _ => s) s

/-- Reads of a line that wait for a number up to `m` raise a pin conflict (R191). -/
def conflictReaders (ctx line m : Nat) (c : Cause) (s : State) : State :=
  failReaders ctx (fun e => decide (e.2.1 / 64 = line) && decide (e.2.2.toNat ≤ m)) c s

/-- Reads that wait on a line are served as LATEST reaches their number, with the version that serves it then,
whatever the floor has become (R185, R188). -/
def serveReaders (ctx line : Nat) (s : State) : State :=
  match regionAt s ctx (line * 64) with
  | none => s
  | some (_, r) =>
    let l := lineOf s ctx (line * 64)
    let due (e : Nat × Nat × Word) : Bool := decide (e.2.1 / 64 = line) && decide (e.2.2.toNat ≤ l.latest)
    let done (e : Nat × Nat × Word) : Bool := due e && !lineBad r l e.2.1 e.2.2.toNat
    let word (e : Nat × Nat × Word) : Word := wordIn (versionBytes r l line e.2.2.toNat) e.2.1
    let s := mapWaits ctx (fun w => match w.on with
      | .version rows got => { w with on := .version (rows.filter fun e => !done e)
                                        (got ++ (rows.filter done).map fun e => (e.1, word e)) }
      | _ => w) s
    failReaders ctx due (lineCause s 0 ctx (line * 64) l.latest) s

/-! ## Nodes that wait for operands (R293, R294) -/

/-- Every line of an operand's span has LATEST at or above the version: (first line, last line, version). -/
def operandExists (x : Context) (o : Nat × Nat × Nat) : Bool :=
  (x.lines.filter fun e => decide (o.1 ≤ e.1 ∧ e.1 ≤ o.2.1 ∧ o.2.2 ≤ e.2.latest)).length = o.2.1 + 1 - o.1

/-- A WAITING node of which no predecessor is left in the pool and every operand exists. -/
def nodeReady (s : State) (n : Node) : Bool :=
  n.preds.all (fun k => (sget none s.pool k).isNone) && n.opds.all (operandExists (ctxD s n.ctx))

/-- WAITING nodes of a context become READY as soon as they may. -/
def settleNodes (ctx : Nat) (s : State) : State :=
  { s with pool := s.pool.map fun e => (e.1, e.2.map fun n =>
      if n.ctx = ctx ∧ n.phase = .waiting ∧ nodeReady s n then { n with phase := .ready } else n) }

/-! ## Version stores (R186) -/

/-- Heap lines that hold no stored version (R376). -/
def heapFree (x : Context) : Nat := x.vheap - (x.lines.map fun e => e.2.vers.length).foldl (· + ·) 0

/-- Heap lines that hold a stored version, ascending. -/
def heapUsed (x : Context) : List Nat := lsort (x.lines.flatMap fun e => e.2.vers.map Version.heap)

/-- The `n`-th heap line of those that hold no stored version. -/
def freeHeapLine (n : Nat) (used : List Nat) : Nat := used.foldl (fun k u => if u ≤ k then k + 1 else k) n

/-- The heap line that a new version takes: a free one, which one the manual leaves open (log entry 22). -/
def heapDraw (s : State) (x : Context) : Nat :=
  freeHeapLine ((Config.freeWord s.fresh).toNat % max 1 (heapFree x)) (heapUsed x)

inductive VCheck where
  | ok
  /-- A cause, and for a pin conflict the line. -/
  | bad (c : Cause) (conflict : Option Nat)
  | wait (line : Nat)
deriving DecidableEq, Repr

/-- The checks of R186 and R192 on the lines a store touches, in order; `need` counts heap lines asked
for so far. -/
def checkLines (s : State) (ctx m : Nat) (badOperand : Cause) : List Nat → Nat → VCheck
  | [], _ => .ok
  | line :: rest, need =>
    match regionAt s ctx (line * 64) with
    | none => .bad (addrCause 0x15 (BitVec.ofNat 64 (line * 64)) 1) none
    | some (_, r) =>
      let l := lineOf s ctx (line * 64)
      if m = 0 ∨ m = 0xFFFFFFFF then .bad badOperand none
      else if m ≤ l.latest ∨ (l.staged.map fun x => decide (m ≤ x.1)) = some true then
        .bad { code := 0x13, d0 := w32 m } none
      else if l.staged.isSome then .wait line
      else if l.vers.length ≥ 8 then
        let v1 := (l.vers.getD 1 ⟨0, 0, [], []⟩).num
        match r.pins.find? fun p => decide (oldOf r l ≤ p.1 ∧ p.1 < v1) with
        | some p => .bad { code := 0x14, d0 := 1, d1 := w32 (line * 64), d2 := w32 (line * 64 / 0x100000000), d3 := w32 p.1 } (some line)
        | none => checkLines s ctx m badOperand rest need
      else if heapFree (ctxD s ctx) < need + 1 then .bad { code := 0x14, d0 := 2 } none
      else checkLines s ctx m badOperand rest (need + 1)

/-- The bytes of a line with some replaced: (offset, byte), later ones winning. -/
def patched (bs : List Byte) (ws : List (Nat × Byte)) : List Byte := ws.foldl (fun b e => lset b e.1 e.2) bs

/-- Version `m` of a line appended, with its uncorrectable words (R186): the oldest of eight is dropped and its heap
line reused. -/
def appendVersion (ctx line m : Nat) (new : List Byte) (bad : List Nat) (s : State) : State :=
  let l := lineOf s ctx (line * 64)
  let full := decide (l.vers.length ≥ 8)
  let heap := if full then (l.vers.headD ⟨0, 0, [], []⟩).heap else heapDraw s (ctxD s ctx)
  let kept := if full then l.vers.drop 1 else l.vers
  let l' : Line := { l with vers := kept ++ [⟨m, heap, new, bad⟩], latest := m
                            old := if full then (kept.headD ⟨m, 0, [], []⟩).num else l.old }
  let s := updCtx s ctx fun x => { x with lines := sset {} x.lines line l' }
  settleNodes ctx (serveReaders ctx line (drawn s))

/-- The uncorrectable words of a line's latest version. -/
def latestBad (s : State) (ctx line : Nat) : List Nat :=
  match regionAt s ctx (line * 64) with
  | some (_, r) => (List.range 16).filter fun i => lineBad r (lineOf s ctx (line * 64)) (line * 64 + 4 * i) (lineOf s ctx (line * 64)).latest
  | none => []

/-- A new version of a line with some bytes replaced, the rest carried over, and with it the uncorrectable words that
the store does not cover. -/
def storeVersion (ctx m line : Nat) (ws : List (Nat × Byte)) (s : State) : State :=
  let covered (i : Nat) : Bool := [0, 1, 2, 3].all fun k => ws.any fun e => e.1 = 4 * i + k
  appendVersion ctx line m (patched (latestBytes s ctx (line * 64)) ws)
    ((latestBad s ctx line).filter fun i => !covered i) s

/-- The lines that a version store touches, in the order of its lanes. -/
def storeLinesOf (xs : List Access) : List Nat := distinct (xs.map fun x => x.addr.toNat / 64)

/-- The checks of R186 and R192 on a version store. -/
def stvCheck (s : State) (ctx m : Nat) (badOperand : Cause) (xs : List Access) : VCheck :=
  checkLines s ctx m badOperand (storeLinesOf xs) 0

/-- The bytes that a version store writes to a line: (offset, byte), in the order of its lanes. -/
def lineWrites (xs : List Access) (line : Nat) : List (Nat × Byte) :=
  (xs.filter fun x => x.addr.toNat / 64 = line).flatMap fun x => match x.op with
    | .store n d => placed (x.addr.toNat % 64) (natLe n d.toNat)
    | _ => []

/-- A VERSION STORE is applied: version `m` of every line it touches (R186, R199). -/
def storeLines (ctx m : Nat) (xs : List Access) (s : State) : State :=
  (storeLinesOf xs).foldl (fun s line => storeVersion ctx m line (lineWrites xs line) s) s

/-! ## LDV, STV, VLATEST (R205) -/

/-- What holds a versioned access back before it is looked at: its queue, or the Gutter (R200, R220). -/
def verHold (s : State) (u : UView) (xs : List Access) : Option WaitOn :=
  let a := agentOf u
  if blocked s a (.accesses xs) then some .drain
  else (xs.find? (behindGutter s a)).map fun x => .gutter (some (x.addr.toNat / 64))

/-- The lanes' reads of versions, with what the checks of R196 say. -/
def verReads (s : State) (u : UView) (a b : BitVec 6) (acts : List Nat) : List (Access × AccRes) :=
  acts.map fun l =>
    let x : Access := { lane := l, addr := addrReg s u a b l, op := .latest }
    (x, resolve s (agentOf u) .globalOnly l x.addr 4 1 true)

/-- LDV that has not begun to wait: every page first, then the versions, then the wait (R185, R188, R196). -/
def ldvFirst (o : O3) (n : Word) (u : UView) (acts : List Nat) (s : State) : State :=
  let sp := verReads s u o.a o.b acts
  match verHold s u (sp.map Prod.fst) with
  | some w => hold s u w
  | none =>
    let late := if accMisses sp ≠ [] then []
      else (accOks sp).map fun e => (e.1.lane, e.1.addr.toNat, readVersion s (dieNo u.core) u.ctx e.1.addr.toNat n)
    let bads := byLane (accBads sp ++ late.filterMap fun e => match e.2.2 with
      | .bad c => some (e.1, c)
      | _ => none)
    let rows := late.filterMap fun e => match e.2.2 with
      | .wait => some (e.1, e.2.1, n)
      | _ => none
    let got := late.filterMap fun e => match e.2.2 with
      | .bytes bs => some (e.1, wordIn bs e.2.1)
      | _ => none
    let go (s : State) : State :=
      if accMisses sp ≠ [] then holdPages (accMisses sp) u s
      else if rows = [] then advance (laneResult o.d o.w got u s) u
      else hold s u (.version rows got)
    match leadCause bads with
    | none => go s
    | some c =>
      if u.region.isNone || bads.length = sp.length then raiseOn c (bads.map Prod.fst) u s else go (setFailed bads u s)

def execLdv (o : O3) (s : State) : Out :=
  issue (.ldv o) { pipe := .lane, strand := o.s, dst := some o.d, w := o.w, srcs := [o.b]
                   gs := [o.a.toNat, o.a.toNat + 1, o.a.toNat + 2] }
    (fun u acts s => match waitOf s u with
      | some ⟨.version [] got, _⟩ =>
        advance (laneResult o.d o.w (got.filter fun e => acts.contains e.1) u s) u
      | some ⟨.version _ _, _⟩ => s
      | _ => ldvFirst o (greg s u (o.a.toNat + 2)) u acts s) s

/-- STV: applied at once, or, behind an older access or where the oracle defers it, from the unit's queue (R220,
R230). Its cause is the whole instruction's (R205). -/
def execStv (o : O3n) (s : State) : Out :=
  issue (.stv o) { pipe := .lane, strand := o.s, srcs := [o.d, o.b]
                   gs := [o.a.toNat, o.a.toNat + 1, o.a.toNat + 2], ends := true }
    (fun u acts s =>
      let a := agentOf u
      let m := (greg s u (o.a.toNat + 2)).toNat
      let xs : List Access := acts.map fun l => { lane := l, addr := addrReg s u o.a o.b l, op := .store 4 (vsrc s u o.d l) }
      let rs := xs.map fun x => (x, resolve s a .globalOnly x.lane x.addr 4 2 true)
      let badOperand : Cause := { code := 0x05, d0 := wordOf (.stv o) }
      match leadCause (accBads rs) with
      | some c => raiseOn c acts u s
      | none =>
        if accMisses rs ≠ [] then holdPages (accMisses rs) u s
        else if xs ≠ [] && (m = 0 || m = 0xFFFFFFFF) then raiseOn badOperand acts u s
        else if blocked s a (.stv m xs none) || (xs ≠ [] && defersNow s) then
          idemAccess (advance (defersNext (enqueue u (.stv m xs none) none false acts s)) u) u
        else match xs.find? (behindGutter s a) with
          | some x => hold s u (.gutter (some (x.addr.toNat / 64)))
          | none => match stvCheck s u.ctx m badOperand xs with
            | .wait line => hold s u (.staged line)
            | .bad c conflict =>
              let s' := raiseOn c acts u s
              match conflict with
              | some line => conflictReaders u.ctx line m c s'
              | none => s'
            | .ok => idem (advance (defersNext (storeLines u.ctx m xs s)) u) u) s

/-- VLATEST is an access of the VER class that reads LATEST when it is performed. -/
def execVlatest (o : O3) (s : State) : Out :=
  issue (.vlatest o) { pipe := .lane, strand := o.s, dst := some o.d, w := o.w, srcs := [o.b], gs := basePair o.a }
    (fun u acts s => access { pipe := .lane, reach := .globalOnly, dst := some o.d, w := o.w }
      (acts.map fun l => { lane := l, addr := addrReg s u o.a o.b l, op := .latest }) u acts s) s

/-! ## Pins and floors (R189, R190, R206) -/

/-- What a pin or floor operation comes to: a cause, or the region's new record. -/
inductive PinRes where
  | ok (r : VRegion)
  | bad (c : Cause)

def pinAdd (n : Nat) (badOperand : Cause) (r : VRegion) : PinRes :=
  if n = 0xFFFFFFFF then .bad badOperand
  else if n < r.floor then .bad { code := 0x11, d0 := w32 n }
  else match r.pins.find? fun p => p.1 = n with
    | some p =>
      if p.2 = 65535 then .bad { code := 0x14, d0 := 4 }
      else .ok { r with pins := r.pins.map fun q => if q.1 = n then (n, q.2 + 1) else q }
    | none =>
      if r.pins.length ≥ 8 then .bad { code := 0x14, d0 := 3 } else .ok { r with pins := r.pins ++ [(n, 1)] }

def pinDrop (n : Nat) (badOperand : Cause) (r : VRegion) : PinRes :=
  match r.pins.find? fun p => p.1 = n with
  | none => .bad badOperand
  | some _ => .ok { r with pins := (r.pins.map fun q => if q.1 = n then (n, q.2 - 1) else q).filter fun q => q.2 ≠ 0 }

def floorRaise (f : Nat) (badOperand : Cause) (r : VRegion) : PinRes :=
  if f = 0xFFFFFFFF then .bad badOperand
  else if f < r.floor then .bad { code := 0x13, d0 := w32 f }
  else if r.pins.any fun p => p.1 < f then .bad { code := 0x14, d0 := 5 }
  else .ok { r with floor := f }

/-- Stored versions whose next newer version has a number up to the floor are dropped (R190). -/
def dropBelow (f : Nat) : List Version → List Version
  | v :: w :: l => if w.num ≤ f then dropBelow f (w :: l) else v :: w :: l
  | l => l

/-- An older versioned access in the unit's queue, on whatever line, or a FENCE to them (R193, R220). -/
def verQueued (s : State) (a : Agent) : Bool :=
  fenced s a 8 || s.queue.any fun e => olderEntry a e && entryClass e.op &&& 8 ≠ 0

/-- A region's new record; a floor, raised or not, drops what it no longer keeps (R190). -/
def setRegion (ctx k : Nat) (floors : Bool) (r : VRegion) (s : State) : State :=
  updCtx s ctx fun x => { x with
    regions := sset none x.regions k (some r)
    lines := if !floors then x.lines
      else x.lines.map fun e => if r.base / 64 ≤ e.1 ∧ e.1 < (r.base + r.size) / 64 then
        (e.1, { e.2 with vers := dropBelow r.floor e.2.vers }) else e }

/-- VPIN, VUNPIN and VFLOOR: the region that holds the address, and the number in gB. -/
def pinOp (i : Instr) (floors : Bool) (o : OAB) (f : Nat → Cause → VRegion → PinRes) (s : State) : Out :=
  issue i { pipe := .gang, strand := o.s, srcs := [o.b], gs := basePair o.a, ends := true }
    (fun u acts s =>
      let addr := gpair s u o.a.toNat
      let bad (c : Cause) : State := raiseOn { c with source := 1 } acts u s
      if verQueued s (agentOf u) then hold s u .drain
      else if s.gutter ≠ [] && gutterHas s (agentOf u) addr.toNat then hold s u (.gutter (some (addr.toNat / 64)))
      else if addr.toNat / 0x1000000000000 > 0xFF then bad (addrCause 0x08 addr 1)
      else match regionAt s u.ctx addr.toNat with
        | none => bad (addrCause 0x15 addr 1)
        | some (k, r) => match f (gsrc s u o.b).toNat { code := 0x05, d0 := wordOf i } r with
          | .bad c => bad c
          | .ok r' => idem (advance (setRegion u.ctx k floors r' s) u) u) s

def execVpin (o : OAB) (s : State) : Out := pinOp (.vpin o) false o pinAdd s
def execVunpin (o : OAB) (s : State) : Out := pinOp (.vunpin o) false o pinDrop s
def execVfloor (o : OAB) (s : State) : Out := pinOp (.vfloor o) true o floorRaise s

end Sys2Proof.Machine
end

