-- ==== Sys2Proof/Machine/Sync.lean ====
section
/-!
DEFINITION. Barriers, cohorts and timelines (R26–R28, R122–R131, R233).
-/
namespace Sys2Proof.Machine

/-! ## Barriers: storage (R122, R124) -/

def barKey (ctx core n : Nat) : Nat := (ctx * 1024 + core) * 256 + n

def barOf (s : State) (key : Nat) : Barrier := sget {} s.bars key

def setBar (key : Nat) (b : Barrier) (s : State) : State := { s with bars := sset {} s.bars key b }

/-- The record that serves barrier `n` of a core: its own, or the shared one of a cluster-scope
barrier. -/
def barHome (s : State) (ctx core n : Nat) : Nat :=
  match (barOf s (barKey ctx core n)).shared with
  | some c => barKey ctx c n
  | none => barKey ctx core n

/-! ## Cohorts: storage (R26) -/

/-- The key of a cohort as a unit names it: IDs 0–15 are the core's, 16–31 those of the cluster of its launch
(R26, R287). -/
def cohKey (s : State) (u : UView) (id : Nat) : Nat :=
  if id < 16 then u.ctx * 65536 + u.core * 32 + id
  else
    let l := (launchOf s (agentOf u)).getD (0, 0)
    ((l.1 * 0x1000000 + l.2 + 1) * 65536 + u.ctx) * 65536 + 1024 * 32 + id

def cohOf (s : State) (key : Nat) : Cohort := sget {} s.cohs key

def setCoh (key : Nat) (c : Cohort) (s : State) : State := { s with cohs := sset {} s.cohs key c }

/-- Members present. -/
def present (c : Cohort) : Nat := (c.members.filter fun m => m.2.2).length

def isMember (c : Cohort) (gk : Nat) : Bool := c.members.any fun m => m.1 = gk && m.2.2

/-! ## Copy processors: their words and waits -/

def xpOf (s : State) (core p : Nat) : Xp := if p = 0 then (coreOf s core).xp0 else (coreOf s core).xp1

def updXp (core p : Nat) (f : Xp → Xp) (s : State) : State :=
  updCore s core fun c => if p = 0 then { c with xp0 := f c.xp0 } else { c with xp1 := f c.xp1 }

/-- Word offsets count modulo 2^62, so that four times one is an offset modulo 2^64. -/
def xpWrap (i : Int) : Nat := (i % (2 ^ 62 : Int)).toNat

/-- The processor goes on at word `pc`. -/
def xpGoto (core p pc : Nat) (s : State) : State :=
  updXp core p (fun x => { x with pc := pc, state := .run, wait := none, lastCmd := none }) s

def xpNext (core p : Nat) (s : State) : State := xpGoto core p (xpWrap (((xpOf s core p).pc : Int) + 1)) s

/-! ## Waits that end at their word -/

/-- The lanes that a waiting instruction acts on: those of its strand. -/
def waitLanes (s : State) (u : UView) : List Nat :=
  match fetch s u with
  | .word w => actingLanes s u (if u.region.isSome then strandOf w else 0)
  | _ => u.lanes

/-- A unit's wait ends with a cause. -/
def failWait (ref : UnitRef) (c : Cause) (s : State) : State :=
  match viewOf s ref with
  | some u => raiseOn c (waitLanes s u) u s
  | none => s

/-- A unit's wait ends, and its instruction with it. -/
def finishWait (ref : UnitRef) (s : State) : State :=
  match viewOf s ref with
  | some u => advance s u
  | none => s

/-- The units of a context that wait at a barrier, with their tokens. -/
def barWaiters (s : State) (ctx key : Nat) : List (UnitRef × Nat) :=
  (waits s ctx).filterMap fun e => match e.2.on with
    | .bar k tok => if k = key then some (e.1, tok) else none
    | _ => none

/-- The copy processors that wait at a barrier, with their tokens. -/
def barProcs (s : State) (key : Nat) : List ((Nat × Nat) × Nat) :=
  s.cores.flatMap fun e => [0, 1].filterMap fun p => match (xpOf s e.1 p).wait with
    | some ⟨.bar k tok, _⟩ => if k = key then some ((e.1, p), tok) else none
    | _ => none

/-! ## Phases (R123, R126, R127) -/

/-- Arrivals that the next phase expects. -/
def nextExpect (s : State) (b : Barrier) : Nat :=
  match b.coh with
  | some k => present (cohOf s k)
  | none => b.expect

/-- done(k) of R125. -/
def phaseDone (b : Barrier) (k : Nat) : Bool :=
  let d := (b.phase + 65536 - k % 65536) % 65536
  decide (1 ≤ d ∧ d ≤ 32767)

/-- The waiters on phases that are done are released: their BAR.WAIT or WAITB completes (R123). -/
def releaseBar (key : Nat) (s : State) : State :=
  let b := barOf s key
  let s := (barWaiters s (key / 256 / 1024) key).foldl (fun s e => if phaseDone b e.2 then finishWait e.1 s else s) s
  (barProcs s key).foldl (fun s e => if phaseDone b e.2 then xpNext e.1.1 e.1.2 s else s) s

/-- The current phase completes, if everything of R123 holds, and its waiters are released; INIT falls when every
bound gang has left (R126). -/
def settlePhase (key : Nat) (s : State) : State :=
  let b := barOf s key
  if b.init && !b.poison && b.bytes = 0 && b.arrived = b.now then
    releaseBar key (setBar key { b with phase := (b.phase + 1) % 65536, arrived := 0, now := nextExpect s b
                                        init := !(b.coh = none && b.expect = 0) } s)
  else s

/-- POISON is set: from that moment every waiter on an incomplete phase raises 0x26 (R127); a copy processor does so
at its word. -/
def poisonBar (key : Nat) (s : State) : State :=
  let s := setBar key { barOf s key with poison := true } s
  let s := (barWaiters s (key / 256 / 1024) key).foldl (fun s e =>
    failWait e.1 { code := 0x26, d0 := w32 (key % 256), source := 1 } s) s
  (barProcs s key).foldl (fun s e => updXp e.1.1 e.1.2 (fun x => { x with wait := some ⟨.poisoned, s.usec⟩ }) s) s

/-- One arrival is counted (R233). -/
def countArrival (key : Nat) (s : State) : State :=
  settlePhase key (setBar key { barOf s key with arrived := (barOf s key).arrived + 1 } s)

/-- Armed bytes count down; the answer says whether the count was already zero (R248). -/
def countBytes (key n : Nat) (s : State) : Bool × State :=
  let b := barOf s key
  if b.bytes < n then (true, settlePhase key (setBar key { b with bytes := 0 } s))
  else (false, settlePhase key (setBar key { b with bytes := b.bytes - n } s))

/-- A gang's binding, with the phase in which it last arrived. -/
def bindGang (gk : Option Nat) (b : Barrier) : Barrier :=
  match gk with
  | none => b
  | some k => { b with bound := (b.bound.filter fun e => e.1 ≠ k) ++ [(k, b.phase)] }

/-- A gang leaves for good (R126): it arrives in the current phase if it has not, and later phases
expect one fewer. -/
def unbindGang (gk key : Nat) (s : State) : State :=
  let b := barOf s key
  if b.coh.isSome then setBar key { b with bound := b.bound.filter fun e => e.1 ≠ gk } s
  else match b.bound.find? fun e => e.1 = gk with
    | none => s
    | some e =>
      let s := setBar key { b with expect := b.expect - 1, bound := b.bound.filter fun e => e.1 ≠ gk } s
      if e.2 = b.phase then settlePhase key s else countArrival key s

/-- Every binding of a gang ends (R23, R126). -/
def unbindAll (gk : Nat) (s : State) : State :=
  ((s.bars.filter fun e => e.2.bound.any fun x => x.1 = gk).map Prod.fst).foldl (fun s k => unbindGang gk k s) s

/-! ## Barrier instructions (R125) -/

/-- The cores of a unit's cluster (R124). -/
def clusterCores (s : State) (u : UView) : List Nat :=
  match u.gk.bind (gang? s) with
  | some g => if g.cluster = [] then [u.core] else g.cluster
  | none => [u.core]

/-- A unit of the context waits at a barrier. -/
def anyWaits (s : State) (ctx key : Nat) : Bool := barWaiters s ctx key ≠ []

/-- What BAR.INIT's checks answer: a cause's code and detail, or none. -/
def barInitCheck (s : State) (u : UView) (a b : Word) (word : Word) : Option Cause :=
  let n := a.toNat % 256
  let scope := a.getLsbD 8
  let key := barHome s u.ctx u.core n
  let old := barOf s key
  let bad : Cause := { code := 0x05, d0 := word, source := 1 }
  if bits a 9 23 ≠ 0 then some bad
  else if !b.getLsbD 31 && (bits b 16 15 ≠ 0 || bits b 0 16 = 0) then some bad
  else if b.getLsbD 31 && bits b 5 26 ≠ 0 then some bad
  else if old.init && !old.poison && (old.arrived ≠ 0 || old.bytes ≠ 0 || anyWaits s u.ctx key) then some bad
  else if scope && (clusterCores s u).any (fun c =>
      let x := barOf s (barHome s u.ctx c n)
      x.init && !x.cluster) then some bad
  else if b.getLsbD 31 then
    let id := bits b 0 5
    if (cohOf s (cohKey s u id)).phase ≠ .formed || decide (16 ≤ id) ≠ scope then
      some { code := 0x1E, d0 := w32 id, source := 1 }
    else none
  else none

/-- The barrier as BAR.INIT leaves it: arrivals that have yet to leave their queues still come (R233). -/
def barFresh (s : State) (u : UView) (a b : Word) : Barrier :=
  let coh := if b.getLsbD 31 then some (cohKey s u (bits b 0 5)) else none
  let x : Barrier := { init := true, cluster := a.getLsbD 8, coh := coh
                       expect := if coh.isSome then 0 else bits b 0 16
                       coming := (barOf s (barKey u.ctx u.core (a.toNat % 256))).coming }
  { x with now := nextExpect s x }

/-- No EXIT owes a barrier an arrival any more. -/
def forgetOwed (key : Nat) (s : State) : State :=
  { s with gangs := s.gangs.map fun e => (e.1, e.2.map fun g => if g.leaving = [] then g else
      { g with leaving := g.leaving.map fun l => { l with owed := l.owed.filter fun x => x.1 ≠ key } }) }

/-- BAR.INIT takes effect: the barrier's record, and for a cluster-scope one the names of it on the
other cores. -/
def barInit (u : UView) (a b : Word) (s : State) : State :=
  let n := a.toNat % 256
  let fresh := barFresh s u a b
  let home := barHome s u.ctx u.core n / 256 % 1024
  let s := if (barOf s (barKey u.ctx home n)).cluster then
    (List.range 8).foldl (fun s i =>
      let c := clusterNo u.core * 8 + i
      if c = home || (barOf s (barKey u.ctx c n)).shared = some home then setBar (barKey u.ctx c n) {} s else s) s
    else s
  let s := if a.getLsbD 8 then
    ((clusterCores s u).filter (· ≠ u.core)).foldl (fun s c => setBar (barKey u.ctx c n) { shared := some u.core } s) s
    else s
  setBar (barKey u.ctx u.core n) fresh (forgetOwed (barKey u.ctx u.core n) (forgetOwed (barHome s u.ctx u.core n) s))

def execBarInit (o : OAB) (s : State) : Out :=
  issue (.barInit o) { pipe := .gang, strand := o.s, srcs := [o.a, o.b], ends := true }
    (fun u acts s =>
      let a := gsrc s u o.a
      let b := gsrc s u o.b
      match barInitCheck s u a b (wordOf (.barInit o)) with
      | some c => raiseOn c acts u s
      | none => idem (advance (barInit u a b s) u) u) s

/-- The checks that open BAR.ARRIVE, BAR.WAIT and BAR.ARM: the barrier's key, or a cause. -/
def barUse (s : State) (u : UView) (i : Instr) (a : Word) : Except Cause Nat :=
  let key := barHome s u.ctx u.core (a.toNat % 256)
  if bits a 8 24 ≠ 0 then .error { code := 0x05, d0 := wordOf i, source := 1 }
  else if !(barOf s key).init then .error { code := 0x1D, d0 := w32 (a.toNat % 256), source := 1 }
  else .ok key

/-- An arrival may leave its queue: every older entry of it, of whatever kind, is complete at the barrier's scope
(R233). -/
def mayArrive (s : State) (a : Agent) (b : Barrier) : Bool :=
  !s.queue.any (olderEntry a) && complete s a 63 (if b.cluster then 2 else 1)

/-- An arrival: counted at once where nothing older is incomplete at the barrier's scope and the oracle
does not defer it, else a queue entry (R233). -/
def arrive (key : Nat) (u : UView) (s : State) : State :=
  let b := bindGang u.gk (barOf s key)
  if mayArrive s (agentOf u) b && !defersNow s then
    countArrival key (setBar key b (defersNext s))
  else enqueueOp u (.arrive key) (setBar key { b with coming := b.coming + 1 } (defersNext s))

def execBarArrive (o : O2) (s : State) : Out :=
  issue (.barArrive o) { pipe := .gang, strand := o.s, reserved := !o.w, dst := some o.d, srcs := [o.a], ends := true }
    (fun u acts s => match barUse s u (.barArrive o) (gsrc s u o.a) with
      | .error c => raiseOn c acts u s
      | .ok key =>
        let b := barOf s key
        if b.arrived + b.coming = b.now then
          raiseOn { code := 0x1C, d0 := w32 ((gsrc s u o.a).toNat % 256), source := 1 } acts u s
        else idem (advance (gangResult o.d false (w32 b.phase) u (arrive key u s)) u) u) s

def execBarWait (o : OAB) (s : State) : Out :=
  issue (.barWait o) { pipe := .gang, strand := o.s, srcs := [o.a, o.b] }
    (fun u acts s => match barUse s u (.barWait o) (gsrc s u o.a) with
      | .error c => raiseOn c acts u s
      | .ok key =>
        let tok := (gsrc s u o.b).toNat % 65536
        let b := barOf s key
        if phaseDone b tok then advance s u
        else if b.poison then raiseOn { code := 0x26, d0 := w32 ((gsrc s u o.a).toNat % 256), source := 1 } acts u s
        else hold s u (.bar key tok)) s

def execBarArm (o : OAB) (s : State) : Out :=
  issue (.barArm o) { pipe := .gang, strand := o.s, srcs := [o.a, o.b], ends := true }
    (fun u acts s => match barUse s u (.barArm o) (gsrc s u o.a) with
      | .error c => raiseOn c acts u s
      | .ok key =>
        let b := barOf s key
        let n := b.bytes + (gsrc s u o.b).toNat
        if n > 0xFFFFFFFF then
          raiseOn { code := 0x1C, d0 := w32 ((gsrc s u o.a).toNat % 256), source := 1 } acts u s
        else idem (advance (setBar key { b with bytes := n } s) u) u) s

/-- The three state words of a barrier (R122): all zero while INIT is 0. -/
def barWord (b : Barrier) (k : Nat) : Word :=
  if !b.init then 0
  else match k with
    | 0 => w32 (0x80000000 + (if b.cluster then 0x40000000 else 0) + (if b.poison then 0x20000000 else 0)
        + (match b.coh with
          | some c => 0x10000000 + c % 32 * 0x10000
          | none => b.expect))
    | 1 => w32 (b.phase * 0x10000 + b.arrived)
    | _ => w32 b.bytes

def execBarTest (o : O3) (s : State) : Out :=
  issue (.barTest o) { pipe := .gang, strand := o.s, reserved := !o.w, dst := some o.d, srcs := [o.a, o.b] }
    (fun u acts s =>
      let a := gsrc s u o.a
      let k := gsrc s u o.b
      if bits a 8 24 ≠ 0 || k.toNat > 2 then opFail (.barTest o) 0x05 1 acts u s
      else advance (gangResult o.d false (barWord (barOf s (barHome s u.ctx u.core (a.toNat % 256))) k.toNat) u s) u) s

/-! ## Cohorts (R27, R28, R128) -/

/-- Formation (R27): ranks in ascending order of lowest thread ID; of two gangs with one lowest thread ID, which two
nodes of a context can have, the one launched first comes first (DESIGN CHOICE, log entry 97). -/
def form (s : State) (c : Cohort) : Cohort :=
  let tid (gk : Nat) : Nat := ((gang? s gk).map Gang.tid0).getD 0
  let rank (gk : Nat) : Nat := (c.joiners.filter fun j => decide (tid j.1 < tid gk ∨ (tid j.1 = tid gk ∧ j.1 < gk))).length
  { c with phase := .formed, joiners := []
           members := c.joiners.map fun j => (j.1, rank j.1, true)
           ready := c.ready ++ c.joiners.map fun j => (j.1, j.2, rank j.1) }

/-- A cohort without joiners is Free again and forgets its expected count (R27). -/
def freeIfEmpty (c : Cohort) : Cohort :=
  if c.phase = .forming ∧ c.joiners = [] then { c with phase := .free, expect := 0 } else c

inductive JoinRes where
  | rank (r : Nat) (c : Cohort)
  | wait (c : Cohort)
  | bad

/-- What COH.JOIN by group `gid` of a gang comes to. -/
def joinCohort (s : State) (limit expect gk gid : Nat) (c : Cohort) : JoinRes :=
  match c.ready.find? fun e => e.1 = gk ∧ e.2.1 = gid with
  | some e => .rank e.2.2 { c with ready := c.ready.filter (· ≠ e) }
  | none =>
    if c.left.contains (gk, gid) then .rank 0xFFFF { c with left := c.left.filter (· ≠ (gk, gid)) }
    else if c.joiners.contains (gk, gid) then .wait c
    else if expect = 0 || expect > limit || c.phase = .formed || c.joiners.any (fun j => j.1 = gk)
        || (c.phase = .forming && c.expect ≠ expect) then .bad
    else
      let c' := { c with phase := .forming, expect := expect, joiners := c.joiners ++ [(gk, gid)] }
      if c'.joiners.length = expect then
        match form s c' with
        | f => match f.ready.find? fun e => e.1 = gk ∧ e.2.1 = gid with
          | some e => .rank e.2.2 { f with ready := f.ready.filter (· ≠ e) }
          | none => .wait f
      else .wait c'

def cohLimit (id : Nat) : Nat := if id < 16 then 32 else 256

def cohBad (id : Nat) : Cause := { code := 0x1E, d0 := w32 id, source := 1 }

/-- The gang and group that a cohort instruction acts for; an instance acts for its gang, under a
number no group has. -/
def memberOf (u : UView) : Option (Nat × Nat) :=
  match u.kind, u.gk with
  | .grp gid, some gk => some (gk, gid)
  | .inst id, some gk => some (gk, 1000 + id)
  | _, none => none

def execCohJoin (o : O3) (s : State) : Out :=
  issue (.cohJoin o) { pipe := .gang, strand := o.s, reserved := !o.w, dst := some o.d, srcs := [o.a, o.b], ends := true }
    (fun u acts s =>
      let a := gsrc s u o.a
      let id := a.toNat % 32
      let key := cohKey s u id
      if bits a 5 27 ≠ 0 then opFail (.cohJoin o) 0x05 1 acts u s
      else match memberOf u with
        | none => raiseOn (cohBad id) acts u s
        | some (gk, gid) => match joinCohort s (cohLimit id) (gsrc s u o.b).toNat gk gid (cohOf s key) with
          | .bad => raiseOn (cohBad id) acts u s
          | .wait c => hold (setCoh key c s) u (.cohort key)
          | .rank r c => idem (advance (gangResult o.d false (w32 r) u (setCoh key c s)) u) u) s

/-- A cohort with its last present member gone is Free (R27). -/
def afterLeave (c : Cohort) : Cohort :=
  if present c = 0 then { c with phase := .free, expect := 0, members := [] } else c

/-- A member's leave is its arrival at every barrier of the cohort in whose current phase it has not
arrived (R28, R126). -/
def leaveBarriers (gk key : Nat) (s : State) : State :=
  (s.bars.filter fun e => e.2.init && e.2.coh = some key).foldl (fun s e =>
    let b := barOf s e.1
    if b.bound.contains (gk, b.phase) then s else countArrival e.1 (setBar e.1 (bindGang (some gk) b) s)) s

/-! ## Engine reads (R231, R254) -/

/-- A copy processor as the maker of accesses: its reads never see a store buffer (R231). -/
def xpAgent (core p : Nat) (x : Xp) : Agent :=
  { core := core, ctx := x.ctx, gk := none, ref := some (.xp core p), launch := x.launch }

/-- What an engine read comes to. -/
inductive XRead where
  | word (w : Word)
  | bad (c : Cause)
  | wait (w : WaitOn)
  | miss (page acc : Nat)
deriving DecidableEq, Repr

/-- One 32-bit engine read at a generic address. -/
def engineRead (s : State) (a : Agent) (addr : Dword) (reach : Reach := .desc) : XRead :=
  match resolve s a reach 0 addr 4 1 with
  | .ok q => .word (w32 (leNat (spotBytes s a.core a.ctx none q 4)))
  | .bad c => .bad c
  | .wait w => .wait w
  | .miss page acc => .miss page acc

/-- Engine reads at listed addresses: the words, or the first read that is not one, with its address. -/
def engineList (s : State) (a : Agent) : List Dword → List Word × Option (Dword × XRead)
  | [] => ([], none)
  | addr :: l => match engineRead s a addr with
    | .word w => let r := engineList s a l; (w :: r.1, r.2)
    | e => ([], some (addr, e))

/-! ## Starts of copy programs (R244) -/

/-- Every member present in a start's cohort has joined it. -/
def startDone (s : State) (st : Start) : Bool :=
  match st.coh with
  | none => true
  | some key => (cohOf s key).members.all fun m => !m.2.2 || st.joined.any fun j => j.1 = m.1

/-- The members of a start in rank order: (gang, record address). -/
def byRank (s : State) (st : Start) : List (Nat × Dword) :=
  let rank (gk : Nat) : Nat := match st.coh with
    | none => 0
    | some key => (((cohOf s key).members.find? fun m => m.1 = gk).map fun m => m.2.1).getD 0
  (lsort (st.joined.map fun j => rank j.1)).flatMap fun r => st.joined.filter fun j => rank j.1 = r

/-- The addresses read: the program address in the record of position 0, then ai in that of position
i mod P. -/
def startAddrs (order : List (Nat × Dword)) : List Dword :=
  let rec_ (i : Nat) : Dword := (order.getD (i % order.length) (0, 0)).2
  rec_ 0 :: (rec_ 0 + 4) :: (List.range 16).map fun i => rec_ i + BitVec.ofNat 64 (4 * (i + 2))

/-- A start whose records have yet to be read. -/
def Start.unread (st : Start) : Bool := st.complete && st.words = [] && st.bad.isNone

/-- The records of the `i`-th start are read, as soon as they can be (R244). -/
def readStart (core p i : Nat) (s : State) : State :=
  match (xpOf s core p).starts[i]? with
  | none => s
  | some st =>
    let upd (st : Start) : State := updXp core p (fun x => { x with starts := lset x.starts i st }) s
    if !st.unread then s
    else match engineList s { core := core, ctx := st.ctx, gk := none, ref := none, launch := st.launch }
        (startAddrs st.joined) with
      | (ws, none) => upd { st with words := ws }
      | (_, some (addr, .bad c)) => upd { st with bad := some (c.code, addr) }
      | (_, some (addr, .miss page acc)) => requestWalk core st.ctx page acc (.start core p addr) s
      | (_, some (_, .wait w)) => wanting st.ctx w s
      | (_, some (_, .word _)) => s

def readStarts (core p : Nat) (s : State) : State :=
  (List.range (xpOf s core p).starts.length).foldl (fun s i => readStart core p i s) s

/-- Open starts that have all their members become complete, behind those complete before, their members in rank
order, and the processor reads their records (R244, R245). -/
def refreshStarts (core p : Nat) (s : State) : State :=
  readStarts core p (updXp core p (fun x =>
    let now := (x.starts.filter fun st => !st.complete && startDone s st).map fun st =>
      { st with complete := true, joined := byRank s st }
    if now = [] then x
    else { x with starts := x.starts.filter (fun st => st.complete) ++ now
                    ++ x.starts.filter fun st => !st.complete && !startDone s st }) s)

/-! ## Leaving (R23, R27, R28) -/

/-- A gang leaves a cohort, as a waiting joiner or as a member. Its starts are looked at while the cohort still knows
its ranks. -/
def leaveCohort (gk key : Nat) (s : State) : State :=
  let c := cohOf s key
  if c.joiners.any fun j => j.1 = gk then
    setCoh key (freeIfEmpty { c with left := c.left ++ c.joiners.filter (fun j => j.1 = gk)
                                     joiners := c.joiners.filter fun j => j.1 ≠ gk }) s
  else
    let gone : Cohort := { c with members := c.members.map fun m => if m.1 = gk then (m.1, m.2.1, false) else m }
    let s := setCoh key gone s
    let core := key / 32 % 2048
    let s := if core < 1024 then refreshStarts core 0 (refreshStarts core 1 s) else s
    setCoh key (afterLeave gone) s

/-- The cohorts of a gang. -/
def cohortsOf (s : State) (gk : Nat) : List Nat :=
  (s.cohs.filter fun e => isMember e.2 gk || e.2.joiners.any fun j => j.1 = gk).map Prod.fst

/-- The barriers bound to a cohort of which a gang is a member, at which it has yet to arrive in the current phase. -/
def owedBars (s : State) (gk : Nat) : List (Nat × Nat) :=
  (s.bars.filter fun e => e.2.init && !e.2.bound.contains (gk, e.2.phase) && (match e.2.coh with
    | some k => isMember (cohOf s k) gk
    | none => false)).map fun e => (e.1, e.2.phase)

/-- WHAT EXIT DOES FOR ITS GANG (R23): every cohort is left, and the arrivals that it counts as are noted. -/
def leaveAll (gk : Nat) (s : State) : State :=
  let l : Leaving := ⟨s.next, owedBars s gk⟩
  (cohortsOf s gk).foldl (fun s k => leaveCohort gk k s) (updGang s gk fun g => { g with leaving := g.leaving ++ [l] })

/-- The arrivals of an EXIT are counted: at the barriers that its leaves owe them, and at those that bind the gang
itself (R126, R233). -/
def countLeaving (gk : Nat) (l : Leaving) (s : State) : State :=
  unbindAll gk (l.owed.foldl (fun s e =>
    let b := barOf s e.1
    if b.init && b.coh.isSome && b.phase = e.2 then countArrival e.1 (setBar e.1 (bindGang (some gk) b) s) else s) s)

/-- Nothing that a gang issued before an EXIT is left in its queues or in the store buffer (R233). -/
def leftQueues (s : State) (gk : Nat) (l : Leaving) : Bool :=
  !(s.queue.any fun e => decide (e.gk = some gk ∧ e.id < l.at_)) && !s.sb.any fun e => e.gk = some gk

/-- The EXITs of a gang whose arrivals may be counted. -/
def settleLeaving (gk : Nat) (s : State) : State :=
  match gang? s gk with
  | none => s
  | some g =>
    let due := g.leaving.filter (leftQueues s gk)
    if due = [] then s
    else due.foldl (fun s l => countLeaving gk l s)
      (updGang s gk fun g => { g with leaving := g.leaving.filter fun l => !due.contains l })

def execCohLeave (o : OA) (s : State) : Out :=
  issue (.cohLeave o) { pipe := .gang, strand := o.s, srcs := [o.a], ends := true }
    (fun u acts s =>
      let a := gsrc s u o.a
      let id := a.toNat % 32
      let key := cohKey s u id
      if bits a 5 27 ≠ 0 then opFail (.cohLeave o) 0x05 1 acts u s
      else match u.gk with
        | none => raiseOn (cohBad id) acts u s
        | some gk =>
          let c := cohOf s key
          if isMember c gk then idem (advance (leaveBarriers gk key (leaveCohort gk key s)) u) u
          else if c.joiners.any (fun j => j.1 = gk) then idem (advance (leaveCohort gk key s) u) u
          else raiseOn (cohBad id) acts u s) s

/-- Bits of the hole mask: ranks 32i to 32i + 31 that have left. -/
def holes (c : Cohort) (i : Nat) : Word :=
  w32 ((c.members.filter fun m => !m.2.2 && m.2.1 / 32 = i).foldl (fun a m => a + 2 ^ (m.2.1 % 32)) 0)

def execCohInfo (o : O2) (s : State) : Out :=
  issue (.cohInfo o) { pipe := .gang, strand := o.s, reserved := !o.w, dst := some o.d, srcs := [o.a] }
    (fun u acts s =>
      let a := gsrc s u o.a
      let id := a.toNat % 32
      let c := cohOf s (cohKey s u id)
      let n := if id < 16 then 1 else 8
      if bits a 5 27 ≠ 0 || o.d.toNat + 1 + n > 59 then opFail (.cohInfo o) 0x05 1 acts u s
      else match u.gk.bind fun gk => c.members.find? fun m => m.1 = gk && m.2.2 with
        | none => raiseOn (cohBad id) acts u s
        | some m =>
          match (List.range (n + 1)).findSome? fun i => awaited s u true acts (o.d.toNat + 1 + i) with
          | some e => hold s u (.entry e)
          | none =>
            advance (gangResults o.d false (w32 (c.members.length + present c * 0x10000))
              (w32 m.2.1 :: (List.range n).map (holes c)) u s) u) s

/-! ## Timelines (R131) -/

def tlOf (s : State) (ctx k : Nat) : Dword := sget 0 (ctxD s ctx).tl k

/-- A signal raises a counter, never lowers it (R232). -/
def signalTl (ctx k : Nat) (n : Dword) (s : State) : State :=
  updCtx s ctx fun x => { x with tl := if (sget 0 x.tl k).ult n then sset 0 x.tl k n else x.tl }

def execTlWait (o : OAB) (s : State) : Out :=
  issue (.tlWait o) { pipe := .gang, strand := o.s, srcs := [o.a], gs := basePair o.b }
    (fun u acts s =>
      let a := gsrc s u o.a
      let n := gpair s u o.b.toNat
      if bits a 4 28 ≠ 0 then opFail (.tlWait o) 0x05 1 acts u s
      else if (tlOf s u.ctx a.toNat).ult n then hold s u (.tl a.toNat n)
      else advance s u) s

def execTlRead (o : O2) (s : State) : Out :=
  issue (.tlRead o) { pipe := .gang, strand := o.s, dst := some o.d, w := o.w, srcs := [o.a]
                      limits := o.d.toNat < 59, more := [o.d.toNat + 1] }
    (fun u acts s =>
      let a := gsrc s u o.a
      if bits a 4 28 ≠ 0 then opFail (.tlRead o) 0x05 1 acts u s
      else
        let x := tlOf s u.ctx a.toNat
        advance (gangResults o.d o.w (lo32 x) [hi32 x] u s) u) s

end Sys2Proof.Machine
end

