-- ==== Sys2Proof/Machine/Control.lean ====
section
/-!
DEFINITION. Linear control (R19, R20, R119, R120), retiring (R23), and the reliability instructions
with the return from a handler (R133, R135, R314).
-/
namespace Sys2Proof.Machine

/-! ## Branches (R119) -/

/-- A control transfer in state code raises 0x2F (R42); elsewhere it takes place. -/
def transfers (i : Instr) (n : Need) (body : UView → List Nat → State → State) (s : State) : Out :=
  issue i n (fun u acts s => if u.region.isSome then opFail i 0x2F 1 acts u s else body u acts s) s

/-- The word's own address plus OFF19. -/
def branchTarget (u : UView) (f : BitVec 19) : Nat := (u.pc + (f.signExtend 32).toNat) % 0x100000000

def execBra (f : BitVec 19) (s : State) : Out :=
  transfers (.bra f) { pipe := .gang } (fun u _ s => goto s u (branchTarget u f)) s

/-- The slices of a group that have a live lane. -/
def presentSlices (g : Gang) (r : Group) : List Nat := r.slices.filter fun x => g.live.any fun l => l / 4 = x

/-- The reduction of BRC over some lanes. -/
def brcTest (all : Bool) (q : Word) (pol : Bool) (lanes : List Nat) : Bool :=
  if all then lanes.all fun l => q.getLsbD l ^^ pol else lanes.any fun l => q.getLsbD l ^^ pol

/-- A group parts (R19, R223): the slices of `go` move to `target` with a copy of the latches, both
groups with empty queues. -/
def part (gk gid : Nat) (g : Gang) (r : Group) (go stay : List Nat) (target next : Nat) (s : State) : State :=
  let base : Group := { r with wait := none, age := 0, issued := r.issued + 1 }
  let mk (sl : List Nat) (pc q : Nat) : Group := { base with slices := sl, pc := pc, qids := [q] }
  let g := setGroup g gid none
  let g := setGroup g ((lmin go).getD 0) (some (mk go target s.next))
  let g := setGroup g ((lmin stay).getD 0) (some (mk stay next (s.next + 1)))
  drawn (setGang { s with next := s.next + 2 } gk (some g))

/-- BRC.any and BRC.all. -/
def brc (i : Instr) (all : Bool) (q : BitVec 3) (pol : Bool) (f : BitVec 19) (s : State) : Out :=
  transfers i { pipe := .gang }
    (fun u _ s =>
      let p := qreg s u q.toNat
      match u.kind with
      | .inst _ =>
        let lanes := if u.lanes = [] then [0] else u.lanes
        goto s u (if brcTest all p pol lanes then branchTarget u f else nextPc u.pc)
      | .grp gid => match u.gk with
        | none => s
        | some gk => match (gang? s gk).bind fun g => (group? g gid).map fun r => (g, r) with
          | none => s
          | some (g, r) =>
            let taken (x : Nat) : Bool := brcTest all p pol (g.live.filter fun l => l / 4 = x)
            let go := (presentSlices g r).filter taken
            let stay := (presentSlices g r).filter fun x => !taken x
            if stay = [] then goto s u (branchTarget u f)
            else if go = [] then goto s u (nextPc u.pc)
            else part gk gid g r go stay (branchTarget u f) (nextPc u.pc) s) s

def execBrcAny (q : BitVec 3) (pol : Bool) (f : BitVec 19) (s : State) : Out :=
  brc (.brcAny q pol f) false q pol f s
def execBrcAll (q : BitVec 3) (pol : Bool) (f : BitVec 19) (s : State) : Out :=
  brc (.brcAll q pol f) true q pol f s

def execCall (f : BitVec 19) (s : State) : Out :=
  transfers (.call f) { pipe := .gang, more := [59] }
    (fun u _ s => goto (setGregAside u 59 (w32 (nextPc u.pc)) s) u (branchTarget u f)) s

def execRet (o : OA) (s : State) : Out :=
  transfers (.ret o) { pipe := .gang, strand := o.s, srcs := [o.a] }
    (fun u _ s => goto s u (gsrc s u o.a).toNat) s

/-! ## REGANG (R20) -/

/-- A group waits at a REGANG. -/
def atRegang (r : Group) : Bool :=
  match r.wait with
  | some ⟨.regang, _⟩ => true
  | _ => false

/-- The groups of a gang merge at the word after `pc`: queues, slices and stores in flight are joined,
latches become LOST (R67, R223). The lowest group's own state is kept (log entry 17). -/
def mergeGroups (gk pc : Nat) (s : State) : State :=
  updGang s gk fun g =>
    let rs := sentries g.groups
    match rs with
    | [] => g
    | e :: _ =>
      let r : Group := { (e.2.lose) with
        slices := lsort (rs.flatMap fun x => x.2.slices), pc := nextPc pc, wait := none, age := 0
        qids := rs.flatMap (fun x => x.2.qids), issued := lmax (rs.map fun x => x.2.issued) + 1 }
      { g with groups := [(e.1, some r)] }

/-- Every group of a gang raises a cause in its own lanes. -/
def raiseAll (gk : Nat) (c : Cause) (s : State) : State :=
  match gang? s gk with
  | none => s
  | some g => (sentries g.groups).foldl (fun s e =>
      raiseGroup gk e.1 c (groupLanes g e.2) false (w32 e.2.pc) false s) s

/-- What happens when every present group of a gang waits at a REGANG. -/
def regang (gk : Nat) (s : State) : State :=
  match gang? s gk with
  | none => s
  | some g =>
    let rs := sentries g.groups
    let pcs := rs.map fun e => e.2.pc
    if !(rs.all fun e => atRegang e.2) then s
    else if pcs.any fun p => p ≠ pcs.headD 0 then
      raiseAll gk { code := 0x2E, d0 := w32 ((lmin pcs).getD 0), source := 1 } s
    else if rs.any fun e => queued s e.2.qids then s
    else mergeGroups gk (pcs.headD 0) s

/-- REGANG. The one group of a gang that has no other merges alone: it goes on at once, with its latches as they are
and without a wait for its queue, since nothing is joined (DESIGN CHOICE on R20 with R67 and R223, log entry 17). -/
def execRegang (x : BitVec 2) (s : State) : Out :=
  transfers (.regang x) { pipe := .gang, strand := x }
    (fun u _ s => match u.kind, u.gk.bind fun k => (gang? s k).map fun g => (k, g) with
      | .grp _, some (gk, g) =>
        if (sentries g.groups).length ≤ 1 then advance s u else regang gk (hold s u .regang)
      | _, _ => advance s u) s

/-! ## EXIT and retiring (R23, R233) -/

/-- A gang's stores and reductions have been accepted by the memory system. -/
def accepted (s : State) (gk : Nat) : Bool :=
  !(s.queue.any (fun e => e.gk = some gk) || s.sent.any (fun e => e.gk = some gk) || s.gutter.any (fun e => e.gk = some gk)
    || s.sb.any (fun e => e.gk = some gk) || s.homeq.any (fun e => e.gk = some gk))

/-- Causes still pending for a gang that retires go to detached instances, lowest code first (R309). -/
def flushPending (g : Gang) (s : State) : State :=
  (List.range 64).foldl (fun s code => (g.pending.filter fun p => p.cause.code = code).foldl
    (fun s p => raiseDetached g.core g.ctx p.cause false p.defer p.pc p.scode s g.half) s) s

/-- A node whose last gang has retired, with every unit admitted, is DRAINING (R293). -/
def nodeGangGone (node gk : Nat) (s : State) : State :=
  match sget none s.pool node with
  | none => s
  | some n =>
    let left := n.gangs.any fun k => k ≠ gk && (gang? s k).isSome
    if !left && n.nextUnit = n.total && n.phase = .running then
      { s with pool := sset none s.pool node (some { n with phase := .draining }) }
    else s

/-- Arrivals of EXITs are counted when they may be; a gang without live lanes retires once its stores are accepted:
its slot and registers are free (R23, R126, R233). -/
def tryRetire (gk : Nat) (s0 : State) : State :=
  let s := settleLeaving gk s0
  match gang? s gk with
  | none => s
  | some g =>
    if g.live = [] && !g.dead && g.frags = [] && accepted s gk then
      nodeGangGone g.node gk (flushPending g (setGang s gk none))
    else s

/-- The gang that made some work, if there is one, retires when it can. -/
def retireOf (gk : Option Nat) (s : State) : State :=
  match gk with
  | some k => tryRetire k s
  | none => s

/-- Lanes retire; a gang without live lanes leaves its cohorts and waits for its stores. A group's own EXIT leaves
them for the gang whatever other groups it has (R23, log entry 11). -/
def retireLanes (gk : Nat) (lanes : List Nat) (gid : Option Nat) (s : State) (own : Bool := false) : State :=
  let s := updGang s gk fun g =>
    let g := { g with live := g.live.filter fun l => !lanes.contains l }
    if g.live = [] then
      { leaveRegion g with
        groups := match (sentries g.groups).head? with
          | some e => [(e.1, some { e.2 with wait := some ⟨.exiting, s.usec⟩ })]
          | none => [] }
    else match gid with
      | some k => setGroup g k none
      | none => g
  match gang? s gk with
  | some g => if g.live = [] || own then tryRetire gk (leaveAll gk s) else s
  | none => s

/-- What an instance serves in the end: through nested instances, the group, fragment, or nothing. -/
def rootOf (s : State) : Nat → Nat → List Nat × Serves
  | 0, id => ([id], .detached)
  | n + 1, id => match inst? s id with
    | none => ([id], .detached)
    | some i => match i.serves with
      | .nested j => let r := rootOf s n j; (id :: r.1, r.2)
      | x => ([id], x)

/-- EXIT in a handler (R314): the lanes it serves retire, and it ends. -/
def exitInst (id : Nat) (s : State) : State :=
  let r := rootOf s 3 id
  let s' := r.1.foldl (fun s k => setInst s k none) s
  match r.2 with
  | .detached => s'
  | .nested _ => s'
  | .group gk gid => match (gang? s gk).bind fun g => (group? g gid).map fun x => groupLanes g x with
    | some lanes => retireLanes gk lanes (some gid) s'
    | none => s'
  | .frag gk =>
    let lanes := (instLanes s 3 id).2
    let s' := updGang s' gk fun g => { g with
      frags := g.frags.filter fun f => !r.1.contains f.inst
      blk := ssets 1023 g.blk (lanes.map fun l => (l, 1023)) }
    fragmentGone gk (retireLanes gk lanes none s')

def execExitG (x : BitVec 2) (s : State) : Out :=
  transfers (.exitG x) { pipe := .gang, strand := x }
    (fun u _ s => match u.kind, u.gk with
      | .grp gid, some gk => retireLanes gk u.lanes (some gid) (advance s u) true
      | .inst id, _ => exitInst id s
      | _, _ => s) s

def execNop (x : BitVec 2) (s : State) : Out :=
  issue (.nop x) { pipe := .gang, strand := x } (fun u _ s => advance s u) s

def execYield (x : BitVec 2) (s : State) : Out :=
  issue (.yield x) { pipe := .gang, strand := x }
    (fun u _ s => hold (advance s u) u (.yield (s.clk + 16))) s

/-! ## Reliability instructions (R133) -/

def execIdem (x : BitVec 2) (s : State) : Out :=
  issue (.idem x) { pipe := .gang, strand := x, ends := true } (fun u _ s => idem (advance s u) u) s

/-- The containment stack of the issuing group or instance (R318). -/
def contOf (s : State) (u : UView) : List Nat :=
  match u.kind with
  | .grp gid => (((u.gk.bind (gang? s)).bind fun g => group? g gid).map Group.cont).getD []
  | .inst id => ((inst? s id).map Inst.cont).getD []

def setCont (l : List Nat) (u : UView) (s : State) : State :=
  onIssuer s u (fun r => { r with cont := l }) (fun i => { i with cont := l })

def execContOpen (a : BitVec 6) (x : BitVec 2) (s : State) : Out :=
  issue (.contOpen a x) { pipe := .gang, strand := x, srcs := [a], ends := true }
    (fun u acts s =>
      let l := contOf s u
      if l.length ≥ 4 then gangFail { code := 0x36, d0 := 4 } acts u s
      else idem (advance (setCont ((gsrc s u a).toNat :: l) u s) u) u) s

def execContClose (x : BitVec 2) (s : State) : Out :=
  issue (.contClose x) { pipe := .gang, strand := x, ends := true }
    (fun u acts s => match contOf s u with
      | [] => gangFail { code := 0x36, d0 := 0 } acts u s
      | _ :: l => idem (advance (setCont l u s) u) u) s

def execTrap (n : BitVec 6) (x : BitVec 2) (s : State) : Out :=
  issue (.trap n x) { pipe := .gang, strand := x }
    (fun u acts s => gangFail { code := 0x01, d0 := w32 n.toNat } acts u s) s

/-- The gang whose group a handler stopped has a region end that is still due (log entry 91). -/
def endPending (i : Inst) (s : State) : Bool :=
  match i.serves with
  | .group gk _ => ((gang? s gk).map fun g => decide (g.ends ≠ [])).getD false
  | _ => false

/-- RETT from a handler; a watchdog's handler restarts the gang's run time (R320). -/
def execRett (s : State) : Out :=
  issue .rett { pipe := .gang, priv := true }
    (fun u acts s => match u.kind with
      | .grp _ => opFail .rett 0x04 1 acts u s
      | .inst id => match inst? s id with
        | none => s
        | some i =>
          if queued s u.qids || endPending i s then hold s u .drain
          else
            let s' := rett id i s
            let s' := match u.gk with
              | some gk => if i.rcd.cause.code = 0x3E then updGang s' gk fun g => { g with since := s.usec } else s'
              | none => s'
            match i.serves with
            | .frag gk => fragmentGone gk s'
            | _ => s') s

/-- A gang at a STEP.MARK with a quiesce pending stops after the word: its groups that do not wait
stop with it (R331). -/
def stopAtMark (gk : Nat) (s : State) : State :=
  updGang s gk fun g =>
    if g.quiesce then { g with quiesce := false, groups := g.groups.map fun e => (e.1, e.2.map fun r =>
      if r.wait.isNone then { r with wait := some ⟨.quiesced, s.usec⟩ } else r) }
    else g

def execStepMark (x : BitVec 2) (s : State) : Out :=
  issue (.stepMark x) { pipe := .gang, strand := x }
    (fun u _ s =>
      let s := advance s u
      match u.kind, u.gk with
      | .grp _, some gk => stopAtMark gk (updGang s gk fun g => { g with stepCount := g.stepCount + 1 })
      | .inst _, some gk => updGang s gk fun g => { g with stepCount := g.stepCount + 1 }
      | _, _ => s) s

/-! ## MOVS (R135) -/

/-- The interrupted code of a handler: a gang's registers, or those of the instance it is nested in. -/
def interrupted (s : State) (u : UView) : Option (Sum Nat Nat) :=
  match u.kind with
  | .grp _ => none
  | .inst id => match (inst? s id).map Inst.serves with
    | some (.group gk _) => some (.inl gk)
    | some (.frag gk) => some (.inl gk)
    | some (.nested j) => some (.inr j)
    | _ => none

/-- A g register of the interrupted code. -/
def otherReg (s : State) (x : Sum Nat Nat) (i : Nat) : Word :=
  match x with
  | .inl gk => ((gang? s gk).map fun g => sget 0 g.g i).getD 0
  | .inr j => ((inst? s j).map fun k => sget 0 k.g i).getD 0

/-- The queue entry that a g register of the interrupted code awaits (R70), and whether its data is uncorrectable
(R319). -/
def otherState (s : State) (x : Sum Nat Nat) (i : Nat) : Nat × Bool :=
  match x with
  | .inl gk => match gang? s gk with
    | some g => (sget 0 g.scoreboard (4096 + i), g.poison.contains (4096 + i))
    | none => (0, false)
  | .inr j => match inst? s j with
    | some k => (sget 0 k.scoreboard (4096 + i), k.poison.contains (4096 + i))
    | none => (0, false)

/-- MOVS on a g register of the interrupted code, once nothing in flight is to write it (R70, R303). -/
def movs (i : Instr) (r : Nat) (reads : Bool) (body : Sum Nat Nat → UView → State → State) (acts : List Nat) (u : UView)
    (s : State) : State :=
  match interrupted s u with
  | none => opFail i 0x05 1 acts u s
  | some x => match otherState s x r with
    | (n + 1, _) => hold s u (.entry n)
    | (0, true) => if reads then raiseOn { code := 0x33, d0 := w32 r, source := 1 } acts u s else body x u s
    | (0, false) => body x u s

def execMovsGet (d i : BitVec 6) (w : Bool) (h : BitVec 2) (s : State) : Out :=
  issue (.movsGet d i w h) { pipe := .gang, priv := true, dst := some d, w := w, limits := i.toNat < 60 }
    (fun u acts s => movs (.movsGet d i w h) i.toNat true (fun x u s =>
      advance (gangResult d w (otherReg s x i.toNat) u s) u) acts u s) s

def execMovsPut (i a : BitVec 6) (h : BitVec 2) (s : State) : Out :=
  issue (.movsPut i a h) { pipe := .gang, priv := true, srcs := [a], limits := i.toNat < 60 }
    (fun u acts s => movs (.movsPut i a h) i.toNat false (fun x u s =>
      advance (match x with
        | .inl gk => updGang s gk fun g => g.putG i.toNat (gsrc s u a)
        | .inr j => updInst s j fun k => k.putG i.toNat (gsrc s u a)) u) acts u s) s

end Sys2Proof.Machine
end

