-- ==== Sys2Proof/Machine/Matrix.lean ====
section
/-!
DEFINITION. The matrix engine at issue: ownership, the queue, the logical plane state, and the
instructions that enter commands (R267–R269, R272–R279, R281).
-/
namespace Sys2Proof.Machine

def matrixOf (s : State) (core : Nat) : Matrix := (coreOf s core).matrix
def updMatrix (s : State) (core : Nat) (f : Matrix → Matrix) : State :=
  updCore s core fun c => { c with matrix := f c.matrix }

/-- FMT, SCALE and BLK of a descriptor. -/
def dFormats (d : Desc) : Nat × Nat × Nat := (dFmt d, dScale d, dBlk d)

def isBlocked (f : Nat × Nat × Nat) : Bool := f.2.2 = 1

/-- The operand pairs of R269. -/
def pairOk (p q : Nat × Nat × Nat) : Bool :=
  (isBlocked p && isBlocked q) || (!isBlocked p && !isBlocked q && p.1 ≤ 1 && q.1 ≤ 1)

/-- What the logical plane state says of a command: a cause, or the state after it (R272). -/
inductive PlaneRes where
  | ok (l : PlaneLog)
  | misuse
  | pair

def logStep (l : PlaneLog) : MOp → PlaneRes
  | .mload d _ _ => .ok { l with shadow := .loading, shadowFmt := dFormats d }
  | .mswap =>
    if l.shadow = .empty then .misuse else .ok { l with shadow := .empty, active := true, activeFmt := l.shadowFmt }
  | .mstream d _ _ _ _ =>
    if !l.active then .misuse else if pairOk l.activeFmt (dFormats d) then .ok l else .pair
  | .mzero _ _ => .ok l
  | .drainLanes _ _ _ _ _ => .ok l
  | .drainPort _ _ _ _ => .ok l
  | .mtile ts ta _ _ _ _ _ =>
    if pairOk (dFormats ts) (dFormats ta) then
      .ok { l with shadow := .empty, active := true, activeFmt := dFormats ts }
    else .pair

/-- What entering a command comes to. -/
inductive MEnter where
  | ok (s : State)
  | hold
  /-- Cause 0x23 or 0x24. -/
  | refuse (code : Nat) (s : State)

/-- A COMMAND ENTERS THE QUEUE (R268, R272): it is held while another context owns the state, while the
context's saved state is not yet restored, and while the queue is full. A context whose first command finds the engine
in FAULT becomes its owner all the same, so that its MSTAT can leave FAULT (log entry 19). -/
def enterMatrix (ctx core : Nat) (c : MCmd) (s : State) : MEnter :=
  let m := matrixOf s core
  if m.owner.isSome && m.owner ≠ some ctx then .hold
  else if m.owner.isNone && (sget none (coreOf s core).saved ctx).isSome then .hold
  else match logStep m.log c.op with
    | .misuse => .refuse 0x23 s
    | .pair => .refuse 0x24 s
    | .ok l =>
      if m.fault then .refuse 0x23 (updMatrix s core fun m => { m with owner := some ctx })
      else if m.queue.length ≥ 64 then .hold
      else .ok (updMatrix s core fun m => { m with owner := some ctx, log := l, queue := m.queue ++ [c] })

/-- The command of a unit, under the machine's next number. -/
def unitCmd (s : State) (u : UView) (op : MOp) (opcode desc : Nat) (lanes : List Nat) : MCmd :=
  { id := s.next, op := op, opcode := opcode, gk := u.gk, unit := some u.ref, xp := none
    pc := (whereAt u).1, scode := (whereAt u).2, lanes := lanes, desc := desc, launch := launchOf s (agentOf u) }

/-- The end of an instruction that enters a command; `fin` does what else it does. -/
def issueCmd (op : MOp) (opcode desc : Nat) (fin : State → State) (acts : List Nat) (u : UView) (s : State) : State :=
  if fenced s (agentOf u) 16 then hold s u .drain
  else match enterMatrix u.ctx u.core (unitCmd s u op opcode desc acts) (taken s) with
    | .hold => hold s u .matrix
    | .refuse code s => raiseOn { code := code, d0 := w32 opcode, source := 1 } acts u s
    | .ok s' => fin s'

/-- An ENG command without a result, which ends the idempotent region (R315). -/
def issueEng (op : MOp) (opcode desc : Nat) (acts : List Nat) (u : UView) (s : State) : State :=
  issueCmd op opcode desc (fun s => idem (advance s u) u) acts u s

/-- Cause 0x18 for a descriptor. -/
def descFail (n : Nat) (acts : List Nat) (u : UView) (s : State) : State :=
  gangFail { code := 0x18, d0 := w32 n } acts u s

/-- A descriptor is VALID, and a blocked one's k0 is a multiple of 32. -/
def operandOk (d : Desc) (k0 : Word) : Bool := dValid d && (dBlk d = 0 || k0.toNat % 32 = 0)

def execMload (o : OAB) (s : State) : Out :=
  issue (.mload o) { pipe := .gang, strand := o.s, srcs := [o.a], gs := basePair o.b, ends := true }
    (fun u acts s =>
      let a := gsrc s u o.a
      let n := a.toNat % 128
      let d := descOf s u.ctx u.core n
      let k0 := greg s u o.b.toNat
      if bits a 7 25 ≠ 0 then opFail (.mload o) 0x05 1 acts u s
      else if !operandOk d k0 then descFail n acts u s
      else issueEng (.mload d k0 (greg s u (o.b.toNat + 1))) 0xA0 n acts u s) s

def execMswap (x h : BitVec 2) (s : State) : Out :=
  issue (.mswap x h) { pipe := .gang, strand := x, ends := true }
    (fun u acts s => issueEng .mswap 0xA1 0 acts u s) s

def execMstream (o : OAB) (s : State) : Out :=
  issue (.mstream o) { pipe := .gang, strand := o.s, srcs := [o.a], gs := basePair o.b, ends := true }
    (fun u acts s =>
      let a := gsrc s u o.a
      let n := a.toNat % 128
      let d := descOf s u.ctx u.core n
      let k0 := greg s u o.b.toNat
      let h0 := bits a 8 8
      let m := bits a 16 8 + 1
      if bits a 7 1 ≠ 0 || bits a 24 8 ≠ 0 || h0 + m > 256 then opFail (.mstream o) 0x05 1 acts u s
      else if !operandOk d k0 then descFail n acts u s
      else issueEng (.mstream d h0 m k0 (greg s u (o.b.toNat + 1))) 0xA2 n acts u s) s

def execMzero (o : OA) (s : State) : Out :=
  issue (.mzero o) { pipe := .gang, strand := o.s, srcs := [o.a], ends := true }
    (fun u acts s =>
      let a := gsrc s u o.a
      if bits a 16 16 ≠ 0 || bits a 0 8 + bits a 8 8 > 255 then opFail (.mzero o) 0x05 1 acts u s
      else issueEng (.mzero (bits a 0 8) (bits a 8 8 + 1)) 0xA3 0 acts u s) s

/-- MDRAIN to lanes: the first column, or none where gA is out of range (R277). -/
def drainColumn (legacy : Bool) (a : Word) : Option Nat :=
  if legacy then (if bits a 10 22 ≠ 0 then none else some (bits a 8 2 * 16))
  else if bits a 9 23 ≠ 0 then none else some (bits a 8 1 * 32)

/-- MDRAIN to lanes is a gang-pipe word with a value for every lane: its result shifts into the lane latches, whose
entries hold one value per lane (DESIGN CHOICE, log entry 99). -/
def execMdrain (o : O2) (e : BitVec 3) (s : State) : Out :=
  issue (.mdrain o e) { pipe := .gang, strand := o.s, dst := some o.d, laneDst := true, w := o.w, srcs := [o.a] }
    (fun u acts s =>
      let a := gsrc s u o.a
      match drainColumn u.legacy a with
      | none => opFail (.mdrain o e) 0x05 1 acts u s
      | some col =>
        issueCmd (.drainLanes e.toNat (bits a 0 8) col o.d.toNat acts) 0xA4 0
          (fun s' => advance (openResult o.d o.w false s.next acts u s') u) acts u s) s

def execMdrainXp (o : OAB) (s : State) : Out :=
  issue (.mdrainXp o) { pipe := .gang, strand := o.s, srcs := [o.a], ends := true }
    (fun u acts s =>
      let a := gsrc s u o.a
      let h0 := bits a 0 8
      let m := bits a 8 8 + 1
      if bits a 17 15 ≠ 0 || h0 + m > 256 then opFail (.mdrainXp o) 0x05 1 acts u s
      else issueEng (.drainPort o.b.toNat h0 m (bits a 16 1)) 0xA4 0 acts u s) s

def execMtile (o : O3n) (s : State) : Out :=
  issue (.mtile o) { pipe := .gang, strand := o.s, srcs := [o.a, o.b], ends := true
                     limits := o.d.toNat < 59 && o.b.toNat < 59 }
    (fun u acts s =>
      let a := gsrc s u o.a
      let b := gsrc s u o.b
      let ns := bits a 0 7
      let na := bits a 8 7
      let ts := descOf s u.ctx u.core ns
      let ta := descOf s u.ctx u.core na
      let h0 := bits a 16 8
      let kp := bits a 25 2 + 1
      let m := bits b 0 8 + 1
      if bits a 7 1 ≠ 0 || bits a 15 1 ≠ 0 || bits a 27 5 ≠ 0 || bits b 13 19 ≠ 0
          || h0 + m > 256 || kp * m > 512 then opFail (.mtile o) 0x05 1 acts u s
      else if !dValid ts then descFail ns acts u s
      else if !dValid ta then descFail na acts u s
      else
        let tl := if b.getLsbD 8 then some (bits b 9 4, gpair s u o.d.toNat) else none
        match (if b.getLsbD 8 then [o.d.toNat, o.d.toNat + 1] else []).findSome? (awaited s u true acts) with
        | some e => hold s u (.entry e)
        | none => issueEng (.mtile ts ta h0 m kp (a.getLsbD 24) tl) 0xA5 ns acts u s) s

/-! ## MSTAT (R281) -/

/-- The two words of MSTAT; a command that has begun is executing, be it stalled (BUSY). -/
def mstatWords (m : Matrix) : Word × Word :=
  let sh := match m.log.shadow with
    | .empty => 0
    | .loading => 1
    | .ready => 2
  let step := match m.run, (m.queue.head?).map MCmd.op with
    | some (q, j), some (.mtile _ _ _ rows _ _ _) => q * rows + (j - 1)
    | _, _ => 0
  (w32 (0x80000000 + (if m.fault then 0x40000000 else 0) + sh * 0x10000000
      + (if m.log.active then 0x8000000 else 0) + (if m.run.isSome || m.held.isSome then 0x4000000 else 0)
      + m.queue.length * 0x10000 + step % 512),
    w32 (m.cause * 0x10000) ||| m.flags)

/-- A release (R268): both planes, every accumulator and the flags are cleared; FAULT stays, which only CLRFAULT
leaves (R272, log entry 19). -/
def releaseMatrix (core : Nat) (s : State) : State :=
  updMatrix s core fun m => { fault := m.fault, cause := m.cause }

/-- A release that was asked for takes place once the queue is empty. -/
def settleRelease (core : Nat) (s : State) : State :=
  let m := matrixOf s core
  if m.rel && m.queue = [] then releaseMatrix core s else s

def execMstat (o : O2) (s : State) : Out :=
  issue (.mstat o) { pipe := .gang, strand := o.s, dst := some o.d, w := o.w, srcs := [o.a]
                     limits := o.d.toNat < 59, more := [o.d.toNat + 1] }
    (fun u acts s =>
      let a := gsrc s u o.a
      let m := matrixOf s u.core
      if bits a 3 29 ≠ 0 then opFail (.mstat o) 0x05 1 acts u s
      else if m.owner ≠ some u.ctx then advance (gangResults o.d o.w 0 [0] u s) u
      else
        let x := mstatWords m
        let s := gangResults o.d o.w x.1 [x.2] u s
        let s := updMatrix s u.core fun m =>
          { m with flags := if a.getLsbD 0 then 0 else m.flags
                   fault := m.fault && !a.getLsbD 1, cause := if a.getLsbD 1 then 0 else m.cause
                   rel := m.rel || a.getLsbD 2 }
        advance (settleRelease u.core s) u) s

end Sys2Proof.Machine
end

