-- ==== Sys2Proof/Machine/Copy.lean ====
section
/-!
DEFINITION. Copy processors: starts and status (R243–R250), faults, and the scalar words (R251–R257).
-/
namespace Sys2Proof.Machine

/-! ## The processor (R243) -/

/-- aN of the run. -/
def areg (x : Xp) (n : Nat) : Word := sget 0 x.a n

/-- The pair {a(2L+1) : a(2L)} that a field L names. -/
def apair (x : Xp) (l : BitVec 3) : Dword := pair (areg x (2 * l.toNat)) (areg x (2 * l.toNat + 1))

/-- The processor is held at its word; `st` is WAIT where R245 says so, else RUN. -/
def xpHold (core p : Nat) (st : XpState) (w : WaitOn) (s : State) : State :=
  updXp core p (fun x => { x with state := st, wait := match x.wait with
    | some y => if y.on = w then some y else some ⟨w, s.usec⟩
    | none => some ⟨w, s.usec⟩ }) s

/-! ## Faults (R249) -/

/-- The lines that VPUBs in flight have staged are unstaged (R192). -/
def unstage (ctx : Nat) (lines : List Nat) (s : State) : State :=
  updCtx s ctx fun x => { x with lines := lines.foldl (fun m l => sset {} m l
    { sget {} m l with staged := none, stagedBad := [] }) x.lines }

/-- Commands that take a tile of the drain port (R260). -/
def takesTile (k : XKind) : Bool := decide (k = .moveA) || decide (k = .movePk)

/-- Commands in flight that hold a tile. -/
def tilesTaken (x : Xp) : Nat := (x.cmds.filter fun c => takesTile c.kind).length

/-- A COPY PROCESSOR FAULTS (R249): its status is recorded, commands, follows and starts are dropped,
staged lines are unstaged, and every barrier of the run is poisoned. `tiles` of the drain port go with
the commands. -/
def xpFaultAt (core p code : Nat) (addr : Dword) (bar : Option Nat) (fpc tiles : Nat) (s : State) : State :=
  let x := xpOf s core p
  let s := unstage x.ctx (x.cmds.flatMap XCmd.lines) (counted core code s)
  let s := { s with homeq := s.homeq.filter fun h => (h.xp.map fun t => (t.1, t.2.1)) ≠ some (core, p) }
  let s := updXp core p (fun x => { x with
    state := .fault, cause := code, fbar := bar, fpc := fpc, faddr := addr, wait := none, lastCmd := none
    cmds := [], follows := [], starts := [], port := x.port.drop tiles }) s
  x.barset.foldl (fun s key => poisonBar key s) s

/-- The address that a cause names, if its detail words hold one (R249, R307, R308). -/
def causeAddr (c : Cause) : Dword :=
  if (0x07 ≤ c.code ∧ c.code ≤ 0x0B) ∨ c.code = 0x0E ∨ c.code = 0x15 ∨ c.code = 0x30 ∨ c.code = 0x31 then pair c.d0 c.d1
  else if c.code = 0x0D then c.d0.setWidth 64
  else 0

/-- A fault at the current word. -/
def xpFault (core p code : Nat) (addr : Dword) (bar : Option Nat) (s : State) : State :=
  xpFaultAt core p code addr bar (xpOf s core p).pc (tilesTaken (xpOf s core p)) s

/-- A fault of a command in flight. -/
def xpCmdFault (core p : Nat) (c : XCmd) (code : Nat) (addr : Dword) (s : State) : State :=
  xpFaultAt core p code addr c.bar c.fpc (tilesTaken (xpOf s core p)) s

/-! ## The opening of a copy word -/

/-- THE OPENING OF EVERY COPY WORD: the processor that issues it, when a program runs on it. -/
def xrun (body : Nat → Nat → Xp → State → State) (s : State) : Out :=
  match s.cur with
  | some (.xp core p) =>
    let x := xpOf s core p
    if x.state = .run ∨ x.state = .wait then .next (body core p x s) else .fault .noUnit
  | _ => .fault .noUnit

/-- Earlier commands of the run that are not complete. -/
def busy (x : Xp) : Bool := x.cmds ≠ []

/-! ## XP.START (R244) -/

/-- The start that a gang joins: its index, when one is open for the cohort that the gang has not
joined. -/
def openStart (x : Xp) (coh gk : Nat) : Option Nat :=
  x.starts.findIdx? fun st => decide (st.coh = some coh) && !st.complete && !st.joined.any fun j => j.1 = gk

/-- A gang's start is recorded: in the open start, or in a slot of its own. -/
def joinStart (core p : Nat) (idx : Option Nat) (st : Start) (s : State) : State :=
  refreshStarts core p (updXp core p (fun x => match idx with
    | some i => { x with starts := (List.range x.starts.length).zip x.starts |>.map fun e =>
        if e.1 = i then { e.2 with joined := e.2.joined ++ st.joined, nodes := distinct (e.2.nodes ++ st.nodes) } else e.2 }
    | none => { x with starts := x.starts ++ [st] }) s)

/-- XP.START past its operand checks. -/
def startGo (acts : List Nat) (u : UView) (a : Dword) (b : Word) (s : State) : State :=
  let p := bits b 8 1
  let c := bits b 0 5
  let key := cohKey s u c
  let gk := u.gk.getD 0
  let x := xpOf s u.core p
  let coh := if b.getLsbD 5 then some key else none
  let g := u.gk.bind (gang? s)
  let st : Start :=
    { ctx := u.ctx, coh := coh, joined := [(gk, a)], nodes := (g.map Gang.node).toList, launch := launchOf s (agentOf u)
      cluster := (g.map Gang.cluster).getD [u.core] }
  if x.state = .fault then raiseOn { code := 0x26, d0 := w32 p, source := 1 } acts u s
  else if b.getLsbD 5 && (c > 15 || (cohOf s key).phase ≠ .formed || !isMember (cohOf s key) gk) then
    raiseOn (cohBad c) acts u s
  else if fenced s (agentOf u) 16 then hold s u .drain
  else
    let idx := coh.bind fun k => openStart x k gk
    if idx = none && x.starts.length ≥ 4 then hold s u (.startSlot p)
    else idem (advance (joinStart u.core p idx st s) u) u

def execXpStart (o : OAB) (s : State) : Out :=
  issue (.xpStart o) { pipe := .gang, strand := o.s, srcs := [o.b], gs := basePair o.a, ends := true }
    (fun u acts s =>
      let a := gpair s u o.a.toNat
      let b := gsrc s u o.b
      if bits b 9 23 ≠ 0 || bits b 6 2 ≠ 0 then opFail (.xpStart o) 0x05 1 acts u s
      else if a.toNat % 8 ≠ 0 then raiseOn { addrCause 0x07 a 0 with source := 1 } acts u s
      else startGo acts u a b s) s

/-! ## XP.STATUS (R250) -/

def xpStateNo : XpState → Nat
  | .idle => 0
  | .run => 1
  | .wait => 2
  | .fault => 3

/-- Status words 0–3 as a gang of context `ctx` reads them. -/
def xpStatus (x : Xp) (ctx : Nat) : List Word :=
  let w0 := xpStateNo x.state * 0x40000000 + x.starts.length * 0x8000000
  if x.ctx ≠ ctx then [w32 w0, 0, 0, 0]
  else
    let fpc := if x.state = .fault then x.fpc else if x.state = .idle then 0 else x.pc
    [w32 (w0 + x.loops.length * 0x1000000 + (if x.fbar.isSome then 0x800000 else 0) + x.cause * 0x10000
        + (x.fbar.getD 0) % 256 * 0x100),
      w32 (x.oor * 0x10000 + fpc % 0x10000), lo32 x.faddr, hi32 x.faddr]

def execXpStatus (o : O2) (s : State) : Out :=
  issue (.xpStatus o) { pipe := .gang, strand := o.s, dst := some o.d, w := o.w, srcs := [o.a]
                        limits := o.d.toNat < 57, more := [o.d.toNat + 1, o.d.toNat + 2, o.d.toNat + 3] }
    (fun u acts s =>
      let a := gsrc s u o.a
      let p := bits a 8 1
      let x := xpOf s u.core p
      if bits a 10 22 ≠ 0 || bits a 0 8 ≠ 0 then opFail (.xpStatus o) 0x05 1 acts u s
      else match xpStatus x u.ctx with
        | w :: l =>
          let s := gangResults o.d o.w w l u s
          let s := if a.getLsbD 9 && x.state = .fault then
              updXp u.core p (fun x => { port := x.port }) s
            else s
          advance s u
        | [] => s) s

/-! ## Scalar words (R253) -/

/-- An arithmetic word: aD := f of the operands. -/
def xpAlu (d : BitVec 4) (x y : Word) (f : Word → Word → Word) (core p : Nat) (s : State) : State :=
  xpNext core p (updXp core p (fun z => { z with a := sset 0 z.a d.toNat (f x y) }) s)

def xpReg (o : CrR) (f : Word → Word → Word) (s : State) : Out :=
  xrun (fun core p x s => xpAlu o.d (areg x o.a.toNat) (areg x o.b.toNat) f core p s) s

def xpImm (o : CrI) (f : Word → Word → Word) (s : State) : Out :=
  xrun (fun core p x s => xpAlu o.d (areg x o.a.toNat) (o.i.signExtend 32) f core p s) s

def bit (b : Bool) : Word := if b then 1 else 0

def shl (x y : Word) : Word := if y.toNat ≥ 32 then 0 else x <<< y.toNat
def shr (x y : Word) : Word := if y.toNat ≥ 32 then 0 else x >>> y.toNat

def execXpAddReg (o : CrR) (s : State) : Out := xpReg o (· + ·) s
def execXpAddImm (o : CrI) (s : State) : Out := xpImm o (· + ·) s
def execXpSubReg (o : CrR) (s : State) : Out := xpReg o (· - ·) s
def execXpSubImm (o : CrI) (s : State) : Out := xpImm o (· - ·) s
def execXpMulReg (o : CrR) (s : State) : Out := xpReg o (· * ·) s
def execXpMulImm (o : CrI) (s : State) : Out := xpImm o (· * ·) s
def execXpShlReg (o : CrR) (s : State) : Out := xpReg o shl s
def execXpShlImm (o : CrI) (s : State) : Out := xpImm o shl s
def execXpShrReg (o : CrR) (s : State) : Out := xpReg o shr s
def execXpShrImm (o : CrI) (s : State) : Out := xpImm o shr s
def execXpAndReg (o : CrR) (s : State) : Out := xpReg o (· &&& ·) s
def execXpAndImm (o : CrI) (s : State) : Out := xpImm o (· &&& ·) s
def execXpOrReg (o : CrR) (s : State) : Out := xpReg o (· ||| ·) s
def execXpOrImm (o : CrI) (s : State) : Out := xpImm o (· ||| ·) s
def execXpCmpEqReg (o : CrR) (s : State) : Out := xpReg o (fun x y => bit (x == y)) s
def execXpCmpEqImm (o : CrI) (s : State) : Out := xpImm o (fun x y => bit (x == y)) s
def execXpCmpNeReg (o : CrR) (s : State) : Out := xpReg o (fun x y => bit (x != y)) s
def execXpCmpNeImm (o : CrI) (s : State) : Out := xpImm o (fun x y => bit (x != y)) s
def execXpCmpLtReg (o : CrR) (s : State) : Out := xpReg o (fun x y => bit (x.slt y)) s
def execXpCmpLtImm (o : CrI) (s : State) : Out := xpImm o (fun x y => bit (x.slt y)) s
def execXpCmpLtuReg (o : CrR) (s : State) : Out := xpReg o (fun x y => bit (x.ult y)) s
def execXpCmpLtuImm (o : CrI) (s : State) : Out := xpImm o (fun x y => bit (x.ult y)) s

/-- The value that MOVI writes over `old`. -/
def moviNew (old : Word) (hs : Bool) (m : BitVec 16) : Word :=
  if hs then m ++ old.extractLsb' 0 16 else m.setWidth 32

def execXpMovi (d : BitVec 4) (hs : Bool) (m : BitVec 16) (s : State) : Out :=
  xrun (fun core p x s => xpAlu d (areg x d.toNat) 0 (fun a _ => moviNew a hs m) core p s) s

def execXpNop (s : State) : Out := xrun (fun core p _ s => xpNext core p s) s

/-! ## Engine reads (R231, R254) -/

/-- `n` words upward from an address: the words, or the first read that is not one, with its address. -/
def engineReads (s : State) (a : Agent) (n : Nat) (addr : Dword) : List Word × Option (Dword × XRead) :=
  engineList s a ((List.range n).map fun i => addr + BitVec.ofNat 64 (4 * i))

/-- A read that is no word: the processor faults, or is held until it can go on. -/
def xpReadFail (core p : Nat) (x : Xp) (bar : Option Nat) (addr : Dword) (r : XRead) (s : State) : State :=
  match r with
  | .word _ => s
  | .bad c => xpFault core p c.code addr bar s
  | .wait w => xpHold core p .run w (wanting x.ctx w s)
  | .miss page acc => xpHold core p .run (.page page) (requestWalk core x.ctx page acc (.xp core p none addr) s)

/-- LDX is checked as a load, which reaches neither the remote window (R165) nor, for want of a lane, a stack
(R254, log entry 89). -/
def execXpLdx (d : BitVec 4) (l : BitVec 3) (o : BitVec 16) (s : State) : Out :=
  xrun (fun core p x s =>
    let addr := apair x l + (o.signExtend 64) * 4
    match engineRead s (xpAgent core p x) addr .plain with
    | .word w => xpAlu d w 0 (fun a _ => a) core p s
    | r => xpReadFail core p x none addr r s) s

/-! ## Branches and loops (R255, R256) -/

/-- Cause 0x28 at the current word. -/
def xpIllegal (core p : Nat) (s : State) : State := xpFault core p 0x28 0 none s

/-- A branch taken to `aim`: not out of the innermost loop body. -/
def xpBranch (core p : Nat) (x : Xp) (f : BitVec 16) (s : State) : State :=
  let aim := xpWrap ((x.pc : Int) + f.toInt)
  match x.loops with
  | (_, first, last) :: _ => if first ≤ aim ∧ aim ≤ last then xpGoto core p aim s else xpIllegal core p s
  | [] => xpGoto core p aim s

def execXpBr (f : BitVec 16) (s : State) : Out := xrun (fun core p x s => xpBranch core p x f s) s
def execXpBz (a : BitVec 4) (f : BitVec 16) (s : State) : Out :=
  xrun (fun core p x s => if areg x a.toNat = 0 then xpBranch core p x f s else xpNext core p s) s
def execXpBnz (a : BitVec 4) (f : BitVec 16) (s : State) : Out :=
  xrun (fun core p x s => if areg x a.toNat = 0 then xpNext core p s else xpBranch core p x f s) s

/-- LOOP with a count and the word offset of its ENDL. -/
def xpLoop (core p : Nat) (x : Xp) (count off : Nat) (s : State) : State :=
  if count = 0 then xpGoto core p (xpWrap ((x.pc : Int) + off + 1)) s
  else if x.loops.length ≥ 4 then xpIllegal core p s
  else xpNext core p (updXp core p (fun y => { y with
    loops := (count, xpWrap ((x.pc : Int) + 1), xpWrap ((x.pc : Int) + off)) :: y.loops }) s)

def execXpLoopReg (a : BitVec 4) (f : BitVec 10) (s : State) : Out :=
  xrun (fun core p x s => xpLoop core p x (areg x a.toNat).toNat f.toNat s) s
def execXpLoopImm (_a : BitVec 4) (m : BitVec 11) (f : BitVec 10) (s : State) : Out :=
  xrun (fun core p x s => xpLoop core p x m.toNat f.toNat s) s

def execXpEndl (s : State) : Out :=
  xrun (fun core p x s => match x.loops with
    | [] => xpIllegal core p s
    | (n, first, last) :: l =>
      if x.pc ≠ last then xpIllegal core p s
      else if n - 1 ≠ 0 then
        xpGoto core p first (updXp core p (fun y => { y with loops := (n - 1, first, last) :: l }) s)
      else xpNext core p (updXp core p (fun y => { y with loops := l }) s)) s

/-! ## Cursors (R257) -/

def cursorOf (x : Xp) (k : BitVec 2) : Cursor := x.cur.getD k.toNat {}
def setCursor (core p : Nat) (k : BitVec 2) (c : Cursor) (s : State) : State :=
  updXp core p (fun x => { x with cur := lset x.cur k.toNat c }) s

def execXpCurSet (k : BitVec 2) (n : BitVec 7) (s : State) : Out :=
  xrun (fun core p x s =>
    let d := descOf s x.ctx core n.toNat
    if !dValid d then xpFault core p 0x18 0 none s
    else xpNext core p (setCursor core p k
      { bound := true, desc := n.toNat, win := (List.range 5).map fun i => w32 (dExt d i) } s)) s

/-- POSd of a cursor raised. -/
def curStep (k : BitVec 2) (d : BitVec 3) (by_ : Word) (core p : Nat) (x : Xp) (s : State) : State :=
  let c := cursorOf x k
  xpNext core p (setCursor core p k { c with pos := lset c.pos d.toNat (c.pos.getD d.toNat 0 + by_) } s)

def execXpCurStepReg (k : BitVec 2) (d : BitVec 3) (a : BitVec 4) (s : State) : Out :=
  xrun (fun core p x s => curStep k d (areg x a.toNat) core p x s) s
def execXpCurStepImm (k : BitVec 2) (d : BitVec 3) (m : BitVec 16) (s : State) : Out :=
  xrun (fun core p x s => curStep k d (m.signExtend 32) core p x s) s

def execXpCurAt (k : BitVec 2) (d : BitVec 3) (w : Bool) (a : BitVec 4) (s : State) : Out :=
  xrun (fun core p x s =>
    let c := cursorOf x k
    let v := areg x a.toNat
    if w && v = 0 then xpIllegal core p s
    else xpNext core p (setCursor core p k
      (if w then { c with win := lset c.win d.toNat v } else { c with pos := lset c.pos d.toNat v }) s)) s

end Sys2Proof.Machine
end

