-- ==== Sys2Proof/Machine/CopyData.lean ====
section
/-!
DEFINITION. The data commands of the copy processors (R247, R248, R258–R261), how their words land,
publication (R192), FOLLOW (R262), PSEL (R263), and the words that synchronise and end a run (R264,
R265).
-/
namespace Sys2Proof.Machine

/-! ## Elements as bytes (R141, R180, R258) -/

/-- Elements that move together: 32 of a block format, else one. -/
def unitElems (d : Desc) : Nat := if dBlk d = 1 then 32 else 1
def unitBytes (d : Desc) : Nat := fmtWidth (dFmt d) * unitElems d / 8

/-- The address of byte `k` of the unit whose first element is `c`. -/
def unitByte (d : Desc) (c : List Int) (k : Nat) : Dword :=
  dBase d + permute (dPerm d) (BitVec.ofInt 64 (elemOff d c + k))

/-- Codes of `w` bits as one little-endian bit string. -/
def packBits (w : Nat) (xs : List Nat) : Nat := xs.foldr (fun x a => x % 2 ^ w + 2 ^ w * a) 0

/-- A unit of FILL. -/
def fillBytes (d : Desc) : List Byte :=
  natLe (unitBytes d) (packBits (fmtWidth (dFmt d)) (List.replicate (unitElems d) (dFill d).toNat))

/-- The bytes of a unit read from its source, and of FILL. -/
def unitSrc (s : Desc) (src : Option (List Int)) : List XByte :=
  match src with
  | some c => (List.range (unitBytes s)).map fun k => .read (dSpace s) (unitByte s c k)
  | none => (fillBytes s).map .const

/-- A stored NS20 scale is a word: it must be aligned. -/
def scaleMis (d : Desc) (c : List Int) : Bool := dScale d = 2 && (scaleAddr d c).toNat % 4 ≠ 0

/-- The bytes of a unit's scale as stored: NS20 bits 31:20 are written zero (R141); 1.0 for FILL. -/
def scaleSrc (s : Desc) (src : Option (List Int)) : List XByte :=
  match src with
  | some c =>
    let at_ (k : Nat) : Dword := scaleAddr s c + BitVec.ofNat 64 k
    if scaleMis s c then List.replicate (scaleBytes s) (.mis (scaleAddr s c))
    else if dScale s = 1 then [.read (dSpace s) (at_ 0)]
    else [.read (dSpace s) (at_ 0), .read (dSpace s) (at_ 1), .low4 (dSpace s) (at_ 2), .const 0]
  | none => if dScale s = 1 then [.const 0x7F#8] else (natLe 4 0x7FC00).map .const

def countUp (at_ : Nat → Dword) (bs : List XByte) : List (Dword × XByte) :=
  (List.range bs.length).zip bs |>.map fun e => (at_ e.1, e.2)

/-- The bytes of a block's scale at its destination; a misaligned one raises its cause when it is written (R258). -/
def putScale (d : Desc) (dst : List Int) (bs : List XByte) : List (Dword × XByte) :=
  if dBlk d ≠ 1 then []
  else countUp (fun k => scaleAddr d dst + BitVec.ofNat 64 k)
    (if scaleMis d dst then bs.map fun _ => .mis (scaleAddr d dst) else bs)

/-- The destination bytes of one unit, its scale with it. -/
def putUnit (s d : Desc) (dst : List Int) (src : Option (List Int)) : List (Dword × XByte) :=
  countUp (unitByte d dst) (unitSrc s src) ++ putScale d dst (scaleSrc s src)

/-! ## Destination words -/

/-- A byte put into words held in descending address order; a later byte at an address wins. -/
def winsert (space : Nat) (addr : Dword) (b : XByte) : List XWord → List XWord
  | [] => [⟨space, BitVec.ofNat 64 (addr.toNat / 4 * 4), lset [none, none, none, none] (addr.toNat % 4) (some b), none⟩]
  | w :: l =>
    if w.addr.toNat / 4 = addr.toNat / 4 then { w with bytes := lset w.bytes (addr.toNat % 4) (some b) } :: l
    else if w.addr.toNat < addr.toNat then
      ⟨space, BitVec.ofNat 64 (addr.toNat / 4 * 4), lset [none, none, none, none] (addr.toNat % 4) (some b), none⟩ :: w :: l
    else w :: winsert space addr b l

/-- The aligned words of a command, ascending (R231, R234). -/
def xwords (space : Nat) (ps : List (Dword × XByte)) : List XWord :=
  (ps.foldl (fun l p => winsert space p.1 p.2 l) []).reverse

def wordBytesNo (w : XWord) : Nat := (w.bytes.filter Option.isSome).length

/-! ## Boxes (R258) -/

/-- Offsets j in 0 … win − 1, by `step`, with pos + j in 0 … ext − 1. -/
def boxSteps (pos : Int) (win ext step : Nat) : List Int :=
  let lo := max 0 (-pos)
  let hi := min (win : Int) (ext - pos)
  (List.range (((hi - lo).toNat + step - 1) / step)).map fun (i : Nat) => lo + (i : Int) * step

/-- All coordinates with the given choices in each dimension, dimension 0 fastest. -/
def product : List (List Int) → List (List Int)
  | [] => [[]]
  | js :: l => (product l).flatMap fun c => js.map fun j => j :: c

def posInt (c : Cursor) (k : Nat) : Int := (c.pos.getD k 0).toInt
def winNat (c : Cursor) (k : Nat) : Nat := (c.win.getD k 0).toNat

/-- Some element of the box lies outside the extents. -/
def boxOut (d : Desc) (c : Cursor) (w : Cursor) : Bool :=
  (List.range 5).any fun k => decide (posInt c k < 0 ∨ (dExt d k : Int) < posInt c k + winNat w k)

/-- RANK, FMT, SCALE and BLK agree. -/
def alike (s d : Desc) : Bool := dRank s = dRank d && dFmt s = dFmt d && dScale s = dScale d && dBlk s = dBlk d

/-- What a command's checks come to: the destination bytes, or a cause with its address. -/
inductive Plan where
  | ok (ps : List (Dword × XByte))
  | bad (code : Nat) (addr : Dword)

/-- The checks and the bytes of MOVE (R258). -/
def boxPlan (strict : Bool) (s d : Desc) (cs cd : Cursor) : Plan :=
  let odd (w : Word) : Bool := w.toNat % 32 ≠ 0
  if !dValid s || !dValid d || !alike s d then .bad 0x18 0
  else if dBlk s = 1 && (odd (cs.pos.getD 0 0) || odd (cd.pos.getD 0 0) || odd (cs.win.getD 0 0)) then .bad 0x18 0
  else if strict && (boxOut s cs cs || boxOut d cd cs) then .bad 0x19 0
  else
    let js := (List.range 5).map fun k =>
      boxSteps (posInt cd k) (winNat cs k) (dExt d k) (if k = 0 then unitElems d else 1)
    .ok ((product js).flatMap fun j =>
      let dst := (List.range 5).map fun k => posInt cd k + j.getD k 0
      let src := (List.range 5).map fun k => posInt cs k + j.getD k 0
      putUnit s d dst (if inside s src then some src else none))

/-! ## Starting a command (R247, R248) -/

/-- The barrier a command names: its number, unless NB. -/
def barNo (nb : Bool) (b : BitVec 8) : Option Nat := if nb then none else some b.toNat

/-- The barrier joins the run's barrier set. -/
def enterBarset (core p : Nat) (bar : Option Nat) (s : State) : State :=
  match bar with
  | none => s
  | some n =>
    let key := barHome s (xpOf s core p).ctx core n
    updXp core p (fun x => if x.barset.contains key then x else { x with barset := x.barset ++ [key] }) s

/-- The opening of a data command: bound cursors, room for an eighth command, the barrier set. -/
def xpBegin (cs : List Cursor) (bar : Option Nat) (body : Xp → State → State) (core p : Nat) (x : Xp)
    (s : State) : State :=
  if cs.any fun c => !c.bound then xpFault core p 0x28 0 bar s
  else if x.cmds.length ≥ 8 then xpHold core p .run .drain s
  else body x (enterBarset core p bar s)

/-- A command is in flight and the program goes on. -/
def xpCommand (core p : Nat) (kind : XKind) (bar : Option Nat) (words : List XWord) (version : Nat)
    (lines : List Nat) (s : State) : State :=
  let id := s.next
  let c : XCmd := { id := id, kind := kind, fpc := (xpOf s core p).pc, bar := bar, words := words
                    version := version, lines := lines }
  updXp core p (fun x => { x with cmds := x.cmds ++ [c], lastCmd := some id }) (xpNext core p (taken s))

def curDesc (s : State) (core : Nat) (x : Xp) (c : Cursor) : Desc := descOf s x.ctx core c.desc

def execXpMove (d k : BitVec 2) (nb st : Bool) (b : BitVec 8) (s : State) : Out :=
  xrun (fun core p x s =>
    let cs := cursorOf x k
    let cd := cursorOf x d
    xpBegin [cs, cd] (barNo nb b) (fun x s =>
      let dd := curDesc s core x cd
      match boxPlan st (curDesc s core x cs) dd cs cd with
      | .bad code addr => xpFault core p code addr (barNo nb b) s
      | .ok ps => xpCommand core p .move (barNo nb b) (xwords (dSpace dd) ps) 0 [] s) core p x s) s

/-! ## MOVE.G (R259) -/

/-- The checks of MOVE.G that come before the indices'. -/
def gatherOk (ts td : Desc) : Bool :=
  dValid ts && dValid td && alike ts td
    && (List.range (dRank ts - 1)).all (fun i => dExt ts i = dExt td i)

/-- The coordinates of a slice, the last one left at 0. -/
def sliceCoords (ts : Desc) : List (List Int) :=
  let r := dRank ts
  product ((List.range 5).map fun k =>
    if k + 1 < r then boxSteps 0 (dExt ts k) (dExt ts k) (if k = 0 then unitElems ts else 1) else [0])

/-- What an index selects: a slice of tS, or fill, counted in OOR or not. -/
inductive Pick1 where
  | slice (i : Nat)
  | fill (oor : Bool)
deriving DecidableEq, Repr

def pickIdx (ts : Desc) (idx : Word) : Pick1 :=
  if dSent ts && idx = 0xFFFFFFFF then .fill false
  else if idx.toNat ≥ dExt ts (dRank ts - 1) then .fill true
  else .slice idx.toNat

/-- The block that holds a coordinate, by its first element. -/
def blockHead (c : List Int) : List Int := lset c 0 (c.getD 0 0 / 32 * 32)

/-- The bytes of a unit of a slice. A slice of a rank-1 block tensor is one element: a byte moves alone, with the
scale of its block; narrower elements move as the whole blocks that hold them (DESIGN CHOICE, log entry 98). -/
def gatherUnit (ts td : Desc) (dst : List Int) (src : Option (List Int)) : List (Dword × XByte) :=
  if dBlk ts = 0 || dRank ts ≠ 1 then putUnit ts td dst src
  else if fmtWidth (dFmt ts) ≠ 8 then putUnit ts td (blockHead dst) (src.map blockHead)
  else
    let place (c : List Int) : Nat := (c.getD 0 0 % 32).toNat
    let b : XByte := match src with
      | some c => .read (dSpace ts) (unitByte ts (blockHead c) (place c))
      | none => .const ((fillBytes ts).headD 0)
    (unitByte td (blockHead dst) (place dst), b) :: putScale td dst (scaleSrc ts src)

def gatherPlan (strict : Bool) (ts td : Desc) (idx : List Word) : Plan :=
  let r := dRank ts
  let room := dExt td (r - 1)
  if !gatherOk ts td then .bad 0x18 0
  else if strict && idx.any (fun i => pickIdx ts i = .fill true) then .bad 0x27 0
  else if strict && idx.length > room then .bad 0x19 0
  else .ok (((List.range idx.length).zip idx).flatMap fun e =>
    if e.1 ≥ room then []
    else (sliceCoords ts).flatMap fun c => gatherUnit ts td (lset c (r - 1) e.1) (match pickIdx ts e.2 with
      | .slice i => some (lset c (r - 1) i)
      | .fill _ => none))

/-- Slices written that are out of range (OOR). -/
def gatherOor (ts td : Desc) (idx : List Word) : Nat :=
  ((idx.take (dExt td (dRank ts - 1))).filter fun i => pickIdx ts i = .fill true).length

def execXpMoveG (k : BitVec 4) (d t : BitVec 7) (l : BitVec 3) (st : Bool) (b : BitVec 8) (s : State) : Out :=
  xrun (fun core p x s => xpBegin [] (some b.toNat) (fun x s =>
    let ts := descOf s x.ctx core t.toNat
    let td := descOf s x.ctx core d.toNat
    match engineReads s (xpAgent core p x) (k.toNat + 1) (apair x l) with
    | (_, some (addr, r)) => xpReadFail core p x (some b.toNat) addr r s
    | (idx, none) => match gatherPlan st ts td idx with
      | .bad code addr => xpFault core p code addr (some b.toNat) s
      | .ok ps => xpCommand core p .moveG (some b.toNat) (xwords (dSpace td) ps) 0 []
          (updXp core p (fun x => { x with oor := min 0xFFFF (x.oor + gatherOor ts td idx) }) s)) core p x s) s

/-! ## MOVE.A and MOVE.PK (R260) -/

/-- The tile a command takes: the first that no command in flight holds. -/
def headTile (x : Xp) : Option Tile := x.port[tilesTaken x]?

/-- Tile coordinates (column, row) whose elements lie inside the destination. -/
def tileCoords (d : Desc) (c : Cursor) (t : Tile) (step : Nat) : List (Nat × Nat × List Int) :=
  (List.range t.rows.length).flatMap fun (i : Nat) => (List.range (64 / step)).filterMap fun (n : Nat) =>
    let at_ : List Int := (List.range 5).map fun k =>
      posInt c k + (if k = 0 then Int.ofNat (n * step) else if k = 1 then Int.ofNat i else 0)
    if inside d at_ then some (n * step, i, at_) else none

def tileOut (d : Desc) (c : Cursor) (t : Tile) : Bool := (tileCoords d c t 1).length ≠ t.rows.length * 64

def tileElem (t : Tile) (i n : Nat) : Word := (t.rows.getD i []).getD n 0

/-- The words of MOVE.A: one addend each. -/
def addWords (d : Desc) (c : Cursor) (t : Tile) : List XWord :=
  (tileCoords d c t 1).map fun e => ⟨dSpace d, elemAddr d e.2.2, [none, none, none, none], some (tileElem t e.2.1 e.1)⟩

/-- The bytes of MOVE.PK. -/
def tileBytes (d : Desc) (c : Cursor) (t : Tile) : List (Dword × XByte) :=
  (tileCoords d c t (unitElems d)).flatMap fun e =>
    let codes := (List.range (unitElems d)).map fun k => (tileElem t e.2.1 (e.1 + k)).toNat
    let sc := ((t.scales.getD e.2.1 []).getD (e.1 / 32) 0).toNat
    countUp (unitByte d e.2.2) ((natLe (unitBytes d) (packBits (fmtWidth (dFmt d)) codes)).map .const)
      ++ putScale d e.2.2 ((natLe (scaleBytes d) sc).map .const)

/-- A drain command fails: the tile at the head leaves with the others (R260). -/
def xpTileFault (core p code : Nat) (addr : Dword) (bar : Option Nat) (s : State) : State :=
  xpFaultAt core p code addr bar (xpOf s core p).pc (tilesTaken (xpOf s core p) + 1) s

/-- The opening of a drain command: a tile, or a wait in WAIT for one. -/
def withTile (cd : Cursor) (bar : Option Nat) (body : Tile → Desc → State → State) (core p : Nat) (x : Xp)
    (s : State) : State :=
  xpBegin [cd] bar (fun x s => match headTile x with
    | none => xpHold core p .wait .matrix s
    | some t => body t (curDesc s core x cd) s) core p x s

def execXpMoveA (d : BitVec 2) (nb st : Bool) (b : BitVec 8) (s : State) : Out :=
  xrun (fun core p x s =>
    let cd := cursorOf x d
    withTile cd (barNo nb b) (fun t dd s =>
      let fail (code : Nat) : State := xpTileFault core p code 0 (barNo nb b) s
      if !dValid dd || dFmt dd ≠ 2 then fail 0x18
      else if t.fmt ≠ 2 then fail 0x24
      else if st && tileOut dd cd t then fail 0x19
      else xpCommand core p .moveA (barNo nb b) (addWords dd cd t) 0 [] s) core p x s) s

def execXpMovePk (d : BitVec 2) (nb st : Bool) (b : BitVec 8) (s : State) : Out :=
  xrun (fun core p x s =>
    let cd := cursorOf x d
    withTile cd (barNo nb b) (fun t dd s =>
      let fail (code : Nat) : State := xpTileFault core p code 0 (barNo nb b) s
      if !dValid dd then fail 0x18
      else if dFmt dd ≠ t.fmt || dScale dd ≠ t.scale || dBlk dd ≠ (if t.scale = 0 then 0 else 1) then fail 0x24
      else if dBlk dd = 1 && (cd.pos.getD 0 0).toNat % 32 ≠ 0 then fail 0x18
      else if st && tileOut dd cd t then fail 0x19
      else xpCommand core p .movePk (barNo nb b) (xwords (dSpace dd) (tileBytes dd cd t)) 0 [] s) core p x s) s

/-! ## VPUB (R192, R261) -/

/-- The destination bytes lie in one designated region: the lines they touch, or the address of one
that does not. -/
def vpubLines (s : State) (ctx space : Nat) (ps : List (Dword × XByte)) : Except Dword (List Nat) :=
  match ps with
  | [] => .ok []
  | (a0, _) :: _ => match if space = 0 then regionAt s ctx a0.toNat else none with
    | none => .error a0
    | some (_, r) => match ps.find? fun e => !decide (r.base ≤ e.1.toNat ∧ e.1.toNat < r.base + r.size) with
      | some e => .error e.1
      | none => .ok (ps.map fun e => e.1.toNat / 64).eraseDups

/-- Every line of the set is staged under number `m`, with its latest bytes. -/
def stage (ctx m : Nat) (lines : List Nat) (s : State) : State :=
  lines.foldl (fun s l => updCtx s ctx fun x => { x with
    lines := sset {} x.lines l { sget {} x.lines l with
      staged := some (m, latestBytes s ctx (l * 64)), stagedBad := latestBad s ctx l } }) s

/-- VPUB with its bytes known. -/
def vpubGo (core p : Nat) (x : Xp) (bar : Option Nat) (space m : Nat) (ps : List (Dword × XByte)) (s : State) : State :=
  match vpubLines s x.ctx space ps with
  | .error a => xpFault core p 0x15 a bar s
  | .ok lines =>
    if m = 0 ∨ m = 0xFFFFFFFF then xpFault core p 0x05 0 bar s
    else match checkLines s x.ctx m { code := 0x05 } lines 0 with
      | .wait line => xpHold core p .run (.staged line) s
      | .bad c conflict =>
        let s' := xpFault core p c.code (match conflict with
          | some l => BitVec.ofNat 64 (l * 64)
          | none => 0) bar s
        match conflict with
        | some line => conflictReaders x.ctx line m c s'
        | none => s'
      | .ok => xpCommand core p .vpub bar (xwords space ps) m lines (stage x.ctx m lines s)

def execXpVpub (d k : BitVec 2) (nb st : Bool) (b : BitVec 8) (v : BitVec 4) (s : State) : Out :=
  xrun (fun core p x s =>
    let cs := cursorOf x k
    let cd := cursorOf x d
    xpBegin [cs, cd] (barNo nb b) (fun x s =>
      let dd := curDesc s core x cd
      match boxPlan st (curDesc s core x cs) dd cs cd with
      | .bad code addr => xpFault core p code addr (barNo nb b) s
      | .ok ps => vpubGo core p x (barNo nb b) (dSpace dd) (areg x v.toNat).toNat ps s) core p x s) s

/-! ## Landing (R231, R234, R248) -/

/-- What one byte's source comes to. -/
inductive ByteRes where
  | byte (b : Byte)
  | bad (c : Cause) (addr : Dword)
  | wait (w : WaitOn)
  | miss (addr : Dword) (page acc : Nat)

def srcByte (s : State) (a : Agent) (space : Nat) (addr : Dword) : ByteRes :=
  match spaceSpot s a space addr 1 1 with
  | .ok q => .byte ((spotBytes s a.core a.ctx none q 1).headD 0)
  | .bad c => .bad c addr
  | .wait w => .wait w
  | .miss page acc => .miss addr page acc

def xbyte (s : State) (a : Agent) : XByte → ByteRes
  | .const b => .byte b
  | .mis addr => .bad (addrCause 0x07 addr 0) addr
  | .read space addr => srcByte s a space addr
  | .low4 space addr => match srcByte s a space addr with
    | .byte b => .byte (b &&& 0x0F#8)
    | r => r

/-- The bytes of a word with their places in it, or the first that is not there yet. -/
def wordSrc (s : State) (a : Agent) : List (Nat × Option XByte) → List (Nat × Byte) × Option ByteRes
  | [] => ([], none)
  | (_, none) :: l => wordSrc s a l
  | (i, some x) :: l => match xbyte s a x with
    | .byte b => let r := wordSrc s a l; ((i, b) :: r.1, r.2)
    | e => ([], some e)

/-- The command of a processor by its number. -/
def xcmd (s : State) (core p cmd : Nat) : Option XCmd := (xpOf s core p).cmds.find? fun c => c.id = cmd

def updCmd (core p cmd : Nat) (f : XCmd → XCmd) (s : State) : State :=
  updXp core p (fun x => { x with cmds := x.cmds.map fun c => if c.id = cmd then f c else c }) s

/-- Bytes of a command are complete at its barrier's scope: they count down BYTES (R248). -/
def countCmd (core p : Nat) (c : XCmd) (n : Nat) (s : State) : State :=
  match c.bar with
  | none => s
  | some b =>
    let r := countBytes (barHome s (xpOf s core p).ctx core b) n s
    if r.1 then xpCmdFault core p c 0x1C 0 r.2 else r.2

/-- Bytes stored at a spot of a command's destination: in the die view, a store or window, or a staged
line. -/
def landAt (core p : Nat) (c : XCmd) (q : Spot) (bs : List (Nat × Byte)) (s : State) : State :=
  let x := xpOf s core p
  let many (loc : Nat) : State :=
    let kvs := bs.map fun e => (loc + e.1, e.2)
    writeBytes (clearBadKeys s (kvs.map Prod.fst)) kvs
  match q with
  | .view pa => originate (dieNo core) (bs.map fun e => (pa + e.1, e.2)) { ctx := x.ctx, xp := some (core, p, c.id) } s
  | .sp k off => many (spLoc k off)
  | .eaves d off => many (eavesLoc d off)
  | .purlin d off => many (purlinLoc d off)
  | .line va => updCtx s x.ctx fun y => { y with
      lines := let l := sget {} y.lines (va / 64)
        sset {} y.lines (va / 64) { l with
          staged := l.staged.map fun e => (e.1, patched e.2 (bs.map fun b => (va % 64 + b.1, b.2)))
          stagedBad := if bs.length = 4 then l.stagedBad.filter (· ≠ va % 64 / 4) else l.stagedBad } }

/-- The spot of a command's write of `size` bytes for access types `acc`. -/
def landSpot (s : State) (a : Agent) (c : XCmd) (space : Nat) (addr : Dword) (size acc : Nat) : AccRes :=
  if space = 0 then resolve s a .desc 0 addr size acc (decide (c.kind = .vpub)) else purlinSpot s a addr size acc

/-- A MOVE.A update at a spot (R260): sent to its home, or applied. -/
def landAdd (core p : Nat) (c : XCmd) (q : Spot) (addend : Word) (addr : Dword) (s : State) : State :=
  match q with
  | .view pa => { taken s with homeq := s.homeq ++ [
      { id := s.next, home := homeDie pa, pa := pa, op := .redm 0x9B addend, lane := 0
        unit := none, ctx := (xpOf s core p).ctx, core := core, gk := none, qid := 0, seq := 0, entry := none
        pc := w32 c.fpc, scode := false, order := 0, xp := some (core, p, c.id) }] }
  | q =>
    let s1 := { s with shadow := [] }
    if shadowFails s.shadow (.float f32) 0 (updated (.redm 0x9B addend) (spotWord s q)) then xpCmdFault core p c 0x22 addr s1
    else countCmd core p c 4 (atomSpot (.redm 0x9B addend) q s1).2

/-- A WORD OF A COMMAND LANDS: its sources are read, and it is written as one unit; nothing happens
while a source or the destination must wait. -/
def landWord (core p : Nat) (c : XCmd) (dst : Nat) (w : XWord) (s : State) : State :=
  let a := xpAgent core p (xpOf s core p)
  let ask (page acc : Nat) (addr : Dword) : State := requestWalk core a.ctx page acc (.xp core p (some c.id) addr) s
  let gone (s : State) : State := updCmd core p c.id (fun c => { c with words := c.words.eraseIdx dst }) s
  match w.add with
  | some v => match landSpot s a c w.space w.addr 4 8 with
    | .bad e => xpCmdFault core p c e.code w.addr s
    | .wait w => wanting a.ctx w s
    | .miss page acc => ask page acc w.addr
    | .ok q => landAdd core p c q v w.addr (gone s)
  | none => match wordSrc s a ((List.range 4).zip w.bytes) with
    | (_, some (.bad e addr)) => xpCmdFault core p c e.code addr s
    | (_, some (.miss addr page acc)) => ask page acc addr
    | (_, some (.wait w)) => wanting a.ctx w s
    | (_, some (.byte _)) => s
    | (bs, none) =>
      let i := (bs.map Prod.fst).headD 0
      let at_ := w.addr + BitVec.ofNat 64 i
      match landSpot s a c w.space at_ 1 2 with
      | .bad e => xpCmdFault core p c e.code at_ s
      | .wait w => wanting a.ctx w s
      | .miss page acc => ask page acc at_
      | .ok q =>
        let s := landAt core p c q (bs.map fun e => (e.1 - i, e.2)) (gone s)
        if c.kind = .vpub then updCmd core p c.id (fun c => { c with count := c.count + bs.length }) s
        else countCmd core p c bs.length s

/-- COPY_WRITE_COMPLETE: word `dst` of those a command has left lands, complete at its barrier's scope
(a MOVE.A word in a die view is counted once its home has applied it). -/
def execCopyWriteComplete (core xp cmd dst : Nat) (s : State) : Out :=
  .next (match xcmd s core xp cmd with
    | some c => match c.words[dst]? with
      | some w => landWord core xp c dst w s
      | none => s
    | none => s)

/-- Updates of a command still on their way to a home, or from there to the processor's own die. -/
def cmdFlying (s : State) (core p cmd : Nat) : Bool :=
  s.homeq.any (fun h => h.xp = some (core, p, cmd))
    || s.pubs.any fun w => decide (w.xp = some (core, p, cmd)) && w.at_ && decide (w.into = dieNo core)

/-- A command is complete: every write applied, a version set published. -/
def cmdDone (s : State) (core p : Nat) (c : XCmd) : Bool :=
  c.words = [] && c.lines = [] && !cmdFlying s core p c.id

/-- The tile that a command holds: its place in the port. -/
def tileIndex (x : Xp) (cmd : Nat) : Nat :=
  ((x.cmds.takeWhile fun c => c.id ≠ cmd).filter fun c => takesTile c.kind).length

/-- COPY_COMMAND_COMPLETE (R247, R260). -/
def execCopyCommandComplete (core xp cmd : Nat) (s : State) : Out :=
  .next (match xcmd s core xp cmd with
    | none => s
    | some c =>
      if cmdDone s core xp c then
        updXp core xp (fun x => { x with
          cmds := x.cmds.filter fun c => c.id ≠ cmd
          port := if takesTile c.kind then x.port.eraseIdx (tileIndex x cmd) else x.port }) s
      else s)

/-- VPUB_PUBLISH (R192): the last line's bytes have arrived; every line of the set takes version `m` at
once, and the set's bytes are counted (R261). -/
def execVpubPublish (core xp cmd : Nat) (s : State) : Out :=
  .next (match xcmd s core xp cmd with
    | none => s
    | some c =>
      if c.kind = .vpub ∧ c.words = [] ∧ c.lines ≠ [] then
        let ctx := (xpOf s core xp).ctx
        let news := c.lines.map fun l => (l, sget {} (ctxD s ctx).lines l)
        let s := news.foldl (fun s e =>
          appendVersion ctx e.1 c.version ((e.2.staged.map Prod.snd).getD []) e.2.stagedBad s) (unstage ctx c.lines s)
        countCmd core xp c c.count (updCmd core xp cmd (fun c => { c with lines := [] }) s)
      else s)

/-! ## FOLLOW (R238, R239, R262, R280) -/

def execXpFollow (t a : BitVec 7) (r : BitVec 8) (z : Bool) (s : State) : Out :=
  xrun (fun core p x s => match x.lastCmd with
    | none => xpIllegal core p s
    | some cmd =>
      if x.follows.length ≥ 4 then xpHold core p .run .drain s
      else
        let m := matrixOf s core
        let s := if m.owner.isNone && (sget none (coreOf s core).saved x.ctx).isNone then
            updMatrix s core fun m => { m with owner := some x.ctx }
          else s
        xpNext core p (updXp core p (fun x => { x with
          follows := x.follows ++ [⟨cmd, t.toNat, a.toNat, r.toNat, z, x.pc⟩] }) s)) s

/-- FOLLOW_MTILE_ISSUE (R239, R262, R280): once the followed command is complete, the MTILE enters the
queue, or the processor faults with the cause of its refusal. -/
def execFollowMtileIssue (core xp slot : Nat) (s : State) : Out :=
  let x := xpOf s core xp
  .next (match x.follows[slot]? with
    | none => s
    | some f =>
      let fail (code : Nat) : State := xpFaultAt core xp code 0 none f.fpc (tilesTaken x) s
      let ts := descOf s x.ctx core f.ts
      let ta := descOf s x.ctx core f.ta
      let m := dExt ta 1
      if x.cmds.any fun c => c.id = f.cmd then s
      else if f.h0 + m > 256 then fail 0x05
      else if !dValid ts || !dValid ta then fail 0x18
      else
        let c : MCmd :=
          { id := s.next, op := .mtile ts ta f.h0 m 1 f.z none, opcode := 0xA5, gk := none, unit := none
            xp := some (core, xp), pc := w32 f.fpc, scode := false, lanes := [], desc := f.ts, launch := x.launch }
        match enterMatrix x.ctx core c (taken s) with
        | .hold => s
        | .refuse code _ => fail code
        | .ok s => updXp core xp (fun x => { x with follows := x.follows.eraseIdx slot }) s)

/-! ## PSEL (R263) -/

/-- An exact score: a sum of products in units of 2^-298, or a special value. -/
inductive Score where
  | nan | negInf | fin (x : Int) | posInf
deriving DecidableEq, Repr

/-- Whether a score ranks strictly above another. -/
def Score.above : Score → Score → Bool
  | .nan, _ => false
  | _, .nan => true
  | .negInf, _ => false
  | _, .negInf => true
  | .fin x, .fin y => decide (y < x)
  | .fin _, .posInf => false
  | .posInf, .posInf => false
  | .posInf, .fin _ => true

/-- One product. -/
def scoreTerm (a b : FVal) : Score :=
  match a, b with
  | .fin s m e, .fin t n k =>
    let x : Int := (m * n : Nat) * 2 ^ (e + k + 298).toNat
    .fin (if s != t then -x else x)
  | .inf s, .inf t => if s != t then .negInf else .posInf
  | .inf s, .fin t m _ => if m = 0 then .nan else if s != t then .negInf else .posInf
  | .fin t m _, .inf s => if m = 0 then .nan else if s != t then .negInf else .posInf
  | _, _ => .nan

def Score.add : Score → Score → Score
  | .fin x, .fin y => .fin (x + y)
  | .nan, _ => .nan
  | _, .nan => .nan
  | .posInf, .negInf => .nan
  | .negInf, .posInf => .nan
  | .fin _, y => y
  | x, _ => x

/-- A row put into its place among rows in rank order: behind every row that it does not beat. -/
def rankInsert (r : Nat × Score) : List (Nat × Score) → List (Nat × Score)
  | [] => [r]
  | q :: l => if r.2.above q.2 then r :: q :: l else q :: rankInsert r l

/-- Rows in rank order, highest first, lower rows first among equals. -/
def rankRows (scores : List Score) : List Nat :=
  (((List.range scores.length).zip scores).foldl (fun l r => rankInsert r l) []).map Prod.fst

def floatFmt (f : Nat) : Fmt := if f = 0 then bf16 else if f = 1 then f16 else f32

/-- One element as an engine reads it. -/
def readElem (s : State) (a : Agent) (d : Desc) (c : List Int) : Dword × XRead :=
  let n := fmtWidth (dFmt d) / 8
  let addr := elemAddr d c
  (addr, match spaceSpot s a (dSpace d) addr n 1 with
    | .ok q => .word (w32 (leNat (spotBytes s a.core a.ctx none q n)))
    | .bad c => .bad c
    | .wait w => .wait w
    | .miss page acc => .miss page acc)

/-- The elements of a list of coordinates, or the first read that fails. -/
def readElems (s : State) (a : Agent) (d : Desc) : List (List Int) → List FVal × Option (Dword × XRead)
  | [] => ([], none)
  | c :: l => match readElem s a d c with
    | (_, .word w) => let r := readElems s a d l; (unpack (floatFmt (dFmt d)) w.toNat :: r.1, r.2)
    | e => ([], some e)

def pselOk (ts tq : Desc) : Bool :=
  dValid ts && dValid tq && dRank ts = 2 && dRank tq = 1 && dExt ts 0 = dExt tq 0 && dFmt ts = dFmt tq
    && dFmt ts ≤ 2 && dBlk ts = 0 && dBlk tq = 0 && dScale ts = 0 && dScale tq = 0

/-- The exact dot product. -/
def dot (a b : List FVal) : Score := (a.zip b).foldl (fun x e => x.add (scoreTerm e.1 e.2)) (.fin 0)

/-- The scores of the rows, or the first read that fails. -/
def rowScores (s : State) (a : Agent) (ts : Desc) (q : List FVal) : List Nat → List Score × Option (Dword × XRead)
  | [] => ([], none)
  | r :: l => match readElems s a ts ((List.range (dExt ts 0)).map fun (d : Nat) => [(d : Int), (r : Int), 0, 0, 0]) with
    | (_, some e) => ([], some e)
    | (xs, none) => let t := rowScores s a ts q l; (dot xs q :: t.1, t.2)

/-- The list words, stored in order until one fails. -/
def storeList (core p : Nat) (x : Xp) : List (Dword × Word) → State → State
  | [], s => xpNext core p s
  | (addr, w) :: l, s => match resolve s (xpAgent core p x) .plain 0 addr 4 2 with
    | .ok q =>
      let bs := ((List.range 4).zip (natLe 4 w.toNat))
      storeList core p x l (landAt core p { id := 0, kind := .move, fpc := 0, bar := none, words := [] } q bs s)
    | .bad c => xpFault core p c.code addr none s
    | .wait w => xpHold core p .run w (wanting x.ctx w s)
    | .miss page acc => xpReadFail core p x none addr (.miss page acc) s

/-- The first list word whose translation misses, or that must wait. -/
def listHeld (s : State) (a : Agent) (ws : List (Dword × Word)) : Option (Dword × XRead) :=
  ws.findSome? fun e => match resolve s a .plain 0 e.1 4 2 with
    | .wait w => some (e.1, .wait w)
    | .miss page acc => some (e.1, .miss page acc)
    | _ => none

def pselGo (core p : Nat) (x : Xp) (ts tq : Desc) (addr : Dword) (k : Nat) (s : State) : State :=
  let a := xpAgent core p x
  match readElems s a tq ((List.range (dExt tq 0)).map fun (d : Nat) => [(d : Int), 0, 0, 0, 0]) with
  | (_, some e) => xpReadFail core p x none e.1 e.2 s
  | (q, none) => match rowScores s a ts q (List.range (dExt ts 1)) with
    | (_, some e) => xpReadFail core p x none e.1 e.2 s
    | (sc, none) =>
      let rows := rankRows sc
      let ws := (List.range k).map fun i =>
        (addr + BitVec.ofNat 64 (4 * i), match rows[i]? with
          | some r => w32 r
          | none => 0xFFFFFFFF#32)
      match listHeld s a ws with
      | some e => xpReadFail core p x none e.1 e.2 s
      | none => storeList core p x ws s

def execXpPsel (t q : BitVec 7) (l : BitVec 3) (k : BitVec 8) (s : State) : Out :=
  xrun (fun core p x s =>
    let ts := descOf s x.ctx core t.toNat
    let tq := descOf s x.ctx core q.toNat
    let addr := apair x l
    if busy x then xpHold core p .run .drain s
    else if !pselOk ts tq then xpFault core p 0x18 0 none s
    else if addr.toNat % 4 ≠ 0 then xpFault core p 0x07 addr none s
    else pselGo core p x ts tq addr (k.toNat + 1) s) s

/-! ## Synchronisation and end (R264, R265) -/

/-- ARRIVE: an order point that counts one arrival; the commands complete at their destination are
complete at a core's or cluster's scope (R233). -/
def execXpArrive (n : BitVec 8) (s : State) : Out :=
  xrun (fun core p x s =>
    if busy x || x.follows ≠ [] then xpHold core p .run .drain s
    else
      let s := enterBarset core p (some n.toNat) s
      let key := barHome s x.ctx core n.toNat
      let b := barOf s key
      if !b.init then xpFault core p 0x1D 0 none s
      else if b.arrived + b.coming = b.now then xpFault core p 0x1C 0 none s
      else xpNext core p (countArrival key s)) s

def execXpWaitb (a : BitVec 4) (n : BitVec 8) (s : State) : Out :=
  xrun (fun core p x s =>
    let key := barHome s x.ctx core n.toNat
    let b := barOf s key
    let tok := (areg x a.toNat).toNat % 65536
    if (x.wait.map Wait.on) = some .poisoned then xpFault core p 0x26 0 none s
    else if busy x then xpHold core p .wait .drain s
    else if !b.init then xpFault core p 0x1D 0 none s
    else if phaseDone b tok then xpNext core p s
    else if b.poison then xpFault core p 0x26 0 none s
    else xpHold core p .wait (.bar key tok) s) s

/-- Writes of the processor that some die has still to take. -/
def xpFlying (s : State) (core p : Nat) : Bool :=
  let mine (t : Option (Nat × Nat × Nat)) : Bool := (t.map fun y => (y.1, y.2.1)) = some (core, p)
  s.homeq.any (fun h => mine h.xp) || s.pubs.any fun w => mine w.xp

def execXpTlsig (k : BitVec 4) (l : BitVec 3) (s : State) : Out :=
  xrun (fun core p x s =>
    if busy x || xpFlying s core p then xpHold core p .run .drain s
    else xpNext core p (signalTl x.ctx k.toNat (apair x l) s)) s

/-- HALT ends the run; the start slots and the drain port stay. -/
def execXpHalt (s : State) : Out :=
  xrun (fun core p x s =>
    if busy x || x.follows ≠ [] then xpHold core p .run .drain s
    else updXp core p (fun x => { x with
      state := .idle, barset := [], loops := [], wait := none, lastCmd := none }) s) s

/-! ## Beginning a run (R244–R246) -/

/-- The state of a processor at the begin of a program (R243). -/
def Xp.begun (st : Start) (rest : List Start) (x : Xp) : Xp :=
  { x with
    state := .run, ctx := st.ctx, nodes := st.nodes, launch := st.launch, cluster := st.cluster
    gangs := st.joined.map Prod.fst, a := ssets 0 [] ((List.range 16).map fun i => (i, st.words.getD (i + 2) 0))
    cur := [{}, {}, {}, {}], loops := [], base := pair (st.words.getD 0 0) (st.words.getD 1 0), pc := 0
    barset := [], follows := [], cache := [], starts := rest, cmds := [], lastCmd := none
    cause := 0, fbar := none, oor := 0, fpc := 0, faddr := 0, wait := none }

/-- COPY_PROGRAM_BEGIN (R243–R246): the complete start that was completed first begins on an idle
processor, once its records have been read. -/
def execCopyProgramBegin (core xp : Nat) (s : State) : Out :=
  let s1 := refreshStarts core xp s
  let x := xpOf s1 core xp
  .next (match x.state, x.starts with
    | .idle, st :: rest => match st.bad with
      | some (code, addr) => xpFaultAt core xp code addr none 0xFFFF 0 (updXp core xp (fun x => Xp.begun st rest x) s1)
      | none => if st.words = [] then s1 else updXp core xp (fun x => Xp.begun st rest x) s1
    | _, _ => s1)

end Sys2Proof.Machine
end

