-- ==== Sys2Proof/Machine/MatrixExec.lean ====
section
/-!
DEFINITION. The matrix sequencer at work: element and scale values (R138–R140), accumulation (R270,
R271), reads of planes and rows (R273, R275), drains (R277, R278), and execution faults (R272).
-/
namespace Sys2Proof.Machine

/-! ## Element values (R138) -/

/-- A small float without special values: exponent and fraction widths, and the bias. -/
def smallVal (eb fb bias code : Nat) : FVal :=
  let neg := code / 2 ^ (eb + fb) % 2 = 1
  let e := code / 2 ^ fb % 2 ^ eb
  let m := code % 2 ^ fb
  if e = 0 then .fin neg m (1 - (bias : Int) - fb) else .fin neg (2 ^ fb + m) ((e : Int) - bias - fb)

/-- The value of an element code by FMT. -/
def elemVal (fmt code : Nat) : FVal :=
  match fmt with
  | 0 => unpack bf16 code
  | 1 => unpack f16 code
  | 8 => if code % 128 = 127 then .nan false else smallVal 4 3 7 code
  | 9 =>
    if code / 4 % 32 = 31 then (if code % 4 = 0 then .inf (decide (code / 128 % 2 = 1)) else .nan false)
    else smallVal 5 2 15 code
  | 10 => smallVal 3 2 3 code
  | 11 => smallVal 2 3 1 code
  | 12 => smallVal 2 1 1 code
  | 13 => if code % 256 < 128 then .fin false (code % 256) (-6) else .fin true (256 - code % 256) (-6)
  | _ => .nan false

/-- The value of a scale code by SCALE (R139); 1 where there is none. -/
def scaleVal (scale code : Nat) : FVal :=
  match scale with
  | 1 => if code % 256 = 255 then .nan false else .fin false 1 ((code % 256 : Nat) - 127)
  | 2 =>
    let e := code / 1024 % 1024
    if e = 1023 then .nan false else .fin false (1024 + code % 1024) ((e : Int) - 521)
  | _ => .fin false 1 0

/-! ## Accumulation (R270, R271) -/

/-- Every term is a zero with the sign −. -/
def allNegZero (ts : List (FVal × FVal)) : Bool :=
  ts.all fun e => match e.1, e.2 with
    | .fin s m _, .fin t n _ => m * n = 0 && (s != t)
    | _, _ => false

/-- x of one block: the exact sum of products times both scales. -/
def blockSum (ts : List (FVal × FVal)) (sp sa : FVal) : FVal :=
  match sp, sa with
  | .fin _ m e, .fin _ n k => match ts.foldl (fun (x : Score) t => x.add (scoreTerm t.1 t.2)) (Score.fin 0) with
    | .nan => .nan true
    | .posInf => .inf false
    | .negInf => .inf true
    | .fin x => .fin (decide (x < 0) || (x = 0 && allNegZero ts)) (x.natAbs * m * n) (e + k - 298)
  | _, _ => .nan true

/-- One accumulating add. -/
def accAdd (acc : Word) (x : FVal) : Word × FFlags :=
  let r := fAdd f32 (unpack f32 acc.toNat) x
  (w32 r.1, r.2)

/-- A streamed row: 128 element values, and the four scales of its blocks. -/
structure Row where
  elems : List FVal
  scales : List FVal

/-- Element k of column n of a plane, and a block's scale there. -/
def planeElem (p : Plane) (k n : Nat) : FVal := elemVal p.fmt (sget 0 p.elems (k * 64 + n)).toNat
def planeScale (p : Plane) (b n : Nat) : FVal := scaleVal p.scale (sget 0 p.scales (b * 64 + n)).toNat

/-- The accumulating add of block `b` in column `n`. -/
def blockAdd (p : Plane) (row : Row) (n b : Nat) (acc : Word) : Word × FFlags :=
  let ts := (List.range 32).map fun i => (planeElem p (32 * b + i) n, row.elems.getD (32 * b + i) (.fin false 0 0))
  accAdd acc (blockSum ts (planeScale p b n) (row.scales.getD b (.fin false 1 0)))

/-- One column's accumulator over the four blocks in ascending order. -/
def columnStep (p : Plane) (row : Row) (n : Nat) (acc : Word) : Word × FFlags :=
  (List.range 4).foldl (fun a b =>
    let r := blockAdd p row n b a.1
    (r.1, a.2 ||| r.2)) (acc, 0)

/-- The shadow of a column's next accumulating add, the first of the step, differs (R158, R271). -/
def stepDiffers (rows : List (Nat × Shadow)) (h : Nat) (row : Row) (m : Matrix) : Bool :=
  rows ≠ [] && (List.range 64).any fun n =>
    shadowFails rows (.float f32) n (blockAdd m.active row n 0 (sget 0 m.acc (h * 64 + n))).1

/-- One step: row h of the accumulators takes a streamed row. -/
def stepRow (h : Nat) (row : Row) (m : Matrix) : Matrix :=
  let rs := (List.range 64).map fun n => (h * 64 + n, columnStep m.active row n (sget 0 m.acc (h * 64 + n)))
  { m with acc := ssets 0 m.acc (rs.map fun e => (e.1, e.2.1))
           flags := m.flags ||| w32 (rs.foldl (fun f e => f ||| e.2.2) 0) }

def zeroRows (h n : Nat) (m : Matrix) : Matrix :=
  { m with acc := m.acc.filter fun e => !(decide (h * 64 ≤ e.1) && decide (e.1 < (h + n) * 64))
           poison := m.poison.filter fun r => !(decide (h ≤ r) && decide (r < h + n)) }

/-! ## Engine reads of tensors (R273, R275, R282) -/

/-- Why a command cannot go on. -/
inductive MStop where
  | fault (c : Cause)
  | wait (w : WaitOn)
  | miss (addr : Dword) (page acc : Nat)
deriving DecidableEq, Repr

/-- The engine as the maker of accesses, for a command. -/
def matrixAgent (s : State) (core : Nat) (c : MCmd) : Agent :=
  { core := core, ctx := (matrixOf s core).owner.getD 0, gk := c.gk
    ref := c.xp.map fun x => .xp x.1 x.2, launch := c.launch }

/-- One byte in a SPACE. -/
def tensorByte (s : State) (a : Agent) (space : Nat) (addr : Dword) : Except MStop Byte :=
  match spaceSpot s a space addr 1 1 with
  | .ok q => .ok ((spotBytes s a.core a.ctx none q 1).headD 0)
  | .bad c => .error (.fault c)
  | .wait w => .error (.wait w)
  | .miss page acc => .error (.miss addr page acc)

/-- Bytes at listed addresses, as a little-endian number. -/
def tensorBytes (s : State) (a : Agent) (space : Nat) : List Dword → Except MStop Nat
  | [] => .ok 0
  | x :: l => match tensorByte s a space x with
    | .error e => .error e
    | .ok b => match tensorBytes s a space l with
      | .error e => .error e
      | .ok n => .ok (b.toNat + 256 * n)

/-- The code of an element, or FILL outside the extents. -/
def tensorElem (s : State) (a : Agent) (d : Desc) (c : List Int) : Except MStop Nat :=
  let w := fmtWidth (dFmt d)
  if !inside d c then .ok ((dFill d).toNat % 2 ^ w)
  else
    let u := unitElems d
    let i := (c.getD 0 0).toNat % u
    let first := lset c 0 (c.getD 0 0 - i)
    let lo := i * w / 8
    let hi := (i * w + w - 1) / 8
    match tensorBytes s a (dSpace d) ((List.range (hi - lo + 1)).map fun k => unitByte d first (lo + k)) with
    | .error e => .error e
    | .ok n => .ok (n / 2 ^ (i * w % 8) % 2 ^ w)

/-- The code of the scale of an element's block, 1.0 outside the extents. -/
def tensorScale (s : State) (a : Agent) (d : Desc) (c : List Int) : Except MStop Nat :=
  if dBlk d = 0 then .ok 0
  else if !inside d c then .ok (if dScale d = 1 then 0x7F else 0x7FC00)
  else if scaleMis d c then .error (.fault (addrCause 0x07 (scaleAddr d c) 0))
  else match tensorBytes s a (dSpace d) ((List.range (scaleBytes d)).map fun k => scaleAddr d c + BitVec.ofNat 64 k) with
    | .error e => .error e
    | .ok n => .ok (n % 2 ^ 20)

/-- A function over a list, stopping at the first error. -/
def mapStop {α : Type} (f : α → Except MStop Nat) : List α → Except MStop (List Nat)
  | [] => .ok []
  | x :: l => match f x with
    | .error e => .error e
    | .ok n => match mapStop f l with
      | .error e => .error e
      | .ok ns => .ok (n :: ns)

def at5 (x y : Nat) : List Int := [(x : Int), (y : Int), 0, 0, 0]

/-- The values listed at keys 0, 1, 2, … that are not zero. -/
def sparseOf (xs : List Nat) : Sparse Word :=
  ((List.range xs.length).zip xs).filterMap fun e => if w32 e.2 = 0 then none else some (e.1, w32 e.2)

/-- A whole plane at an origin. -/
def readPlane (s : State) (a : Agent) (d : Desc) (k0 n0 : Nat) : Except MStop Plane :=
  match mapStop (fun i => tensorElem s a d (at5 (k0 + i / 64) (n0 + i % 64))) (List.range (128 * 64)) with
  | .error e => .error e
  | .ok es => match mapStop (fun i => tensorScale s a d (at5 (k0 + 32 * (i / 64)) (n0 + i % 64))) (List.range (4 * 64)) with
    | .error e => .error e
    | .ok ss => .ok { st := .ready, fmt := dFmt d, scale := dScale d, blk := dBlk d, elems := sparseOf es
                      scales := sparseOf ss }

/-- A streamed row from K coordinate k0. -/
def readRow (s : State) (a : Agent) (d : Desc) (k0 i : Nat) : Except MStop Row :=
  match mapStop (fun k => tensorElem s a d (at5 (k0 + k) i)) (List.range 128) with
  | .error e => .error e
  | .ok es => match mapStop (fun b => tensorScale s a d (at5 (k0 + 32 * b) i)) (List.range 4) with
    | .error e => .error e
    | .ok ss => .ok ⟨es.map (elemVal (dFmt d)), ss.map (scaleVal (dScale d))⟩

/-! ## Drains (R277, R278) -/

/-- FP32 to the encoding of a selector's low bits: 0 as it is, 1 to 4 by FCVT. -/
def drainConvert (sel : Nat) (x : Word) : Nat × FFlags :=
  let a := unpack f32 x.toNat
  match sel % 8 with
  | 1 => fCvt f16 false a
  | 2 => fCvt bf16 false a
  | 3 => fCvt f16 true a
  | 4 => fCvt bf16 true a
  | _ => (x.toNat, 0)

/-- MAXF as m × 2^e, EMAX, and the code of MAXF. -/
structure ElemMax where
  m : Nat
  e : Int
  emax : Int
  code : Nat

def elemMax (fmt : Nat) : ElemMax :=
  match fmt with
  | 8 => ⟨7, 6, 8, 0x7E⟩
  | 9 => ⟨7, 13, 15, 0x7B⟩
  | 10 => ⟨7, 2, 4, 0x1F⟩
  | 11 => ⟨15, -1, 2, 0x1F⟩
  | 12 => ⟨3, 1, 2, 0x7⟩
  | _ => ⟨127, -6, 0, 127⟩

/-- Exponent and fraction widths and the bias of a small element format. -/
def elemShape (fmt : Nat) : Nat × Nat × Nat :=
  match fmt with
  | 8 => (4, 3, 7)
  | 9 => (5, 2, 15)
  | 10 => (3, 2, 3)
  | 11 => (2, 3, 1)
  | _ => (2, 1, 1)

/-- ±m × 2^e, with something below if `sticky`, rounded to an element code, saturating (R278). -/
def elemCode (fmt : Nat) (neg : Bool) (m : Nat) (e : Int) (sticky : Bool) : Nat × FFlags :=
  if fmt = 13 then
    let q := roundAt false m e (-6) sticky
    let k := min q.1 127
    (if neg && k ≠ 0 then 256 - k else k, (if q.2 || decide (q.1 > 127) then 16 else 0) + (if q.1 > 127 then 4 else 0))
  else
    let sh := elemShape fmt
    let fb := sh.2.1
    let emin : Int := 1 - (sh.2.2 : Int)
    let sign := if neg then 2 ^ (sh.1 + fb) else 0
    if m = 0 && !sticky then (sign, 0) else
    let t0 := e + (bitLen m : Int) - (fb + 1)
    let tiny := decide (t0 + (bitLen (roundAt false m e t0 sticky).1 : Int) - 1 < emin)
    let low := emin - fb
    let t := if t0 < low then low else t0
    let q := roundAt false m e t sticky
    let bits := (t - low).toNat * 2 ^ fb + q.1
    if bits > (elemMax fmt).code then (sign + (elemMax fmt).code, 20)
    else (sign + bits, (if q.2 then 16 else 0) + (if tiny && q.2 then 8 else 0))

/-- The magnitude of a finite value as m × 2^e. -/
def magnitude : FVal → Nat × Int
  | .fin _ m e => (m, e)
  | _ => (0, 0)

def isNeg : FVal → Bool
  | .fin s _ _ => s
  | .inf s => s
  | .nan _ => false

def isFinite : FVal → Bool
  | .fin _ _ _ => true
  | _ => false

/-- The greatest magnitude of a block. -/
def blockMax (vs : List FVal) : Nat × Int :=
  vs.foldl (fun a v =>
    let b := magnitude v
    if fLt (.fin false a.1 a.2) (.fin false b.1 b.2) then b else a) (0, 0)

/-- The E8M0 scale of a block: its code, and S as q × 2^t. -/
def e8m0For (fmt : Nat) (a : Nat × Int) : Nat × Nat × Int :=
  let l := a.2 + (bitLen a.1 : Int) - 1 - (elemMax fmt).emax
  let e := max (-127) (min 127 l)
  ((e + 127).toNat, 1, e)

/-- The smallest NS20 value at or above amax / MAXF: its code, and it as q × 2^t. -/
def ns20For (fmt : Nat) (a : Nat × Int) : Nat × Nat × Int :=
  let mx := elemMax fmt
  let up (k : Int) (x : Nat) : Nat := x * 2 ^ k.toNat
  let l0 : Int := (bitLen a.1 : Int) - bitLen mx.m
  -- whether a.1 / mx.m lies below 2^l0
  let l := if up (-l0) a.1 < up l0 mx.m then l0 - 1 else l0
  let num := up (10 - l) a.1
  let den := up (l - 10) mx.m
  let q0 := (num + den - 1) / den
  let q := if q0 = 2048 then 1024 else q0
  let l := if q0 = 2048 then l + 1 else l
  let e := l + a.2 - mx.e
  ((e + 511).toNat * 1024 + (q - 1024), q, e - 10)

/-- One block encoded: scale code, element codes, flags. -/
def drainBlock (fmt scale : Nat) (vs : List FVal) : Nat × List Nat × FFlags :=
  if vs.any fun v => !isFinite v then ((if scale = 1 then 0xFF else 0xFFC00), vs.map fun _ => 0, 1)
  else
    let a := blockMax vs
    if a.1 = 0 then
      ((if scale = 1 then 0x7F else 0x7FC00), vs.map fun v => (elemCode fmt (isNeg v) 0 0 false).1, 0)
    else
      let sc := if scale = 1 then e8m0For fmt a else ns20For fmt a
      let es := vs.map fun v =>
        let b := magnitude v
        elemCode fmt (isNeg v) (b.1 * 2 ^ 64 / sc.2.1) (b.2 - 64 - sc.2.2) (decide (b.1 * 2 ^ 64 % sc.2.1 ≠ 0))
      (sc.1, es.map Prod.fst, es.foldl (fun f e => f ||| e.2) 0)

/-- FMT and SCALE of a port drain's selector. -/
def portFormat (sel : Nat) : Nat × Nat :=
  if sel < 0x18 then ((match sel % 8 with
    | 0 => 2
    | 1 => 1
    | 2 => 0
    | 3 => 1
    | _ => 0), 0)
  else if sel < 0x28 then (sel - 0x18 + 8, 1) else (sel - 0x28 + 8, 2)

/-- One accumulator row as a port drain encodes it: codes, scales, flags. -/
def drainRow (sel : Nat) (xs : List Word) : List Word × List Word × FFlags :=
  let f := portFormat sel
  if f.2 = 0 then
    let rs := xs.map (drainConvert sel)
    (rs.map fun r => w32 r.1, [], rs.foldl (fun a r => a ||| r.2) 0)
  else
    let vs := xs.map fun x => unpack f32 x.toNat
    let b0 := drainBlock f.1 f.2 (vs.take 32)
    let b1 := drainBlock f.1 f.2 (vs.drop 32)
    ((b0.2.1 ++ b1.2.1).map w32, [w32 b0.1, w32 b1.1], b0.2.2 ||| b1.2.2)

def accRow (m : Matrix) (h : Nat) : List Word := (List.range 64).map fun n => sget 0 m.acc (h * 64 + n)

/-- What kind of result a drain converts to, if it converts (R271). -/
def drainFmt (sel : Nat) : Option ResFmt :=
  match (portFormat sel).1 with
  | 0 => some (.float bf16)
  | 1 => some (.float f16)
  | 2 => none
  | 13 => some (.int true)
  | f => some (.small ⟨(elemShape f).1, (elemShape f).2.1⟩)

/-- The shadow of a drain's conversion in one of some columns differs from its code (R158, R271). -/
def drainDiffers (rows : List (Nat × Shadow)) (sel : Nat) (codes : List (Nat × Word)) : Bool :=
  match drainFmt sel with
  | none => false
  | some k => codes.any fun e =>
      shadowFails rows k e.1 (if k = .int true then (e.2.setWidth 8).signExtend 32 else e.2)

def drainTile (m : Matrix) (sel h0 n : Nat) : Tile × FFlags :=
  let rs := (List.range n).map fun i => drainRow sel (accRow m (h0 + i))
  (⟨(portFormat sel).1, (portFormat sel).2, rs.map fun r => r.1, rs.map fun r => r.2.1⟩,
    rs.foldl (fun f r => f ||| r.2.2) 0)

/-! ## Faults in execution (R272) -/

/-- The lanes that await a drain get nothing more. -/
def dropDrain (c : MCmd) (s : State) : State :=
  match c.op, c.unit with
  | .drainLanes _ _ _ _ _, some ref => dropResult ref c.gk false c.id s
  | _, _ => s

/-- A cause goes to a command's issuer, for the command's word: deferred in its group or handler, a fault of a copy
processor. -/
def blame (core ctx : Nat) (c : MCmd) (cause : Cause) (s : State) : State :=
  let s := dropDrain c s
  match c.xp, c.unit with
  | some (k, p), _ =>
    if (xpOf s k p).state = .fault then s
    else xpFaultAt k p cause.code (causeAddr cause) none c.pc.toNat (tilesTaken (xpOf s k p)) s
  | none, some (.inst id) =>
    if (inst? s id).isSome then raiseInst id { cause with source := 3 } c.lanes true c.pc s
    else pend core ctx c.gk none { cause with source := 3 } c.lanes c.pc c.scode s
  | none, some (.grp _ gid) => pend core ctx c.gk (some gid) { cause with source := 3 } c.lanes c.pc c.scode s
  | none, _ => pend core ctx c.gk none { cause with source := 3 } c.lanes c.pc c.scode s

/-- The logical plane state that the planes themselves show. -/
def relog (m : Matrix) : PlaneLog :=
  { shadow := m.shadow.st, shadowFmt := (m.shadow.fmt, m.shadow.scale, m.shadow.blk)
    active := m.active.st ≠ .empty, activeFmt := (m.active.fmt, m.active.scale, m.active.blk) }

/-- AN EXECUTION FAULT: the command stops, those behind it are discarded, the engine enters FAULT, and
every issuer is told. -/
def matrixFault (core : Nat) (cause : Cause) (s : State) : State :=
  let m := matrixOf s core
  let ctx := m.owner.getD 0
  match m.queue with
  | [] => s
  | c :: rest =>
    let loading : Bool := match c.op with
      | .mload _ _ _ => true
      | .mtile _ _ _ _ _ _ _ => true
      | _ => false
    let s := updMatrix s core fun m =>
      let m := { m with queue := [], run := none, held := none, fault := true, cause := cause.code
                        shadow := if loading then {} else m.shadow }
      { m with log := relog m }
    let s := blame core ctx c cause s
    settleRelease core (rest.foldl (fun s d => blame core ctx d { code := 0x23, d0 := w32 d.opcode } s) s)

/-! ## Commands (R273–R279) -/

/-- The head command is complete and leaves the queue. -/
def popMatrix (core : Nat) (s : State) : State :=
  settleRelease core (updMatrix s core fun m => { m with queue := m.queue.drop 1, run := none, held := none })

/-- A command stopped by a read: it faults, or stays at the head until the read can be made. -/
def matrixStop (core : Nat) (e : MStop) (s : State) : State :=
  match e with
  | .fault c => matrixFault core c s
  | .wait w => wanting ((matrixOf s core).owner.getD 0) w s
  | .miss addr page acc =>
    requestWalk core ((matrixOf s core).owner.getD 0) page acc
      (.matrix core (((matrixOf s core).queue.head?.map MCmd.id).getD 0) addr) s

/-- The command at the head has begun (MSTAT's BUSY). -/
def beginRun (core : Nat) (s : State) : State :=
  updMatrix s core fun m => { m with run := m.run <|> some (0, 0) }

/-- After an MLOAD the logical shadow is READY when no later one is queued. -/
def loaded (m : Matrix) : Matrix :=
  let more := (m.queue.drop 1).any fun c => match c.op with
    | .mload _ _ _ => true
    | _ => false
  if m.log.shadow = .loading && !more then { m with log := { m.log with shadow := .ready } } else m

/-- Accumulator rows h to h + n − 1 hold one whose data is uncorrectable (R271, R319). -/
def badAcc (m : Matrix) (h n : Nat) : Option Nat := m.poison.find? fun r => decide (h ≤ r ∧ r < h + n)

/-- Steps j, j + 1, … of rows streamed into the accumulators: the state, and why they stopped short. A step whose
accumulator row or plane is uncorrectable, or whose shadow differs, writes nothing (R271). -/
def streamRows (core : Nat) (a : Agent) (d : Desc) (h0 k0 i0 q : Nat) : Nat → Nat → State → State × Option MStop
  | 0, _, s => (s, none)
  | n + 1, j, s =>
    let m := matrixOf s core
    if (badAcc m (h0 + j) 1).isSome || m.active.bad ≠ [] then (s, some (.fault { code := 0x33, d0 := w32 (h0 + j) }))
    else match readRow s a d k0 (i0 + j) with
      | .error e => (s, some e)
      | .ok row =>
        if stepDiffers s.shadow (h0 + j) row m then ({ s with shadow := [] }, some (.fault { code := 0x22 }))
        else streamRows core a d h0 k0 i0 q n (j + 1)
          (updMatrix { s with shadow := [] } core fun m => { stepRow (h0 + j) row m with run := some (q, j + 2) })

/-- MSTREAM from where it stands. -/
def runStream (core : Nat) (a : Agent) (d : Desc) (h0 m k0 i0 : Nat) (s : State) : State :=
  let j := match (matrixOf s core).run with
    | some (_, j) => j - 1
    | none => 0
  match streamRows core a d h0 k0 i0 0 (m - j) j s with
  | (s, none) => popMatrix core s
  | (s, some e) => matrixStop core e (beginRun core s)

/-- MTILE up to its next interrupt point. -/
def runTile (core : Nat) (a : Agent) (ts ta : Desc) (h0 m kp : Nat) (z : Bool) (tl : Option (Nat × Dword))
    (s : State) : State :=
  let at_ := (matrixOf s core).run
  let s := match at_ with
    | none => updMatrix s core fun x => { (if z then zeroRows h0 m x else x) with run := some (0, 0) }
    | some _ => s
  match (matrixOf s core).run with
  | some (q, 0) => match readPlane s a ts (128 * q) 0 with
    | .error e => matrixStop core e s
    | .ok p => updMatrix s core fun x => { x with active := p, shadow := {}, run := some (q, 1) }
  | some (q, j + 1) =>
    let n := min (m - j) (32 - (q * m + j) % 32)
    match streamRows core a ta h0 (128 * q) 0 q n j s with
    | (s, some e) => matrixStop core e s
    | (s, none) =>
      if j + n < m then s
      else if q + 1 < kp then updMatrix s core fun x => { x with run := some (q + 1, 0) }
      else
        let ctx := (matrixOf s core).owner.getD 0
        popMatrix core (match tl with
          | some (k, v) => signalTl ctx k v s
          | none => s)
  | none => s

/-- MDRAIN to lanes: each lane's value is delivered. -/
def runDrainLanes (core : Nat) (c : MCmd) (sel row col0 dst : Nat) (lanes : List Nat) (s : State) : State :=
  let m := matrixOf s core
  let rs := lanes.map fun l => (l, drainConvert sel (sget 0 m.acc (row * 64 + col0 + l)))
  match badAcc m row 1 with
  | some r => matrixFault core { code := 0x33, d0 := w32 r } s
  | none =>
    if drainDiffers s.shadow sel (rs.map fun r => (col0 + r.1, w32 r.2.1)) then
      matrixFault core { code := 0x22 } { s with shadow := [] }
    else
      let s := if (drainFmt sel).isSome then { s with shadow := [] } else s
      let s := updMatrix s core fun m => { m with flags := m.flags ||| w32 (rs.foldl (fun f r => f ||| r.2.2) 0) }
      match c.unit with
      | none => popMatrix core s
      | some ref => closeResult ref c.gk (some dst) false c.id (rs.map fun r => (r.1, w32 r.2.1)) [] (popMatrix core s)

/-- A port is full, and its processor can go on emptying it (R277). -/
def portFull (s : State) (core p : Nat) : Bool :=
  (xpOf s core p).state ≠ .fault && decide ((xpOf s core p).port.length ≥ 2)

/-- MDRAIN to a port: a tile joins it, unless the port is full or its processor in FAULT. -/
def runDrainPort (core sel h0 n p : Nat) (s : State) : State :=
  let m := matrixOf s core
  if (xpOf s core p).state = .fault then matrixFault core { code := 0x25, d0 := w32 p } s
  else match badAcc m h0 n with
  | some r => matrixFault core { code := 0x33, d0 := w32 r } s
  | none =>
    if portFull s core p then
      updMatrix s core fun m => { m with held := m.held <|> some s.usec }
    else if drainDiffers s.shadow sel ((List.range 64).zip (drainRow sel (accRow m h0)).1) then
      matrixFault core { code := 0x22 } { s with shadow := [] }
    else
      let r := drainTile m sel h0 n
      let s := if (drainFmt sel).isSome then { s with shadow := [] } else s
      let s := updMatrix s core fun m => { m with flags := m.flags ||| w32 r.2 }
      popMatrix core (updXp core p (fun x => { x with port := x.port ++ [r.1] }) s)

/-- MATRIX_COMMAND_EXECUTE (R272): the head command runs, an MTILE to its next interrupt point. -/
def execMatrixCommandExecute (core : Nat) (s : State) : Out :=
  .next (match (matrixOf s core).queue with
    | [] => s
    | c :: _ =>
      let a := matrixAgent s core c
      match c.op with
      | .mload d k0 n0 => match readPlane s a d k0.toNat n0.toNat with
        | .error e => matrixStop core e (beginRun core s)
        | .ok p => popMatrix core (updMatrix s core fun m => loaded { m with shadow := p })
      | .mswap => popMatrix core (updMatrix s core fun m => { m with active := m.shadow, shadow := {} })
      | .mstream d h0 m k0 i0 => runStream core a d h0 m k0.toNat i0.toNat s
      | .mzero h0 n => popMatrix core (updMatrix s core (zeroRows h0 n))
      | .drainLanes sel row col0 dst lanes => runDrainLanes core c sel row col0 dst lanes s
      | .drainPort sel h0 n p => runDrainPort core sel h0 n p s
      | .mtile ts ta h0 m kp z tl => runTile core a ts ta h0 m kp z tl s)

/-- The TL field of SYS.WAIT_BOUND (R132), in µs; 0 is no bound. -/
def tlBound (x : Context) : Nat := bits x.waitBound 16 16

/-- DRAIN_PORT_BOUND_EXPIRE (R277): a drain that a port still full holds past its bound faults with 0x29. -/
def execDrainPortBoundExpire (core : Nat) (s : State) : Out :=
  let m := matrixOf s core
  let b := tlBound (ctxD s (m.owner.getD 0))
  .next (match m.held, m.queue.head?.map MCmd.op with
    | some t, some (.drainPort _ _ _ p) =>
      if b = 0 || !portFull s core p then s else matrixFault core { code := 0x29 } (usecTo (t + b) s)
    | _, _ => s)

end Sys2Proof.Machine
end

