-- ==== Sys2Proof/Machine/Translate.lean ====
section
/-!
DEFINITION. Address translation: the table walk (R321), walks and the page service (R322, R323), and
invalidation (R324).
-/
namespace Sys2Proof.Machine

/-! ## The walk (R321) -/

/-- What a walk ends at. -/
inductive WalkEnd where
  /-- A usable leaf: the physical address of the 64 KiB asked for, R, W, X, D, the leaf entry's own
  address and value, and whether it is a 32 MiB page. -/
  | leaf (pa : Nat) (r w x d : Bool) (at_ entry : Nat) (big : Bool)
  | absent (level : Nat)
  | denied (level : Nat)
  | malformed (level : Nat)
deriving DecidableEq, Repr

/-- `n` bytes at a physical address lie inside one of the tiers (R166). -/
def inTier (pa n : Nat) : Bool :=
  decide (pa + n ≤ Config.nearBytes) || (decide (Config.farBase ≤ pa) && decide (pa + n ≤ Config.farBase + Config.farBytes))

/-- VA bits indexed at each level: the lowest bit and the number of entries. -/
def levelBits : Nat → Nat × Nat
  | 0 => (47, 512)
  | 1 => (36, 2048)
  | 2 => (25, 2048)
  | _ => (16, 512)

/-- Bytes that a table entry's target spans: the next table, or the page. -/
def targetSize (level : Nat) (leaf : Bool) : Nat :=
  if leaf then (if level = 2 then 0x2000000 else 0x10000)
  else if level = 0 ∨ level = 1 then 0x4000 else 0x1000

/-- A leaf grants access types `acc`. -/
def grants (e acc : Nat) : Bool :=
  (acc % 2 = 0 || e.testBit 2) && (acc / 2 % 2 = 0 || e.testBit 3) && (acc / 4 % 2 = 0 || e.testBit 4)
    && (acc / 8 % 2 = 0 || (e.testBit 2 && e.testBit 3))

/-- The walk from level 4 − n on. -/
def walkFrom (s : State) (die va acc : Nat) : Nat → Nat → WalkEnd
  | 0, _ => .malformed 3
  | n + 1, table =>
    let level := 3 - n
    let lb := levelBits level
    let at_ := table + 8 * (va / 2 ^ lb.1 % lb.2)
    let e := leNat (readBytes s (viewLoc die at_) 8)
    let leaf := e.testBit 1
    let pa := e / 0x1000 % 2 ^ 40 * 0x1000
    let size := targetSize level leaf
    if !e.testBit 0 then .absent level
    else if e / 2 ^ 52 ≠ 0 || e / 0x100 % 16 ≠ 0 || e.testBit 5 || (leaf && level ≤ 1) || (!leaf && level = 3)
        || pa % size ≠ 0 || !inTier pa size then .malformed level
    else if leaf then
      (if grants e acc then
        .leaf (pa + va % size / 0x10000 * 0x10000) (e.testBit 2) (e.testBit 3) (e.testBit 4) (e.testBit 7) at_ e (level = 2)
      else .denied level)
    else walkFrom s die va acc n pa

def walkTable (s : State) (die ctx va acc : Nat) : WalkEnd :=
  walkFrom s die (va % 0x100000000000000) acc 4 (ctxD s ctx).ptRoot.toNat

/-- The walker sets A, and D at a write, with one update of the entry. -/
def markEntry (die at_ entry acc : Nat) (s : State) : State :=
  let write := acc / 2 % 2 = 1 || acc / 8 % 2 = 1
  let new := entry ||| 0x40 ||| (if write then 0x80 else 0)
  if new = entry then s else originate die (placed at_ (natLe 8 new)) {} s

/-- A translation made at once for the module's own accesses (hosts, loaders, saves): the physical
address, and the state with the entry marked. -/
def walkNow (die ctx va acc : Nat) (s : State) : Except WalkEnd (Nat × State) :=
  match walkTable s die ctx va acc with
  | .leaf pa _ _ _ _ at_ entry _ => .ok (pa + va % 0x10000, markEntry die at_ entry acc s)
  | e => .error e

/-! ## The save area of scratchpad buffers (R167, R328) -/

/-- The virtual address of byte `off` of a core's scratchpad in a context's save area. -/
def saveVa (s : State) (ctx core off : Nat) : Nat :=
  let x := ctxD s ctx
  (x.stackBase.toNat + 0x100000 * x.stackSize + core * 0x180000 + off) % 0x100000000000000

/-- A buffer is lost: expired, no longer saved, and its context is told. -/
def loseBuffer (ctx core idx : Nat) (c : Cause) (s : State) : State :=
  raiseDetached core ctx c false true 0 false (updTag s ctx core idx fun t =>
    { t with saved := false, restoring := none, todo := [], stale := true, expiry := fadeTick s })

/-- The bytes of a buffer in one page of its save area: scratchpad offset and physical address. -/
def pagePlan (s : State) (ctx core page pa : Nat) (t : Tag) : List (Nat × Nat) :=
  (List.range t.size).filterMap fun i =>
    let va := saveVa s ctx core (t.base + i)
    if va / 0x10000 = page then some (t.base + i, pa + va % 0x10000) else none

/-- One page of a save or restore is copied, when its translation is cached. Uncorrectable bytes raise their cause as
they are read, and their copies are marked too (R319). -/
def movePage (ctx core idx page : Nat) (s : State) : State :=
  let t := tagOf s ctx core idx
  let d := dieNo core
  if !t.todo.contains page then s
  else if (regionAt s ctx (page * 0x10000)).isSome then
    loseBuffer ctx core idx (addrCause 0x0A (BitVec.ofNat 64 (page * 0x10000)) 1) s
  else match translate s d ctx (page * 0x10000) 2 with
    | none => requestWalk core ctx page 2 (.buffer core idx) s
    | some pa =>
      let plan := pagePlan s ctx core page pa t
      let s := updTag s ctx core idx fun t => { t with todo := t.todo.filter (· ≠ page) }
      let told (c : Cause) (s : State) : State := raiseDetached core ctx c false true 0 false s
      match t.restoring with
      | none =>
        let s1 := originate d (plan.map fun e => (e.2, readByte s (spLoc core e.1))) { ctx := ctx } s
        match plan.filter fun e => isBad s (spLoc core e.1) 1 with
        | [] => s1
        | e :: l => told { code := 0x32, d0 := w32 e.1 } (markBad s1 ((e :: l).map fun e => viewLoc d e.2))
      | some _ =>
        let bs := plan.map fun e => (spLoc core e.1, viewByte s (dataKey s ctx) (viewLoc d e.2))
        let s1 := writeBytes (clearBadKeys s (bs.map Prod.fst)) bs
        match plan.filter fun e => isBad s (viewLoc d e.2) 1 with
        | [] => s1
        | e :: l => told (tierCause e.2 0) (markBad s1 ((e :: l).map fun e => spLoc core e.1))

/-- Every page still to be copied is tried. -/
def movePages (ctx core idx : Nat) (s : State) : State :=
  (tagOf s ctx core idx).todo.foldl (fun s page => movePage ctx core idx page s) s

/-- A copy of a buffer to (`none`) or from (`some` the tick) its save area begins. -/
def startMove (ctx core idx : Nat) (back : Option Nat) (s : State) : State :=
  let t := tagOf s ctx core idx
  let first := saveVa s ctx core t.base / 0x10000
  let pages := ((List.range (t.size / 0x10000 + 2)).map fun i => first + i).filter fun p =>
    decide (p * 0x10000 < saveVa s ctx core t.base + t.size)
  movePages ctx core idx (updTag s ctx core idx fun t =>
    { t with saved := true, restoring := back, todo := pages, wanted := t.wanted && back.isSome })

/-! ## Refusals (R323) -/

/-- A refusal reaches a unit that waits for a page: it raises when it issues again. -/
def refuseUnit (page code : Nat) (ref : UnitRef) (s : State) : State :=
  let f (w : Wait) : Wait := match w.on with
    | .page _ => { w with on := .refused page code }
    | _ => w
  match ref with
  | .grp gk gid => updGroup s gk gid fun r => { r with wait := r.wait.map f }
  | .inst id => updInst s id fun i => { i with wait := i.wait.map f }
  | .xp core p => updXp core p (fun x => { x with wait := x.wait.map f }) s

/-- The instance in whose queue a number lies. -/
def queueInst (s : State) (qid : Nat) : Option Nat :=
  ((sentries s.insts).find? fun e => e.2.qid = qid).map Prod.fst

/-- A Gutter entry whose replay fails is dropped, and the unit that issued it gets 0x0B (R200, R308, R309). -/
def gutterFail (e : GutterEntry) (s : State) : State :=
  let c : Cause := { code := 0x0B, d0 := lo32 e.addr, d1 := hi32 e.addr, d2 := w32 (accKind (opAcc e.op)), d3 := e.pc, source := 2 }
  let s := { s with gutter := s.gutter.filter fun x => x.id ≠ e.id }
  match queueInst s e.qid with
  | some id => raiseInst id c e.lanes true e.pc s
  | none => pend e.core e.ctx e.gk (queueGroup s e.gk e.qid) c e.lanes e.pc e.scode s

/-- What is left of an entry's accesses without those of some lanes. -/
def withoutLanes (xs : List Access) (lanes : List Nat) : QueueOp := .accesses (xs.filter fun x => !lanes.contains x.lane)

/-- The accesses of a queue entry to a page. -/
def onPage (s : State) (e : QEntry) (page : Nat) : List Access :=
  e.op.rows.filter fun x =>
    canon s { core := e.core, ctx := e.ctx, gk := e.gk, ref := some e.unit } x.lane x.addr / 0x10000 = page

/-- The accesses of a held queue entry to a page are refused: of loads, and of atomics in state code, those lanes fail;
of other atomics none is performed; a version store fails as a whole (R205, R309, R323). -/
def refuseEntry (e : QEntry) (page code : Nat) (s : State) : State :=
  let bads := (onPage s e page).map fun x => (x.lane, refusalCause code x.addr (accKind (opAcc x.op)))
  if bads = [] then s
  else match e.op with
    | .accesses xs =>
      let single : Bool := match xs.head?.map Access.op with
        | some (.load _ _) => true
        | some .latest => true
        | _ => false
      closeLanes e.id (if single || (e.scode && !e.gangDst) then withoutLanes xs (bads.map Prod.fst) else .accesses []) [] bads s
    | .stv m xs _ => match leadCause (byLane bads) with
      | some c => closeLanes e.id (.stv m [] none) [] (xs.map fun x => (x.lane, c)) s
      | none => s
    | _ => s

/-- A start whose record cannot be read: its cause and address wait for it to begin (R246). -/
def refuseStart (core p code : Nat) (addr : Dword) (s : State) : State :=
  updXp core p (fun x => { x with starts := x.starts.map fun st =>
    if st.unread && (startAddrs st.joined).contains addr then { st with bad := some (code % 256, addr) } else st }) s

/-- ONE WAITER OF A PAGE IS REFUSED: `code` mod 256 is the cause, code / 256 the table level + 1 of a
malformed entry. -/
def refuse (ctx page code : Nat) (w : PWaiter) (s : State) : State :=
  match w with
  | .unit u => refuseUnit page code u s
  | .entry id => match s.queue.find? fun e => e.id = id with
    | none => s
    | some e => retireOf e.gk (refuseEntry e page code s)
  | .start core p addr => refuseStart core p code addr s
  | .xp core p none _ => refuseUnit page code (.xp core p)
      (updXp core p (fun x => if x.wait.isNone then { x with wait := some ⟨.page page, s.usec⟩ } else x) s)
  | .xp core p (some cmd) addr => match xcmd s core p cmd with
    | some c => xpCmdFault core p c (code % 256) addr s
    | none => s
  | .matrix core cmd addr =>
    if (matrixOf s core).queue.head?.map MCmd.id = some cmd then matrixFault core (refusalCause code addr 0) s else s
  | .gutter id => match s.gutter.find? fun e => e.id = id with
    | some e => retireOf e.gk (gutterFail e s)
    | none => s
  | .node key image => match sget none s.pool key with
    | some n => { s with pool := sset none s.pool key (some { n with refused := n.refused ++ [(image, code)] }) }
    | none => s
  | .buffer core idx => loseBuffer ctx core idx (refusalCause code (BitVec.ofNat 64 (page * 0x10000)) 1) s

def refuseAll (w : Walk) (code : Nat) (s : State) : State :=
  w.who.foldl (fun s x => refuse w.ctx w.page code x.2.1 s) s

/-! ## Walks (R322) -/

/-- A page-service record, 16 bytes (R323). -/
def pageRecord (w : Walk) : List Byte :=
  natLe 4 (w.acc % 16 * 0x10000000 + min 255 (w.who.foldl (fun n e => n + e.2.2) 0) * 0x10000 + w.die * 0x100 + w.level)
    ++ natLe 4 (w.page % 0x10000 * 0x10000) ++ natLe 4 (w.page / 0x10000 % 0x1000000) ++ natLe 4 (w.ctx % 0x10000)

/-- A walk becomes a record to the page service. -/
def toService (w : Walk) (level : Nat) (absent : Bool) (s : State) : State :=
  let w := { w with id := s.next, level := level, absent := absent }
  report { taken s with walks := s.walks.filter (· ≠ { w with id := 0, level := 0, absent := false })
                        pageRecs := s.pageRecs ++ [w] } 0x40 w.ctx (pageRecord w)

/-- A cached translation, in place of any other of its die, context and page. -/
def cache (t : Tlb) (s : State) : State :=
  { s with tlb := (s.tlb.filter fun e => !decide (e.die = t.die ∧ e.ctx = t.ctx ∧ e.page = t.page)) ++ [t] }

/-- A walk ends (R322): at a usable leaf the translation is cached and the waiters go on; a malformed
entry refuses them; anything else goes to the page service. A walk whose entry was invalidated since it
began is discarded, and starts again (R324). -/
def endWalk (w : Walk) (s : State) : State :=
  let rest := s.walks.filter (· ≠ w)
  if w.stale then { s with walks := rest ++ [{ w with stale := false }] }
  else match walkTable s w.die w.ctx (w.page * 0x10000) w.acc with
    | .leaf pa r ww x d at_ entry big =>
      let d' := d || w.acc / 2 % 2 = 1 || w.acc / 8 % 2 = 1
      let s := cache { die := w.die, ctx := w.ctx, page := w.page, pa := pa, r := r, w := ww, x := x, d := d', big := big }
        (markEntry w.die at_ entry w.acc { s with walks := rest })
      w.who.foldl (fun s x => match x.2.1 with
        | .buffer core idx => movePage w.ctx core idx w.page s
        | _ => s) s
    | .malformed level => refuseAll w (0x0A + 256 * (level + 1)) { s with walks := rest }
    | .absent level => toService w level true s
    | .denied level => toService w level false s

/-- TRANSLATION_WALK_COMPLETE (R322): a die runs its 96 oldest walks at once. -/
def execTranslationWalkComplete (die ctx page : Nat) (s : State) : Out :=
  .next (match ((s.walks.filter fun w => w.die = die).take Config.dieWalks).find? fun w =>
      decide (w.ctx = ctx ∧ w.page = page) with
    | some w => endWalk w s
    | none => s)

/-- PAGE_SERVICE_ANSWER (R323): resolved, the die walks again; refused, every waiter raises. -/
def execPageServiceAnswer (rec : Nat) (resolved : Bool) (s : State) : Out :=
  .next (match s.pageRecs.find? fun w => w.id = rec with
    | none => s
    | some w =>
      let s := { s with pageRecs := s.pageRecs.filter fun x => x.id ≠ rec }
      if resolved then { s with walks := s.walks ++ [{ w with id := 0, level := 0, absent := false }] }
      else refuseAll w (if w.absent then 0x09 else 0x0A) s)

/-! ## Invalidation (R324) -/

/-- A page, or none for all, matches a translation: of that page, or, where it is `big`, of a 32 MiB page that covers
it. -/
def invMatches (ctx : Nat) (page : Option Nat) (c p : Nat) (big : Bool) : Bool :=
  c = ctx && (match page with
    | none => true
    | some q => p = q || (big && p / 512 = q / 512))

/-- AN INVALIDATION STARTS: cached translations are dropped on every die, and running walks will have
their results discarded; one in the same 32 MiB may have read the entry of a page that covers them both. -/
def invalidate (ctx : Nat) (page : Option Nat) (s : State) : State :=
  { s with tlb := s.tlb.filter fun e => !invMatches ctx page e.ctx e.page e.big
           walks := s.walks.map fun w => if invMatches ctx page w.ctx w.page true then { w with stale := true } else w }

/-- Walks begun before an invalidation that have not ended. -/
def invBusy (s : State) (ctx : Nat) : Bool := s.walks.any fun w => w.ctx = ctx && w.stale

/-- The page that SYS.TLB_INV_LO and a value of SYS.TLB_INV_HI name. -/
def invPage (x : Context) (v : Word) : Nat := v.toNat % 256 * 0x100000000 + x.tlbInvLo.toNat

def execTlbInvPage (ctx : Nat) (v : Word) (s : State) : Out :=
  .next (if v.getLsbD 31 || bits v 8 23 ≠ 0 then s else invalidate ctx (some (invPage (ctxD s ctx) v)) s)

def execTlbInvAll (ctx : Nat) (v : Word) (s : State) : Out :=
  .next (if !v.getLsbD 31 || bits v 8 23 ≠ 0 then s else invalidate ctx none s)

/-- TLB_INV_COMPLETE: the walks that had read a matched entry have ended, their results discarded; they
start again for their waiters. -/
def execTlbInvComplete (ctx : Nat) (s : State) : Out :=
  .next { s with walks := s.walks.map fun w => if w.ctx = ctx then { w with stale := false } else w }

/-- A half of the root written, its reserved bits zero: every translation of the context goes. -/
def setRoot (ctx : Nat) (high : Bool) (v : Word) (s : State) : State :=
  invalidate ctx none (updCtx s ctx fun x => { x with
    ptRoot := if high then pair (lo32 x.ptRoot) v else pair v (hi32 x.ptRoot) })

/-- The reserved bits of the two halves of SYS.PT_ROOT. -/
def rootReserved (high : Bool) (v : Word) : Bool := if high then bits v 20 12 ≠ 0 else bits v 0 12 ≠ 0

def execPtRootWrite (ctx : Nat) (high : Bool) (v : Word) (s : State) : Out :=
  .next (if rootReserved high v then s else setRoot ctx high v s)

end Sys2Proof.Machine
end

