-- ==== Sys2Proof/Machine/Order.lean ====
section
/-!
DEFINITION. The steps of the ordering machine (R220–R233), of the Gutter (R200), and the ends of
bounded waits (R27, R125, R131, R132, R188, R260, R264).
-/
namespace Sys2Proof.Machine

/-! ## Issue queues (R220) -/

/-- The queues of a group: those merged into it, or the entry's own. -/
def queuesOf (s : State) (ref : UnitRef) (qid : Nat) : List Nat :=
  match ref with
  | .grp gk gid => match (gang? s gk).bind fun g => group? g gid with
    | some r => if r.qids.contains qid then r.qids else [qid]
    | none => [qid]
  | _ => [qid]

/-- The maker of an entry's accesses. -/
def entryAgent (s : State) (e : QEntry) : Agent :=
  { core := e.core, ctx := e.ctx, gk := e.gk, ref := some e.unit, qids := queuesOf s e.unit e.qid
    seq := e.seq, pc := e.pc, scode := e.scode }

/-- The checks of a queued access when its turn has come: a buffer freed since it issued is gone (R208). -/
def entryCheck (s : State) (a : Agent) (x : Access) : AccRes :=
  if bufGone s a x then .bad { code := 0x0D, d0 := lo32 x.addr }
  else resolve s { a with ref := none } .plain x.lane x.addr (opSize x.op) (opAcc x.op) (decide (x.op = .latest))

/-- A queued access misses translation: its pages are asked for, and it holds its unit (R309, R322). -/
def holdEntry (e : QEntry) (ms : List (Access × Nat × Nat)) (s : State) : State :=
  askPages e.core e.ctx (.entry e.id) ms (updEntry e.id (fun x => { x with held := true }) s)

/-- A lane of a queued load is performed. -/
def performLoad (e : QEntry) (all : List Access) (x : Access) (s : State) : State :=
  let a := entryAgent s e
  match entryCheck s a x with
  | .bad c => closeLanes e.id (withoutLanes all [x.lane]) [] [(x.lane, c)] s
  | .wait w => wanting e.ctx w s
  | .miss page acc => holdEntry e [(x, page, acc)] s
  | .ok p =>
    if behindGutter s a x then s
    else closeLanes e.id (withoutLanes all [x.lane]) [(x.lane, loadValue s a x p)] [] s

/-- A queued store, reduction or atomic is performed, every lane at once; in linear code a failing lane leaves all of
them undone (R309). -/
def performWrites (e : QEntry) (all : List Access) (s : State) : State :=
  let a := entryAgent s e
  let rs := all.map fun x => (x, entryCheck s a x)
  let bads := accBads rs
  let good := rs.filter fun r => !bads.any fun b => b.1 = r.1.lane
  let gut : Bool := match all.head?.map Access.op with
    | some (.atom _ _ _) => false
    | _ => true
  let missed (x : Access) : Bool := (accMisses rs).any fun m => m.1.lane = x.lane
  if bads ≠ [] && (!e.scode || e.gangDst) then closeLanes e.id (.accesses []) [] bads s
  else match accWait good with
    | some w => wanting e.ctx w s
    | none =>
      if !gut && accMisses good ≠ [] then holdEntry e (accMisses good) s
      else
        let xs := combineLanes s a (good.map Prod.fst)
        let into := xs.filter fun x => missed x || behindGutter s a x
        if !gut && into ≠ [] then s
        else if into ≠ [] && gutterUse s e.core + into.length > Config.gutterEntries then s
        else
          let lanesOf (x : Access) : List Nat := if e.gangDst then e.acts else if x.lanes = [] then [x.lane] else x.lanes
          let s := into.foldl (fun s x => gutterPush a x (lanesOf x) s) s
          let rest := (xs.filter fun x => !into.contains x).filterMap fun x =>
            ((accOks good).find? fun r => r.1.lane = x.lane).map fun r => (x, r.2)
          let r := performAll a e.id rest s
          closeLanes e.id (.accesses []) r.1 bads r.2

/-- One entry of a lane's walk is read (R108). -/
def performDfa (e : QEntry) (table : Dword) (rows : List DfaRow) (r : DfaRow) (s : State) : State :=
  let a := entryAgent s e
  let rest := rows.filter fun x => x.lane ≠ r.lane
  if spQueued s a then s
  else match dfaRead s { a with ref := none } table r with
    | .wait w => wanting e.ctx w s
    | .ok p =>
      let r' := dfaNext r (dfaEntry s a p)
      if r'.k < 4 then updEntry e.id (fun x => { x with op := .dfa table (rows.map fun x => if x.lane = r.lane then r' else x) }) s
      else closeLanes e.id (.dfa table rest) [(r.lane, dfaWord r')] [] s
    | .bad c => closeLanes e.id (.dfa table rest) [] [(r.lane, c)] s
    | .miss _ _ => closeLanes e.id (.dfa table rest) [] [(r.lane, addrCause 0x08 (dfaAddr table r) 0)] s

/-- A queued STV is applied at the version lists, or fails as a whole (R186, R205). -/
def performStv (e : QEntry) (m : Nat) (xs : List Access) (since : Option Nat) (s : State) : State :=
  let a := entryAgent s e
  let rs := xs.map fun x => (x, resolve s { a with ref := none } .globalOnly x.lane x.addr 4 2 true)
  let fail (c : Cause) (s : State) : State := closeLanes e.id (.stv m [] none) [] (xs.map fun x => (x.lane, c)) s
  match leadCause (accBads rs) with
  | some c => fail c s
  | none =>
    if accMisses rs ≠ [] then holdEntry e (accMisses rs) s
    else if xs.any (behindGutter s a) then s
    else match stvCheck s e.ctx m { code := 0x05 } xs with
      | .wait _ => updEntry e.id (fun x => { x with op := .stv m xs (some (since.getD s.usec)) }) s
      | .bad c conflict => match conflict with
        | some line => conflictReaders e.ctx line m c (fail c s)
        | none => fail c s
      | .ok => closeLanes e.id (.stv m [] none) [] [] (storeLines e.ctx m xs s)

/-- ISSUE_QUEUE_PERFORM: an entry is performed, of a load one lane, of a walk one read; a FENCE leaves when its
condition holds (R220, R229, R375). -/
def execIssueQueuePerform (id lane : Nat) (s : State) : Out :=
  .next (match s.queue.find? fun e => e.id = id with
    | none => s
    | some e =>
      let a := entryAgent s e
      retireOf e.gk (match e.op with
      | .arrive _ => s
      | .fence pred _ scope =>
        if complete s a pred scope then { s with queue := s.queue.filter fun x => x.id ≠ id } else s
      | .stv m xs since => if blocked s a e.op then s else performStv e m xs since s
      | .dfa table rows => match rows.find? fun r => r.lane = lane with
        | some r => performDfa e table rows r s
        | none => s
      | .accesses xs =>
        let single : Bool := match xs.head?.map Access.op with
          | some (.load _ _) => true
          | some .latest => true
          | _ => false
        if single then match xs.find? fun x => x.lane = lane with
          | some x => if blocked s a (.accesses [x]) then s else performLoad e xs x s
          | none => s
        else if blocked s a e.op then s else performWrites e xs s))

/-! ## Store buffers and apply queues (R224–R226) -/

/-- STORE_BUFFER_APPLY: entries of one gang that overlap are applied in program order. -/
def execStoreBufferApply (id : Nat) (s : State) : Out :=
  .next (match s.sb.find? fun e => e.id = id with
    | none => s
    | some e =>
      let older := s.sb.takeWhile fun x => x.id ≠ id
      if older.any fun x => decide (x.core = e.core ∧ x.gk = e.gk ∧ x.ctx = e.ctx)
          && x.bytes.any fun b => (slook e.bytes b.1).isSome then s
      else
        let s := { s with sb := s.sb.filter fun x => x.id ≠ id }
        retireOf e.gk (originate (dieNo e.core) e.bytes { gk := e.gk, qid := e.qid, seq := e.seq, ctx := e.ctx } s))

/-- Bytes of a MOVE.A update are complete at its processor's die. -/
def countUpdate (t : Option (Nat × Nat × Nat)) (s : State) : State :=
  match t with
  | some (core, p, cmd) => match xcmd s core p cmd with
    | some c => countCmd core p c 4 s
    | none => s
  | none => s

/-- A waiting reply may go: every die has taken its writes, and for a FLUSH those of the session's
earlier writes (R347, R348). -/
def hostReady (s : State) (h : HostWait) : Bool :=
  !(s.pubs.any fun p => p.msg = some h.id)
    && (h.op ≠ 4 || !(s.hostWaits.takeWhile fun x => x.id ≠ h.id).any fun x => decide (x.ses = h.ses ∧ x.op = 2))

/-- The reply goes: a collective signals its timeline (R232), a translation is committed (R364). -/
def answerOne (h : HostWait) (s : State) : State :=
  let s := match h.tl with
    | some (k, n) => signalTl h.ctx k n s
    | none => s
  let commit (f : Flash) : Flash := if h.op = 0x11 ∧ f.digest = h.digest then { f with committed := true } else f
  { s with
    hostWaits := s.hostWaits.filter fun x => x.id ≠ h.id
    ctl := { s.ctl with flashing := s.ctl.flashing.map commit }
    outbox := s.outbox ++ [⟨h.ses, h.op + 0x80, h.ctx, h.tag, w32 h.status, h.payload⟩] }

/-- Every reply that may go, in the order of the commands. -/
def answerHost (s : State) : State :=
  s.hostWaits.foldl (fun s h => if hostReady s h then answerOne h s else s) s

/-- APPLY_QUEUE_TAKE. -/
def execApplyQueueTake (die id : Nat) (s : State) : Out :=
  .next (match s.pubs.find? fun w => decide (w.into = die ∧ w.id = id) with
    | none => s
    | some w =>
      if !mayTake s w then s
      else
        let s := answerHost (take w s)
        if w.at_ && (match w.xp with
          | some (core, _, _) => decide (dieNo core = die)
          | none => false) then countUpdate w.xp s
        else s)

/-! ## Homes (R202, R203, R227) -/

/-- A lane of an entry is answered by its home, or fails there; after the last one the entry ends (R202, R375). -/
def answerSent (id : Nat) (got : List (Nat × Word)) (fails : List (Nat × Cause)) (s : State) : State :=
  match s.sent.find? fun e => e.id = id with
  | none => s
  | some e =>
    let e := { e with got := e.got ++ got, fails := e.fails ++ fails, held := e.held || (fails ≠ [] && nothingSince s e) }
    if homeward s id then { s with sent := s.sent.map fun x => if x.id = id then e else x }
    else finishEntry e { s with sent := s.sent.filter fun x => x.id ≠ id }

/-- A failed update: an atomic's instruction fails, a reduction's unit gets the cause deferred (R309), or its copy
processor faults. -/
def updateFail (h : HomeOp) (code : Nat) (s : State) : State :=
  match h.xp with
  | some (core, p, cmd) => match xcmd s core p cmd with
    | some c => xpCmdFault core p c code (BitVec.ofNat 64 h.pa) s
    | none => s
  | none =>
    let c : Cause := { addrCause code (BitVec.ofNat 64 h.pa) 2 with source := 4 }
    match h.entry, queueInst s h.qid with
    | some id, _ => answerSent id [] [(h.lane, c)] s
    | none, some id => raiseInst id c h.lanes true h.pc s
    | none, none => pend h.core h.ctx h.gk (queueGroup s h.gk h.qid) c h.lanes h.pc h.scode s

/-- HOME_UPDATE_ARRIVAL: an atomic or reduction is applied in its home's view and originates there; the
lanes of one instruction at one word are applied in order. -/
def execHomeUpdateArrival (id : Nat) (s : State) : Out :=
  .next (match s.homeq.find? fun h => h.id = id with
    | none => s
    | some h =>
      if s.homeq.any fun x => decide (x.pa = h.pa ∧ x.qid = h.qid ∧ x.seq = h.seq ∧ x.gk = h.gk ∧ x.order < h.order)
          && x.xp = none && h.xp = none then s
      else
        let s := { s with homeq := s.homeq.filter fun x => x.id ≠ id }
        let loc := viewLoc h.home h.pa
        let float : Bool := match h.op with
          | .redm 0x9B _ => true
          | _ => false
        let old := w32 (leNat (viewBytes s h.ctx loc 4))
        let new := updated h.op old
        if isBad s loc 4 then retireOf h.gk (updateFail h (if h.pa < Config.farBase then 0x30 else 0x31) s)
        else if float && shadowFails s.shadow (.float f32) h.lane new then
          retireOf h.gk (updateFail h 0x22 { s with shadow := [] })
        else
          let s := if float then { s with shadow := [] } else s
          let s := originate h.home (placed h.pa (natLe 4 new.toNat))
            { gk := h.gk, qid := h.qid, seq := h.seq, ctx := h.ctx, at_ := true, xp := h.xp } s
          let s := match h.entry with
            | some e => answerSent e [(h.lane, old)] [] s
            | none => s
          let s := match h.xp with
            | some (core, _, _) => if dieNo core = h.home then countUpdate h.xp s else s
            | none => s
          retireOf h.gk s)

/-! ## The Gutter (R200) -/

/-- GUTTER_REPLAY: an entry whose page translates is performed; of one line, in order of entry. -/
def execGutterReplay (id : Nat) (s : State) : Out :=
  .next (match s.gutter.find? fun e => e.id = id with
    | none => s
    | some e =>
      let older := s.gutter.takeWhile fun x => x.id ≠ id
      let a : Agent := { core := e.core, ctx := e.ctx, gk := e.gk, ref := none, qids := [e.qid], seq := e.seq
                         pc := e.pc, scode := e.scode }
      if older.any fun x => decide (x.core = e.core ∧ x.ctx = e.ctx ∧ x.addr.toNat / 64 = e.addr.toNat / 64) then s
      else match vaCheck s a e.addr.toNat (opSize e.op) (opAcc e.op) e.addr false with
        | .miss page acc => requestWalk e.core e.ctx page acc (.gutter id) s
        | .ok (.view pa) =>
          let s := { s with gutter := s.gutter.filter fun x => x.id ≠ id }
          let x : Access := { lane := e.lane, addr := e.addr, op := e.op, mask := e.mask, lanes := e.lanes }
          retireOf e.gk (match e.op with
            | .store _ _ => performStore a x (.view pa) s
            | _ => sendHome a none 0 x pa s)
        | _ => retireOf e.gk (gutterFail e s))

/-! ## Arrivals (R233) -/

/-- BAR_ARRIVAL_COUNTED: a queued arrival leaves once everything older is complete at the barrier's
scope, and is counted. -/
def execBarArrivalCounted (id : Nat) (s : State) : Out :=
  .next (match s.queue.find? fun e => e.id = id with
    | none => s
    | some e => match e.op with
      | .arrive key =>
        let b := barOf s key
        if mayArrive s (entryAgent s e) b then
          let s := { s with queue := s.queue.filter fun x => x.id ≠ id }
          retireOf e.gk (countArrival key (setBar key { b with coming := b.coming - 1 } s))
        else s
      | _ => s)

/-! ## Copy words: fetching (R243, R246) -/

/-- What the fetch of a copy word comes to. -/
inductive XFetch where
  | word (w : Word) (line : Option (Nat × List Word))
  | bad (code : Nat) (addr : Dword)
  | miss (page : Nat) (addr : Dword)

/-- The first byte of the 64-byte line at a spot. -/
def lineSpot (q : Spot) (va : Nat) : Spot :=
  match q with
  | .view pa => .view (pa - va % 64)
  | .line x => .line (x - va % 64)
  | q => q

/-- The word at a processor's counter: from its program cache, or with the line that fills it. -/
def xpFetch (s : State) (core p : Nat) (x : Xp) : XFetch :=
  let addr := x.base + BitVec.ofNat 64 (4 * x.pc)
  let va := addr.toNat
  if x.base.toNat % 4 ≠ 0 then .bad 0x07 x.base
  else if va / 0x100000000000000 ≠ 0 then .bad 0x08 addr
  else match slook x.cache (va / 64) with
    | some ws => .word (ws.getD (va % 64 / 4) 0) none
    | none => match vaCheck s (xpAgent core p x) va 4 4 addr false with
      | .ok q =>
        let ws := wordsOf 16 (spotBytes s core x.ctx none (lineSpot q va) 64)
        .word (ws.getD (va % 64 / 4) 0) (some (va / 64, ws))
      | .bad c => .bad c.code addr
      | .miss page _ => .miss page addr
      | .wait _ => .miss (va / 0x10000) addr

/-- A line enters the program cache; of 32 the oldest leaves. -/
def fillCache (core p : Nat) (line : Option (Nat × List Word)) (s : State) : State :=
  match line with
  | none => s
  | some l => updXp core p (fun x => { x with cache := (if x.cache.length ≥ 32 then x.cache.drop 1 else x.cache) ++ [l] }) s

/-- The barrier that the data command at a processor's word names. -/
def namedBar (s : State) (core p : Nat) : Option Nat :=
  match xpFetch s core p (xpOf s core p) with
  | .word w _ => if w.getLsbD 21 then none else some (bits w 12 8)
  | _ => none

/-! ## Bounds of waits (R132) -/

/-- The BAR field of SYS.WAIT_BOUND, in µs. -/
def barBound (x : Context) : Nat := bits x.waitBound 0 16

/-- A wait of a unit ends at its bound: time has reached it, and the cause is raised. -/
def endWait (ref : UnitRef) (since bound : Nat) (c : Cause) (s : State) : State :=
  if bound = 0 then s
  else failWait ref c (usecTo (since + bound) s)

/-- What a unit waits for. -/
def waitIn (s : State) (ref : UnitRef) : Option (UView × Wait) :=
  (viewOf s ref).bind fun u => (waitOf s u).map fun w => (u, w)

/-- COH_JOIN_TIMEOUT (R27): the joiner is removed; the cohort stays Forming or becomes Free. -/
def execCohJoinTimeout (ref : UnitRef) (s : State) : Out :=
  .next (match waitIn s ref with
    | some (u, ⟨.cohort key, since⟩) => match memberOf u with
      | some j =>
        let b := barBound (ctxD s u.ctx)
        let c := cohOf s key
        if b = 0 || !c.joiners.contains j then s
        else endWait ref since b (cohBad (key % 32))
          (setCoh key (freeIfEmpty { c with joiners := c.joiners.filter (· ≠ j) }) s)
      | none => s
    | _ => s)

/-- BAR_WAIT_BOUND_EXPIRE (R125). -/
def execBarWaitBoundExpire (ref : UnitRef) (s : State) : Out :=
  .next (match waitIn s ref with
    | some (u, ⟨.bar key tok, since⟩) =>
      if phaseDone (barOf s key) tok || (barOf s key).poison then s
      else endWait ref since (barBound (ctxD s u.ctx)) { code := 0x1F, d0 := w32 (key % 256), source := 1 } s
    | _ => s)

/-- TL_WAIT_BOUND_EXPIRE (R131). -/
def execTlWaitBoundExpire (ref : UnitRef) (s : State) : Out :=
  .next (match waitIn s ref with
    | some (u, ⟨.tl k n, since⟩) =>
      if (tlOf s u.ctx k).ult n then endWait ref since (tlBound (ctxD s u.ctx)) { code := 0x29, d0 := w32 k, source := 1 } s else s
    | _ => s)

/-- The wait bound of the region that holds an address (R188). -/
def regionBound (s : State) (ctx va : Nat) : Nat := ((regionAt s ctx va).map fun r => r.2.wait).getD 0

/-- The version that the STV at a unit's word gives. -/
def storedVersion (s : State) (u : UView) : Word :=
  match fetch s u with
  | .word w => match decodeCompute w with
    | .ok (.stv o) => greg s u (o.a.toNat + 2)
    | _ => 0
  | _ => 0

/-- A line is staged: stores to it wait (R192). -/
def isStaged (s : State) (ctx line : Nat) : Bool := (lineOf s ctx (line * 64)).staged.isSome

/-- The rows of a waiting LDV whose region's bound has come first raise 0x12; a row whose region has no bound waits
on. -/
def endRows (u : UView) (rows : List (Nat × Nat × Word)) (got : List (Nat × Word)) (since : Nat) (s : State) : State :=
  let bound (e : Nat × Nat × Word) : Nat := regionBound s u.ctx e.2.1
  match lmin ((rows.map bound).filter (· ≠ 0)) with
  | none => s
  | some b =>
    let s := usecTo (since + b) s
    failRows u rows got since (fun e => bound e ≠ 0 && decide (since + bound e ≤ s.usec))
      { code := 0x12, d0 := (rows.map fun r => r.2.2).headD 0 } s

/-- A queued STV of a unit that meets a staged line under a bound: the one whose bound comes first, with its
number, its lanes, and the time of its bound. -/
def stagedStv (s : State) (ref : UnitRef) : Option (QEntry × Nat × List Access × Nat) :=
  let l := s.queue.filterMap fun e => match e.op with
    | .stv m xs (some since) =>
      if e.unit = ref then
        (lmin ((((storeLinesOf xs).filter (isStaged s e.ctx)).map fun l => regionBound s e.ctx (l * 64)).filter (· ≠ 0))).map
          fun b => (e, m, xs, since + b)
      else none
    | _ => none
  l.find? fun x => l.all fun y => decide (x.2.2.2 ≤ y.2.2.2)

/-- VERSION_WAIT_BOUND_EXPIRE (R188, R192): of an LDV, or of a store that meets a line still staged. -/
def execVersionWaitBoundExpire (ref : UnitRef) (s : State) : Out :=
  .next (match ref with
    | .xp core p => match (xpOf s core p).wait with
      | some ⟨.staged line, since⟩ =>
        let b := regionBound s (xpOf s core p).ctx (line * 64)
        if b = 0 || !isStaged s (xpOf s core p).ctx line then s
        else xpFault core p 0x12 0 (namedBar s core p) (usecTo (since + b) s)
      | _ => s
    | _ => match waitIn s ref with
      | some (u, ⟨.version rows got, since⟩) => endRows u rows got since s
      | some (u, ⟨.staged line, since⟩) =>
        if isStaged s u.ctx line then
          endWait ref since (regionBound s u.ctx (line * 64)) { code := 0x12, d0 := storedVersion s u } s
        else s
      | _ => match stagedStv s ref with
        | some (e, m, xs, t) =>
          retireOf e.gk (closeLanes e.id (.stv m [] none) []
            (xs.map fun x => (x.lane, { code := 0x12, d0 := w32 m })) (usecTo t s))
        | none => s)

/-- COPY_WAIT_BOUND_EXPIRE: a wait at WAITB, or for a tile at the drain port, passes its bound. -/
def execCopyWaitBoundExpire (core xp : Nat) (s : State) : Out :=
  let x := xpOf s core xp
  .next (match x.state, x.wait with
    | .wait, some ⟨.bar key tok, since⟩ =>
      let b := barBound (ctxD s x.ctx)
      if b = 0 || phaseDone (barOf s key) tok || (barOf s key).poison then s
      else xpFault core xp 0x1F 0 none (usecTo (since + b) s)
    | .wait, some ⟨.matrix, since⟩ =>
      let b := tlBound (ctxD s x.ctx)
      if b = 0 || (headTile x).isSome then s
      else xpFault core xp 0x29 0 (namedBar s core xp) (usecTo (since + b) s)
    | _, _ => s)

end Sys2Proof.Machine
end

