-- ==== Sys2Proof/Machine/Nodes.lean ====
section
/-!
DEFINITION. Launch records (R289–R297): acceptance by NODE.POST and by a host submission, and the
completion of a node (R293, R296).
-/
namespace Sys2Proof.Machine

/-! ## Messages (R344, R345) -/

/-- A reply to a command. -/
def reply (m : Hdr) (op status : Nat) (payload : List Byte) (s : State) : State :=
  if s.ctl.off then s
  else { s with outbox := s.outbox ++ [⟨m.ses, op + 0x80, m.ctx, m.tag, w32 status, payload⟩] }

/-- A command acts only on its session's context (R344); any other is refused with status 2. -/
def inSession (m : Hdr) (op : Nat) (body : State → State) (s : State) : State :=
  match sget none s.sessions m.ses with
  | some x => if x.ctx = m.ctx ∧ x.ctx ≠ 0 then body s else reply m op 2 [] s
  | none => reply m op 2 [] s

/-! ## Reading what a record names -/

/-- Why a read gives no words. -/
inductive RStop where
  | bad (c : Cause)
  | wait (w : WaitOn)
  | miss (page acc : Nat)
deriving DecidableEq, Repr

/-- A reader of words upward from an address. -/
abbrev Reader := Nat → Dword → Except RStop (List Word)

/-- Reads by a gang's NODE.POST: engine reads, word by word (R231, R292). -/
def gangReader (s : State) (a : Agent) : Reader := fun n addr =>
  match engineReads s a n addr with
  | (ws, none) => .ok ws
  | (_, some (_, .bad c)) => .error (.bad c)
  | (_, some (_, .wait w)) => .error (.wait w)
  | (_, some (_, .miss page acc)) => .error (.miss page acc)
  | (ws, some (_, .word _)) => .ok ws

/-- The word at a virtual address as the module reads it for a host in the view of a die: from an Eaves page that
the context holds, else by a walk of its own, and in a designated region from the latest version (R187). -/
def hostWord (s : State) (die ctx : Nat) (addr : Dword) : Except RStop Word :=
  let va := addr.toNat
  let low := va % 0x1000000000000
  if va % 4 ≠ 0 then .error (.bad (addrCause 0x07 addr 0))
  else if va / 0x1000000000000 = 0xFF03 && low / 0x80000 = 0 && eavesHeld s ctx (low % 0x10000) then
    let loc := eavesLoc (low / 0x10000) (low % 0x10000)
    if isBad s loc 4 then .error (.bad (addrCause 0x30 addr 0)) else .ok (readWord s loc)
  else if va / 0x100000000000000 ≠ 0 then .error (.bad (addrCause 0x08 addr 0))
  else match walkTable s die ctx va 1 with
    | .leaf pa _ _ _ _ _ _ _ =>
      if latestBadAt s ctx va then .error (.bad (addrCause 0x30 addr 0))
      else if (regionAt s ctx va).isSome then .ok (w32 (leNat (((latestBytes s ctx va).drop (va % 64)).take 4)))
      else if isBad s (viewLoc die (pa + va % 0x10000)) 4 then .error (.bad (addrCause 0x30 addr 0))
      else .ok (w32 (leNat (viewBytes s ctx (viewLoc die (pa + va % 0x10000)) 4)))
    | .absent _ => .error (.bad (addrCause 0x09 addr 0))
    | _ => .error (.bad (addrCause 0x0A addr 0))

/-- Reads for a host submission. -/
def hostReader (s : State) (die ctx : Nat) : Reader
  | 0, _ => .ok []
  | n + 1, addr => match hostWord s die ctx addr with
    | .error e => .error e
    | .ok w => match hostReader s die ctx n (addr + 4) with
      | .ok ws => .ok (w :: ws)
      | .error e => .error e

/-! ## The record (R289) -/

def rWord (r : List Word) (n : Nat) : Word := r.getD n 0
def rPair (r : List Word) (n : Nat) : Dword := pair (rWord r n) (rWord r (n + 1))
def rPrio (r : List Word) : Nat := bits (rWord r 5) 18 2
def rPurlin (r : List Word) : Bool := (rWord r 5).getLsbD 17
def rOrdered (r : List Word) : Bool := (rWord r 5).getLsbD 16
def rClog (r : List Word) : Nat := bits (rWord r 5) 12 2
def rBatch (r : List Word) : Nat := bits (rWord r 5) 0 11
def rSown (r : List Word) : Bool := (rWord r 6).getLsbD 16
def rStagger (r : List Word) : Nat := bits (rWord r 6) 0 16
def rTdCount (r : List Word) : Nat := bits (rWord r 7) 16 8
def rNopd (r : List Word) : Nat := bits (rWord r 7) 8 4
def rNpred (r : List Word) : Nat := bits (rWord r 7) 0 4
/-- The address of descriptor image i. -/
def rImage (r : List Word) (i : Nat) : Dword := rPair r 16 + BitVec.ofNat 64 (64 * i)

/-- Words `lo` to `hi` are zero. -/
def zeroWords (r : List Word) (lo hi : Nat) : Bool := (List.range (hi + 1 - lo)).all fun i => rWord r (lo + i) = 0

/-- Status 1 but for the images: reserved fields, counts, unused words, DONE. -/
def recordShape (r : List Word) : Bool :=
  bits (rWord r 5) 20 12 = 0 && bits (rWord r 5) 14 2 = 0 && bits (rWord r 5) 11 1 = 0
    && bits (rWord r 6) 17 15 = 0 && bits (rWord r 7) 24 8 = 0 && bits (rWord r 7) 12 4 = 0
    && bits (rWord r 7) 4 4 = 0 && zeroWords r 15 15 && zeroWords r 42 47
    && rTdCount r ≤ 128 && rNopd r ≤ 8 && rNpred r ≤ 8
    && zeroWords r (18 + rNpred r) 25 && zeroWords r (26 + 2 * rNopd r) 41 && bits (rWord r 12) 0 2 = 0

/-! ## Acceptance (R290, R291) -/

/-- Why a record is not accepted: a status, or a read that fails or must wait while checking `status`. -/
inductive Nope where
  | status (n : Nat)
  | stop (status : Nat) (e : RStop)
deriving DecidableEq, Repr

/-- A read made for the check with a status. -/
def readFor (rd : Reader) (status n : Nat) (addr : Dword) : Except Nope (List Word) :=
  match rd n addr with
  | .ok ws => .ok ws
  | .error e => .error (.stop status e)

/-- Images `i`, `i` + 1, … of a record, each held to R179. -/
def readImages (rd : Reader) (r : List Word) : Nat → Nat → Except Nope (List Desc)
  | 0, _ => .ok []
  | n + 1, i => match readFor rd 1 16 (rImage r i) with
    | .error e => .error e
    | .ok d =>
      if !(if dValid d then descOk d else partOk d) then .error (.status 1)
      else match readImages rd r n (i + 1) with
        | .ok ds => .ok (d :: ds)
        | .error e => .error e

/-- What a kernel header gives, with its bucket records (R75). -/
structure Kernel where
  obj : Obj
  entry : Nat
  clog : Nat
  lregs : Nat
  buckets : List (List Word)
deriving DecidableEq, Repr

/-- The loaded object, its load answered, whose data holds `n` bytes at an address. -/
def objectOf (s : State) (ctx at_ n : Nat) : Option Obj :=
  (ctxD s ctx).objs.find? fun o => decide (o.data ≤ at_ ∧ at_ + n ≤ o.data + o.dataLen)
    && !s.hostWaits.any fun h => decide (h.ctx = ctx ∧ h.handle = o.handle)

/-- Groups of nine words. -/
def nines : Nat → List Word → List (List Word)
  | 0, _ => []
  | n + 1, ws => ws.take 9 :: nines n (ws.drop 9)

/-- Status 2: the header in a loaded object, its fields and its bucket records. -/
def readKernel (s : State) (rd : Reader) (ctx : Nat) (addr : Dword) : Except Nope Kernel :=
  match objectOf s ctx addr.toNat 16 with
  | none => .error (.status 2)
  | some o => match readFor rd 2 4 addr with
    | .error e => .error e
    | .ok h =>
      let f := rWord h 2
      let nb := bits f 12 4
      if bits f 16 16 ≠ 0 || bits f 10 2 ≠ 0 || bits f 6 2 ≠ 0 || rWord h 3 ≠ 0 || nb > 8
          || bits f 0 6 = 0 || bits f 0 6 > 60 || (objectOf s ctx addr.toNat (16 + 36 * nb)).isNone then
        .error (.status 2)
      else match readFor rd 2 (9 * nb) (addr + 16) with
        | .error e => .error e
        | .ok bs => .ok { obj := o, entry := (rWord h 0).toNat, clog := bits f 8 2, lregs := bits f 0 6
                          buckets := nines nb bs }

/-- The first bucket that the shape values lie in (R297), with its number. -/
def pickBucket (r : List Word) (bs : List (List Word)) : Option (Nat × List Word) :=
  ((List.range bs.length).zip bs).find? fun b => [0, 1, 2, 3].all fun i =>
    (rWord b.2 (1 + 2 * i)).ule (rWord r (8 + i)) && (rWord r (8 + i)).ule (rWord b.2 (2 + 2 * i))

def ceilDiv (a b : Nat) : Nat := (a + b - 1) / b

/-- Status 3 for a thread count (R14). -/
def geometryOk (r : List Word) (n clog : Nat) : Bool :=
  n ≠ 0 && decide (1 ≤ rBatch r ∧ rBatch r ≤ 1024) && rClog r = clog && ceilDiv n (rBatch r) % 2 ^ rClog r = 0

/-- The pool entry of a context's node ID. -/
def nodeById (s : State) (ctx : Nat) (id : Word) : Option Nat :=
  ((sentries s.pool).find? fun e => decide (e.2.ctx = ctx ∧ e.2.id = id)).map Prod.fst

/-- A predecessor word (R291): the pool key of a node that is not complete, or none for a complete one.
`sub` holds the keys of the submission's earlier records; a posted record has none. -/
def predOf (s : State) (ctx : Nat) (sub : List Nat) (x : Word) : Except Nope (Option Nat) :=
  if x.getLsbD 31 then
    (match sub[bits x 0 8]? with
      | some k => if bits x 8 23 = 0 then .ok (some k) else .error (.status 4)
      | none => .error (.status 4))
  else match nodeById s ctx x with
    | some k => .ok (some k)
    | none =>
      let d := ((ctxD s ctx).nextNode - x).toNat
      if x ≠ 0 ∧ 1 ≤ d ∧ d ≤ 0x80000000 then .ok none else .error (.status 4)

def predsOf (s : State) (ctx : Nat) (sub : List Nat) : List Word → Except Nope (List Nat)
  | [] => .ok []
  | x :: xs => match predOf s ctx sub x, predsOf s ctx sub xs with
    | .ok (some k), .ok ks => .ok (k :: ks)
    | .ok none, .ok ks => .ok ks
    | .error e, _ => .error e
    | _, .error e => .error e

/-- Operand k (R294): the first and last line of its span and the version, or status 5. -/
def operandOf (s : State) (ctx : Nat) (r : List Word) (ds : List Desc) (k : Nat) : Except Nope (Nat × Nat × Nat) :=
  let x := rWord r (26 + 2 * k)
  let v := (rWord r (27 + 2 * k)).toNat
  if bits x 7 25 ≠ 0 || v = 0 || v = 0xFFFFFFFF then .error (.status 5)
  else match ds[bits x 0 7]? with
    | none => .error (.status 5)
    | some d =>
      let a := (elemAddr d [0, 0, 0, 0, 0]).toNat
      let b := (elemAddr d ((List.range 5).map fun i => (dExt d i : Int) - 1)).toNat
      let lo := min a b
      let hi := max a b
      if dSpace d ≠ 0 then .error (.status 5)
      else match regionAt s ctx lo with
        | none => .error (.status 5)
        | some (_, g) => if hi < g.base + g.size then .ok (lo / 64, hi / 64, v) else .error (.status 5)

def operandsOf (s : State) (ctx : Nat) (r : List Word) (ds : List Desc) : List Nat → Except Nope (List (Nat × Nat × Nat))
  | [] => .ok []
  | k :: ks => match operandOf s ctx r ds k, operandsOf s ctx r ds ks with
    | .ok o, .ok os => .ok (o :: os)
    | .error e, _ => .error e
    | _, .error e => .error e

/-- THE CHECKS OF R290 in their order: the node as accepted, WAITING. -/
def checkRecord (s : State) (rd : Reader) (ctx die : Nat) (sub : List Nat) (r : List Word) : Except Nope Node :=
  if !recordShape r then .error (.status 1) else
  match readImages rd r (rTdCount r) 0 with
  | .error e => .error e
  | .ok ds => match readKernel s rd ctx (rPair r 0) with
    | .error e => .error e
    | .ok k =>
      let pick := pickBucket r k.buckets
      let n := if k.buckets = [] then (rWord r 4).toNat else match pick with
        | some b => (rWord b.2 2).toNat
        | none => rBatch r * 2 ^ rClog r
      if !geometryOk r n k.clog then .error (.status 3) else
      match predsOf s ctx sub ((List.range (rNpred r)).map fun i => rWord r (18 + i)) with
      | .error e => .error e
      | .ok preds => match operandsOf s ctx r ds (List.range (rNopd r)) with
        | .error e => .error e
        | .ok opds =>
          if k.buckets ≠ [] && pick.isNone then .error (.status 6)
          else if rPurlin r && (ctxD s ctx).purlinSize = 0 then .error (.status 7)
          else if (sentries s.pool).length ≥ Config.poolEntries then .error (.status 8)
          else .ok
            { ctx := ctx, id := (ctxD s ctx).nextNode, die := die, rcd := r, phase := .waiting
              bucket := pick.map Prod.fst
              entry := k.obj.code / 4 + (match pick with
                | some b => (rWord b.2 0).toNat
                | none => k.entry)
              n := n, b := rBatch r, c := 2 ^ rClog r, lregs := k.lregs, legacy := k.obj.legacy
              hinted := k.obj.stamp = Config.stepping, preds := preds, opds := opds, order := s.next
              total := ceilDiv n (rBatch r) / 2 ^ rClog r }

/-- The next node ID skips 0. -/
def nextId (x : Word) : Word := if x + 1 = 0 then 1 else x + 1

/-- An accepted node joins the pool, under the key `s.next`. -/
def acceptNode (n : Node) (s : State) : State :=
  settleNodes n.ctx (updCtx { taken s with pool := sset none s.pool s.next (some n) } n.ctx
    fun x => { x with nextNode := nextId n.id })

/-! ## NODE.POST (R130, R292) -/

def execNodePost (o : O2) (s : State) : Out :=
  issue (.nodePost o) { pipe := .gang, strand := o.s, dst := some o.d, w := o.w, gs := basePair o.a
                        limits := o.d.toNat ≤ 58, more := [o.d.toNat + 1], ends := true }
    (fun u acts s =>
      let a := agentOf u
      let addr := gpair s u o.a.toNat
      let rd := gangReader s a
      if addr.toNat % 64 ≠ 0 then raiseOn { addrCause 0x07 addr 0 with source := 1 } acts u s
      else if !complete s a 15 4 then hold s u .drain
      else
        let fail (e : RStop) : State := match e with
          | .bad c => raiseOn { c with source := 1 } acts u s
          | .wait w => hold s u w
          | .miss page acc => hold (requestWalk u.core u.ctx page acc (.unit u.ref) s) u (.page page)
        match rd 48 addr with
        | .error e => fail e
        | .ok r => match checkRecord s rd u.ctx (dieNo u.core) [] r with
          | .error (.stop _ e) => fail e
          | .error (.status n) => idem (advance (gangResult o.d o.w (w32 n) u s) u) u
          | .ok n => idem (advance (gangResults o.d o.w 0 [n.id] u (acceptNode n s)) u) u) s

/-! ## SUBMIT (R291, R346) -/

/-- The status of a host's record whose checks met a read that fails. -/
def hostStatus : Nope → Nat
  | .status n => n
  | .stop n (.bad c) => if c.code = 0x09 ∨ c.code = 0x0A then 9 else n
  | .stop n _ => n

/-- Records accepted in order: their IDs, and the state; or the index and status of the first failure. -/
def submitAll (m : Hdr) : Nat → List Nat → List (List Word) → State → Except (Nat × Nat) (List Word × State)
  | _, _, [], s => .ok ([], s)
  | i, sub, r :: rs, s => match checkRecord s (hostReader s m.die m.ctx) m.ctx m.die sub r with
    | .error e => .error (i, hostStatus e)
    | .ok n => match submitAll m (i + 1) (sub ++ [s.next]) rs (acceptNode n s) with
      | .error e => .error e
      | .ok (ids, s') => .ok (n.id :: ids, s')

def execSubmit (m : Hdr) (recs : List (List Word)) (s : State) : Out :=
  .next (if recs = [] ∨ recs.length > 256 ∨ recs.any (fun r => r.length ≠ 48) then reply m 1 1 [] s
    else inSession m 1 (fun s => match submitAll m 0 [] recs s with
      | .error (i, n) => reply m 1 (i * 256 + n) [] s
      | .ok (ids, s') => reply m 1 0 (ids.flatMap fun x => natLe 4 x.toNat) s') s)

/-! ## Completion (R236, R293, R296) -/

/-- Writes of a node's gangs, or of engine operations that they started, are not complete at module scope (R236). -/
def nodeBusy (s : State) (key : Nat) (n : Node) : Bool :=
  let mine (gk : Option Nat) : Bool := match gk with
    | some k => n.gangs.contains k
    | none => false
  s.queue.any (fun e => mine e.gk) || s.gutter.any (fun e => mine e.gk) || s.sb.any (fun e => mine e.gk)
    || s.homeq.any (fun h => mine h.gk || (h.xp.isSome && h.ctx = n.ctx))
    || s.pubs.any (fun p => mine p.gk || (p.xp.isSome && p.ctx = n.ctx))
    || s.cores.any (fun c => [c.2.xp0, c.2.xp1].any fun x =>
        (x.nodes.contains key && (x.cmds ≠ [] || decide (x.state = .run) || decide (x.state = .wait)))
          || x.starts.any fun st => st.nodes.contains key)
    || (s.ctl.secBusy.bind SecCmd.node) = some key

/-- The maker of a node's DONE store: the dispatch unit of its home die. -/
def dispatchAgent (n : Node) : Agent := { core := n.die * 128, ctx := n.ctx, gk := none, ref := none }

/-- The entry frees, and successors go on. -/
def freeNode (key : Nat) (n : Node) (s : State) : State :=
  settleNodes n.ctx { s with
    pool := sset none s.pool key none
    dies := s.dies.map fun e => (e.1, { e.2 with lastStart := e.2.lastStart.filter fun x => x.1 / 2 ≠ key }) }

/-- The cause of a DONE store that fails; a translation fault carries the node ID (R296, R308), and does so where a
table entry is malformed too (DESIGN CHOICE, log entry 101). -/
def doneFail (n : Node) (c : Cause) (s : State) : State :=
  let d3 := if c.code = 0x09 ∨ c.code = 0x0A then n.id else c.d3
  raiseDetached (n.die * 128) n.ctx { c with d3 := d3, source := 6 } false true 0 false s

/-- NODE_COMPLETE: the DONE store is performed and the entry frees. -/
def execNodeComplete (node : Nat) (s : State) : Out :=
  .next (match sget none s.pool node with
    | none => s
    | some n =>
      let done := rPair n.rcd 12
      if n.phase ≠ .draining ∨ nodeBusy s node n then s
      else if done = 0 then freeNode node n s
      else match n.refused.find? fun x => x.1 = 128 with
        | some (_, code) => freeNode node n (doneFail n (refusalCause code done 1) s)
        | none =>
          let top := done.toNat / 0x1000000000000
          if top > 0xFF ∧ top ≠ 0xFF03 then freeNode node n (doneFail n (addrCause 0x08 done 1) s)
          else match resolve s (dispatchAgent n) .plain 0 done 4 2 with
            | .ok (.view pa) => freeNode node n (originate n.die (placed pa (natLe 4 (rWord n.rcd 14).toNat)) { ctx := n.ctx } s)
            | .ok p => freeNode node n (storeSpot p (natLe 4 (rWord n.rcd 14).toNat) s)
            | .bad c => freeNode node n (doneFail n c s)
            | .miss page acc => requestWalk (n.die * 128) n.ctx page acc (.node node 128) s
            | .wait _ => s)

end Sys2Proof.Machine
end

