-- ==== Sys2Proof/Machine/Preempt.lean ====
section
/-!
DEFINITION. Pre-emption, readmission, the sweeper, saved buffers and matrix state, and quiesces
(R268, R325–R333).
-/
namespace Sys2Proof.Machine

/-! ## Slots of a core (R11, R15) -/

/-- Gangs on a core that are not evicted, with their keys. -/
def gangsOn (s : State) (core : Nat) : List (Nat × Gang) :=
  (sentries s.gangs).filter fun e => e.2.core = core && (match e.2.place with
    | .evicted _ _ => false
    | _ => true)

/-- Gangs on a core that may issue. -/
def residents (s : State) (core : Nat) : List (Nat × Gang) :=
  (sentries s.gangs).filter fun e => e.2.core = core && e.2.place = .resident

/-- Slots of a core that no gang holds, ascending. -/
def freeSlots (s : State) (core : Nat) : List Nat :=
  let used := (gangsOn s core).map fun e => e.2.slot
  (List.range Config.slots).filter fun n => !used.contains n

/-- Slots that are free, or will be when the saves in progress end. -/
def slotsComing (s : State) (core : Nat) : Nat :=
  let used := (residents s core).map fun e => e.2.slot
  ((List.range Config.slots).filter fun n => !used.contains n).length

/-- A gang has a handler instance that runs: in a context that has stopped none does (R311). -/
def hasInst (s : State) (gk : Nat) : Bool :=
  (sentries s.insts).any fun e => (instLanes s 3 e.1).1 = some gk && !(ctxD s e.2.ctx).faulted

/-- A gang has an instance that a quiesce has pre-empted. -/
def instHeld (s : State) (gk : Nat) : Bool :=
  (sentries s.insts).any fun e => e.2.stopped && (instLanes s 3 e.1).1 = some gk

/-- A gang counts as stopped in a running quiesce. -/
def gangStopped (s : State) (gk : Nat) (g : Gang) : Bool := !g.quiesce || instHeld s gk

/-- A gang stands where a quiesce has stopped it: it issues nothing, and holds its slot (R331). -/
def heldByQuiesce (s : State) (gk : Nat) (g : Gang) : Bool :=
  ((ctxD s g.ctx).qState = 1 && gangStopped s gk g) || (ctxD s g.ctx).qState = 2

/-- A gang that an eviction may choose (R325, R331). -/
def mayEvict (s : State) (e : Nat × Gang) : Bool := !hasInst s e.1 && !heldByQuiesce s e.1 e.2

/-! ## Choosing victims (R325) -/

/-- `a` is chosen before `b`: lower PRIO, then later admitted, then the higher slot. -/
def victimBefore (a b : Gang) : Bool :=
  decide (a.prio < b.prio) || (a.prio = b.prio && (decide (a.admitted > b.admitted)
    || (a.admitted = b.admitted && (decide (a.slot > b.slot) || (a.slot = b.slot && decide (a.half > b.half))))))

def insertVictim (x : Nat × Gang) : List (Nat × Gang) → List (Nat × Gang)
  | [] => [x]
  | y :: l => if victimBefore x.2 y.2 then x :: y :: l else y :: insertVictim x l

/-- Gangs of a core that may be evicted for work of a higher PRIO, in the order of choice. -/
def candidates (s : State) (core prio : Nat) : List (Nat × Gang) :=
  ((residents s core).filter fun e => decide (e.2.prio < prio) && mayEvict s e).foldl
    (fun l e => insertVictim e l) []

/-- Slots that evicting every candidate could bring. -/
def slotsPossible (s : State) (core prio : Nat) : Nat :=
  let stay := (residents s core).filter fun e => !(candidates s core prio).any fun c => c.1 = e.1
  ((List.range Config.slots).filter fun n => !stay.any fun e => e.2.slot = n).length

/-- A victim's save starts: it issues no more, and its holds lapse (R326). -/
def startSave (req gk : Nat) (s : State) : State :=
  match gang? s gk with
  | none => s
  | some g =>
    let s := updCore s g.core fun c => { c with holds := c.holds.filter fun e => match e.2 with
      | some (.grp k _, _, _) => k ≠ gk
      | _ => true }
    updGang s gk fun g => { g with place := .saving req, since := s.usec, ran := s.usec - g.since }

/-- Victims of one request on a core, until `need` slots are free or coming. -/
def evictFor (core prio need req : Nat) (s : State) : State :=
  (candidates s core prio).foldl (fun s e => if slotsComing s core ≥ need then s else startSave req e.1 s) s

/-! ## The end of a save (R326, R327) -/

/-- A wait that an eviction abandons: it is issued again. -/
def keptWait (w : Wait) : Bool :=
  match w.on with
  | .stopped _ => true
  | .exiting => true
  | .fragments _ => true
  | .quiesced => true
  | _ => false

/-- A gang as its save leaves it: latches lost, waits abandoned. -/
def evicted (clock since : Nat) (g : Gang) : Gang :=
  { g with
    place := .evicted clock since, evictions := g.evictions + 1
    groups := g.groups.map fun e => (e.1, e.2.map fun r =>
      { r.lose with wait := if (r.wait.map keptWait) = some true then r.wait else none }) }

/-- What becomes of a live buffer when its context has no resident gang left on the core: 0 left as it
is, 1 kept by the sweeper, 2 saved. -/
def bufferFate (s : State) (budget : Nat) (t : Tag) : Nat :=
  let rem := (t.expiry + 0x100000000 - fadeTick s) % 0x100000000
  if t.saved || expired s t then 0
  else if rem ≥ budget && t.life > budget then 1 else 2

/-- Indices of live buffers of a context on a core. -/
def liveBuffers (s : State) (ctx core : Nat) : List Nat :=
  ((ccOf s ctx core).tags.filter fun e => e.2.live).map Prod.fst

/-- Every live buffer is dealt with: the counts of those saved and of those kept, and the state. -/
def dealBuffers (ctx core : Nat) (s : State) : Nat × Nat × State :=
  if (residents s core).any fun e => e.2.ctx = ctx then (0, 0, s)
  else
    let budget := (ctxD s ctx).budget
    (liveBuffers s ctx core).foldl (fun x idx =>
      let s := x.2.2
      match bufferFate s budget (tagOf s ctx core idx) with
      | 1 => (x.1, x.2.1 + 1, updTag s ctx core idx fun t => { t with kept := true })
      | 2 => (x.1 + 1, x.2.1, startMove ctx core idx none s)
      | _ => x) (0, 0, s)

/-- The notice 0x39 of a context whose gangs one request has evicted from a core. -/
def evictNotice (ctx core n : Nat) (s : State) : State :=
  let r := dealBuffers ctx core s
  raiseDetached core ctx { code := 0x39, d0 := w32 (n + r.1 * 256 + r.2.1 * 131072), source := 6 } true false 0 false r.2.2

/-- The lanes of an entry that may be performed one by one. -/
def entryLanes (e : QEntry) : List Nat :=
  match e.op with
  | .accesses xs => xs.map Access.lane
  | .dfa _ rows => rows.map DfaRow.lane
  | _ => [0]

/-- An entry leaves the queue, or gets further there, when it is tried. -/
def entryMoves (s : State) (e : QEntry) : Bool :=
  let same (o : Out) : Bool := match o with
    | .next t => (t.queue.find? fun x => x.id = e.id).map QEntry.op = some e.op
    | _ => false
  match e.op with
  | .arrive _ => !same (execBarArrivalCounted e.id s)
  | _ => (entryLanes e).any fun l => !same (execIssueQueuePerform e.id l s)

/-- A FENCE or an arrival that waits only for writes on their way to be complete: they will be. -/
def awaitsWrites (s : State) (mine : List QEntry) (e : QEntry) : Bool :=
  (match e.op with
    | .fence _ _ _ => true
    | .arrive _ => true
    | _ => false)
    && !(mine.any fun x => olderEntry (entryAgent s e) x) && !(s.gutter.any fun x => x.gk = e.gk && x.core = e.core)

/-- Nothing in a gang's issue queues can be performed any more (R223). -/
def queuesStand (s : State) (gk : Nat) : Bool :=
  let mine := s.queue.filter fun e => e.gk = some gk
  mine.all fun e => !entryMoves s e && !awaitsWrites s mine e

/-- What stands in a gang's queues is abandoned: it issues again at readmission (R223). -/
def abandonQueues (gk : Nat) (s : State) : State :=
  let mine := s.queue.filter fun e => e.gk = some gk
  updGang { s with queue := s.queue.filter fun e => e.gk ≠ some gk } gk fun g =>
    { g with redo := mine.map fun e => { e with held := false } }

/-- Evicted gangs of a core. -/
def evictedOn (s : State) (core : Nat) : List (Nat × Gang) :=
  (sentries s.gangs).filter fun e => e.2.core = core && (match e.2.place with
    | .evicted _ _ => true
    | _ => false)

/-- The physical slot that an evicted gang takes: beside its other half, else the lowest free one (R29, R329). -/
def readmitSlot (s : State) (g : Gang) : Option Nat :=
  match (gangsOn s g.core).find? fun e => g.legacy && decide (e.2.node = g.node ∧ e.2.batch = g.batch
      ∧ e.2.home = g.home ∧ e.2.half ≠ g.half) with
  | some e => some e.2.slot
  | none => (freeSlots s g.core)[0]?

/-- A gang becomes resident in a slot: abandoned queue entries issue again, the sweeper stops for its context on the
core, and saved buffers come back (R223, R327–R329). -/
def readmit (gk slot : Nat) (swapped : Option Nat) (s : State) : State :=
  match gang? s gk with
  | none => s
  | some g =>
    let s := setGang { s with queue := s.queue ++ g.redo } gk (some { g with
      place := .resident, slot := slot, since := s.usec - g.ran, admitted := s.next, swapped := swapped, idle := true
      redo := [] })
    taken (updCc s g.ctx g.core fun x => { x with tags := x.tags.map fun e =>
      (e.1, { e.2 with kept := false, wanted := e.2.wanted || e.2.saved }) })

/-- The second half of a swap: the gang for which the victim was saved is readmitted, where a slot is free
(R330). -/
def swapIn (gk : Nat) (s : State) : State :=
  match gang? s gk with
  | none => s
  | some g =>
    if !(evictedOn s g.core).any fun e => e.1 = gk then s
    else match readmitSlot s g with
      | some slot => readmit gk slot (some s.usec) s
      | none => s

/-- GANG_SAVE_COMPLETE: a save ends once nothing in the gang's queues can be performed; the last of a request on the
core brings the notices, and the gang for which a swap made room (R223, R326, R330). -/
def execGangSaveComplete (gk : Nat) (s : State) : Out :=
  .next (match gang? s gk with
    | none => s
    | some g => match g.place with
      | .saving req =>
        if !queuesStand s gk then s
        else
          let s := updGang (abandonQueues gk s) gk fun g => { evicted req g.since g with swapFor := none }
          let saving := (sentries s.gangs).any fun e => decide (e.2.core = g.core ∧ e.2.place = .saving req)
          if saving then s
          else
            let done := (evictedOn s g.core).filter fun e => match e.2.place with
              | .evicted c _ => c = req
              | _ => false
            let s := (lsort (done.map fun e => e.2.ctx)).foldl (fun s c =>
              evictNotice c g.core (done.filter fun e => e.2.ctx = c).length s) s
            match g.swapFor with
            | some k => swapIn k s
            | none => s
      | _ => s)

/-! ## Readmission (R329, R330) -/

/-- (eviction clock, home slot, half), which order readmission. -/
def evictKey (g : Gang) : Nat :=
  match g.place with
  | .evicted c _ => (c * 32 + g.home) * 2 + g.half
  | _ => 0

/-- A gang of a quiesce that has yet to run to its mark goes before the others of its context. -/
def rushed (s : State) (g : Gang) : Bool := (ctxD s g.ctx).qState = 1 && g.quiesce

/-- `a` is readmitted before `b`. -/
def readmitBefore (s : State) (a b : Gang) : Bool :=
  if a.ctx = b.ctx && rushed s a ≠ rushed s b then rushed s a else evictKey a < evictKey b

/-- The dies to which a node's units may go (R299). -/
def diesOf (s : State) (n : Node) : List Nat :=
  if rPurlin n.rcd || !(dieOf s n.die).spread then [n.die] else List.range Config.dies

/-- A unit of a higher PRIO waits for room on a core for which gangs have been evicted there (DEDUCED, log entry 104). -/
def claimedAbove (s : State) (core prio : Nat) : Bool :=
  (sentries s.pool).any fun e => e.2.claim.contains core && decide (rPrio e.2.rcd > prio ∧ e.2.nextUnit < e.2.total)
    && !(ctxD s e.2.ctx).faulted && (ctxD s e.2.ctx).qState ≠ 2

/-- GANG_READMIT. -/
def execGangReadmit (gk : Nat) (s : State) : Out :=
  .next (match gang? s gk with
    | none => s
    | some g =>
      if !(evictedOn s g.core).any (fun e => e.1 = gk) || (coreOf s g.core).fenced
          || (evictedOn s g.core).any (fun e => e.1 ≠ gk && readmitBefore s e.2 g)
          || claimedAbove s g.core g.prio then s
      else match readmitSlot s g with
        | some slot => readmit gk slot none s
        | none => s)

/-- The oldest evicted gang of a context on a core. -/
def oldestEvicted (s : State) (ctx core : Nat) : Option (Nat × Gang) :=
  let l := (evictedOn s core).filter fun e => e.2.ctx = ctx
  l.find? fun e => l.all fun x => evictKey e.2 ≤ evictKey x.2

/-- The resident gang that a swap evicts: the last admitted or readmitted that may go. -/
def swapVictim (s : State) (ctx core readmitUs : Nat) : Option (Nat × Gang) :=
  let l := (residents s core).filter fun e => decide (e.2.ctx = ctx) && mayEvict s e && (match e.2.swapped with
    | some t => decide (t + readmitUs ≤ s.usec)
    | none => true)
  (l.foldl (fun v e => insertVictim (e.1, { e.2 with prio := 0 }) v) [])[0]?

/-- A swap of a context on a core is under way: its victim is being saved, or the gang that it readmitted has yet
to issue. -/
def swapping (s : State) (ctx core : Nat) : Bool :=
  (sentries s.gangs).any fun e => decide (e.2.ctx = ctx ∧ e.2.core = core) && (match e.2.place with
    | .saving _ => e.2.swapFor.isSome
    | .resident => e.2.swapped.isSome && e.2.idle
    | .evicted _ _ => false)

/-- READMIT_BOUND_SWAP: time has passed the bound of the oldest evicted gang; the save of one gang of the context
starts for it. -/
def execReadmitBoundSwap (ctx core : Nat) (s : State) : Out :=
  let bound := (ctxD s ctx).readmit
  .next (match oldestEvicted s ctx core with
    | none => s
    | some (gk, g) => match g.place with
      | .evicted _ since =>
        if bound = 0 || (coreOf s core).fenced || swapping s ctx core then s
        else
          let s' := usecTo (since + bound + 1) s
          match swapVictim s' ctx core bound with
          | none => s
          | some (v, _) => updGang (startSave s'.next v (taken s')) v fun x => { x with swapFor := some gk }
      | _ => s)

/-! ## The sweeper and saved buffers (R327, R328) -/

/-- A context has a resident gang on a core. -/
def residentHere (s : State) (ctx core : Nat) : Bool := (residents s core).any fun e => e.2.ctx = ctx

/-- SWEEPER_RENEW: the kept buffer whose life has run down to its mark, lowest BASE first, one at a time. -/
def execSweeperRenew (ctx core idx : Nat) (s : State) : Out :=
  let t := tagOf s ctx core idx
  let left (x : Tag) : Nat := (x.expiry + 0x100000000 - fadeTick s) % 0x100000000 - sweepMark (ctxD s ctx).budget x
  .next (
    if !t.live || !t.kept || t.rewrite.isSome || residentHere s ctx core then s
    else if s.cc.any fun e => decide (e.1 % 1024 = core) && e.2.tags.any fun x =>
        x.2.kept && x.2.rewrite.isSome then s
    else
      if (ccOf s ctx core).tags.any fun x => x.2.kept && x.1 ≠ idx && decide (left x.2 ≤ left t ∧ x.2.base < t.base) then s
      else renew ctx core idx false (passTime (left t) s))

/-- BUFFER_RESTORE_START: the restore of a saved buffer starts, or a save or restore goes on with pages it
could not translate before. -/
def execBufferRestoreStart (ctx core idx : Nat) (s : State) : Out :=
  let t := tagOf s ctx core idx
  .next (if !t.live || !t.saved then s
    else if t.todo ≠ [] then movePages ctx core idx s
    else if t.restoring.isNone && t.wanted then startMove ctx core idx (some (fadeTick s)) s
    else s)

/-- BUFFER_RESTORE_COMPLETE: the buffer takes a fresh tag. While its context has no resident gang on the core the
sweeper keeps it (log entry 77). -/
def execBufferRestoreComplete (ctx core idx : Nat) (s : State) : Out :=
  let t := tagOf s ctx core idx
  .next (match t.restoring with
    | some tick =>
      if t.live && t.saved && t.todo = [] then
        updTag s ctx core idx fun t => { t with
          saved := false, restoring := none, stale := false, wanted := false, kept := !residentHere s ctx core
          expiry := (tick + t.life) % 0x100000000 }
      else s
    | none => s)

/-! ## Matrix state (R268, R279, R326) -/

/-- The engine's queue is empty, but for an MTILE that stands at an interrupt point (R279; log entry 80). -/
def atInterrupt (m : Matrix) : Bool :=
  match m.queue.map MCmd.op, m.run with
  | [], _ => true
  | [.mtile _ _ _ rows _ _ _], some (q, j + 1) => j = 0 || (q * rows + j) % 32 = 0
  | _, _ => false

/-- MATRIX_STATE_SAVE: the owner has no resident gang on the core; the state, FAULT and its cause included, is saved
and released. -/
def execMatrixStateSave (core : Nat) (s : State) : Out :=
  .next (let m := matrixOf s core
    match m.owner with
    | none => s
    | some c =>
      if residentHere s c core || !atInterrupt m then s
      else updCore s core fun x => { x with matrix := {}, saved := sset none x.saved c (some m) })

/-- A context whose saved state may come back: it has a resident gang, or a processor of its waits for
the engine, or commands were saved. -/
def restorable (s : State) (core : Nat) : Option (Nat × Matrix) :=
  (sentries (coreOf s core).saved).find? fun e => residentHere s e.1 core || e.2.queue ≠ []
    || [xpOf s core 0, xpOf s core 1].any fun x => x.ctx = e.1 && (x.follows ≠ []
        || (x.wait.map fun w => decide (w.on = .matrix)) = some true)

/-- MATRIX_STATE_RESTORE. -/
def execMatrixStateRestore (core : Nat) (s : State) : Out :=
  .next (if (matrixOf s core).owner.isSome then s
    else match restorable s core with
      | none => s
      | some (c, m) => updCore s core fun x => { x with matrix := m, saved := sset none x.saved c none })

/-! ## Quiesces (R331, R332) -/

/-- Gangs of a context that have not retired from issue. -/
def gangsOf (s : State) (ctx : Nat) : List (Nat × Gang) :=
  (sentries s.gangs).filter fun e => decide (e.2.ctx = ctx ∧ e.2.live ≠ [])

/-- A gang goes on to its next mark, or for good: its stop ends, and its instances resume. -/
def releaseGang (again : Bool) (gk : Nat) (s : State) : State :=
  let ids := ((sentries s.insts).filter fun e => (instLanes s 3 e.1).1 = some gk).map Prod.fst
  let s := ids.foldl (fun s id => updInst s id fun i => { i with stopped := false }) s
  updGang s gk fun g => { g with
    quiesce := again
    groups := g.groups.map fun e => (e.1, e.2.map fun r =>
      if (r.wait.map Wait.on) = some .quiesced then { r with wait := none } else r) }

/-- Every gang and instance of a context is released. -/
def releaseAll (ctx : Nat) (s : State) : State :=
  let s := (gangsOf s ctx).foldl (fun s e => releaseGang false e.1 s) s
  { s with insts := s.insts.map fun e => (e.1, e.2.map fun i =>
      if i.ctx = ctx ∧ !(ctxD s ctx).faulted then { i with stopped := false } else i) }

/-- A quiesce starts: every gang has to stop, and the context's instances are pre-empted, their latches
lost (R67, R311). One that is running, or stands complete, is not started again. -/
def startQuiesce (ctx : Nat) (s : State) : State :=
  let x := ctxD s ctx
  if x.qState = 1 ∨ x.qState = 2 then s
  else
    let s := updCtx s ctx fun x => { x with qState := 1, qSince := s.usec, qTarget := 0 }
    { s with
      gangs := s.gangs.map fun e => (e.1, e.2.map fun g => if g.ctx = ctx then { g with quiesce := true } else g)
      insts := s.insts.map fun e => (e.1, e.2.map fun i => if i.ctx = ctx then
        { i with stopped := true, laneLatch := lostLatches i.laneLatch, gangLatch := lostLatches i.gangLatch } else i) }

/-- A release: of a complete cut, or of the state left by one that ended at its bound. -/
def endQuiesce (ctx : Nat) (s : State) : State :=
  match (ctxD s ctx).qState with
  | 2 => releaseAll ctx (updCtx s ctx fun x => { x with qState := 0 })
  | 3 => updCtx s ctx fun x => { x with qState := 0 }
  | _ => s

/-- Where a context's own notices run: the lowest core that holds a gang of it. -/
def homeCore (s : State) (ctx : Nat) : Nat :=
  (lmin (((sentries s.gangs).filter fun e => e.2.ctx = ctx).map fun e => e.2.core)).getD 0

def quiesceNotice (ctx : Nat) (k : Word) (s : State) : State :=
  raiseDetached (homeCore s ctx) ctx { code := 0x3A, d0 := k } true false 0 false s

/-- The context's processors are IDLE or FAULT, its matrix queues empty and its Gutter entries replayed. -/
def enginesIdle (s : State) (ctx : Nat) : Bool :=
  s.cores.all (fun c => [c.2.xp0, c.2.xp1].all (fun x => x.ctx ≠ ctx || x.state = .idle || x.state = .fault)
      && (c.2.matrix.owner ≠ some ctx || c.2.matrix.queue = [])
      && (sget none c.2.saved ctx).all fun m => m.queue = [])
    && !s.gutter.any fun e => e.ctx = ctx

/-- QUIESCE_CUT_COMPLETE: once every gang has stopped, those behind the highest count are released to their
next mark; with none behind and the engines idle, the cut is complete. -/
def execQuiesceCutComplete (ctx : Nat) (s : State) : Out :=
  let gs := gangsOf s ctx
  let k := lmax (gs.map fun e => e.2.stepCount.toNat)
  .next (
    if (ctxD s ctx).qState ≠ 1 || !(gs.all fun e => gangStopped s e.1 e.2) then s
    else
      let s := updCtx s ctx fun x => { x with qTarget := k }
      let late := gs.filter fun e => decide (e.2.stepCount.toNat < k)
      if late ≠ [] then late.foldl (fun s e => releaseGang true e.1 s) s
      else if enginesIdle s ctx then quiesceNotice ctx (w32 k) (updCtx s ctx fun x => { x with qState := 2 })
      else s)

/-- QUIESCE_BOUND_EXPIRE: time reaches BOUND first; every gang is released. -/
def execQuiesceBoundExpire (ctx : Nat) (s : State) : Out :=
  let x := ctxD s ctx
  .next (
    if x.qState ≠ 1 || x.qBound = 0 then s
    else
      let s := usecTo (x.qSince + x.qBound * 1000) s
      quiesceNotice ctx 0xFFFFFFFF (releaseAll ctx (updCtx s ctx fun x => { x with qState := 3 })))

/-- QUIESCE_REQUEST and QUIESCE_RELEASE: REQ and REL written by a privileged gang. -/
def execQuiesceRequest (ctx : Nat) (s : State) : Out := .next (startQuiesce ctx s)
def execQuiesceRelease (ctx : Nat) (s : State) : Out := .next (endQuiesce ctx s)

/-- HOST_QUIESCE_REQUEST and HOST_QUIESCE_RELEASE (R346): as the writes, answered at once. -/
def execHostQuiesceRequest (m : Hdr) (s : State) : Out :=
  .next (inSession m 5 (fun s => reply m 5 0 [] (startQuiesce m.ctx s)) s)
def execHostQuiesceRelease (m : Hdr) (s : State) : Out :=
  .next (inSession m 5 (fun s => reply m 5 0 [] (endQuiesce m.ctx s)) s)

/-- LAG (R333): gangs that have not stopped at the current k. -/
def quiesceLag (s : State) (ctx : Nat) : Nat :=
  if (ctxD s ctx).qState ≠ 1 then 0
  else ((gangsOf s ctx).filter fun e => !gangStopped s e.1 e.2 || decide (e.2.stepCount.toNat < (ctxD s ctx).qTarget)).length

end Sys2Proof.Machine
end

