-- ==== Sys2Proof/Machine/Admit.lean ====
section
/-!
DEFINITION. Admission of a node's units to cores (R12–R18, R295, R298–R300), and the request for
pre-emption (R325).
-/
namespace Sys2Proof.Machine

/-! ## Units (R13, R295) -/

/-- Threads of batch `b` of a node. -/
def batchThreads (n : Node) (b : Nat) : Nat := min n.b (n.n - b * n.b)

/-- Gang slots that batch `b` needs: legacy gangs share a slot in pairs (R29). -/
def batchSlots (n : Node) (b : Nat) : Nat := ceilDiv (batchThreads n b) 32

/-- The slots that the next unit needs, by cluster rank. -/
def unitNeeds (n : Node) : List Nat := (List.range n.c).map fun i => batchSlots n (n.nextUnit * n.c + i)

/-- A node with a unit still to be admitted. -/
def pendingUnit (n : Node) : Bool :=
  (decide (n.phase = .ready) || decide (n.phase = .running)) && decide (n.nextUnit < n.total)

/-- The stagger of a node on a die (R300, R302). -/
def staggerOf (s : State) (n : Node) (die : Nat) : Nat :=
  if rSown n.rcd then rStagger n.rcd else (dieOf s die).stagger

/-- The last unit of a node admitted on a die, + 1; and the clock + 1 at which it started. -/
def lastUnit (s : State) (die key : Nat) : Nat := sget 0 (dieOf s die).lastStart (2 * key)
def startedAt (s : State) (die key : Nat) : Nat := sget 0 (dieOf s die).lastStart (2 * key + 1)

/-- Stagger: the unit before on the die has started, and long enough ago. -/
def staggerOk (s : State) (key : Nat) (n : Node) (die : Nat) : Bool :=
  lastUnit s die key = 0 || staggerOf s n die = 0
    || (startedAt s die key ≠ 0 && decide (s.clk + 1 ≥ startedAt s die key + staggerOf s n die))

/-- ORDERED: a batch may start once the batch before it has, on whatever die (R18). -/
def batchInTurn (n : Node) (b : Nat) : Bool := !rOrdered n.rcd || b = 0 || n.started.contains (b - 1)

/-- The first batch of the next unit may start (R18, R300). -/
def orderOk (n : Node) : Bool := batchInTurn n (n.nextUnit * n.c)

/-- A gang may issue its first instruction: its batch has started, or is in turn (R18). -/
def inTurn (s : State) (g : Gang) : Bool :=
  match sget none s.pool g.node with
  | some n => n.started.contains g.batch || batchInTurn n g.batch
  | none => true

/-- A gang's first instruction starts its batch, and the first one of a unit the stagger's count on its die
(R18, R300). -/
def noteStart (g : Gang) (s : State) : State :=
  match sget none s.pool g.node with
  | none => s
  | some n =>
    if n.started.contains g.batch then s
    else
      let d := dieNo g.core
      let s := { s with pool := sset none s.pool g.node (some { n with started := n.started ++ [g.batch] }) }
      if lastUnit s d g.node = g.batch / n.c + 1 && startedAt s d g.node = 0 then
        updDie s d fun x => { x with lastStart := sset 0 x.lastStart (2 * g.node + 1) (s.clk + 1) }
      else s

/-! ## Room (R15, R295, R329) -/

/-- Another node's batch with descriptor images is resident on a core (R295). -/
def imagesTaken (s : State) (core key ctx : Nat) : Bool :=
  (gangsOn s core).any fun e => decide (e.2.ctx = ctx ∧ e.2.node ≠ key) && (match sget none s.pool e.2.node with
    | some x => rTdCount x.rcd ≠ 0
    | none => false)

/-- A core may receive gangs of a node at all. -/
def coreOpen (s : State) (key : Nat) (n : Node) (core : Nat) : Bool :=
  !(coreOf s core).fenced
    && !((evictedOn s core).any fun e => decide (e.2.prio ≥ rPrio n.rcd))
    && (rTdCount n.rcd = 0 || !imagesTaken s core key n.ctx)

/-- Descending insertion. -/
def insertDown (x : Nat) : List Nat → List Nat
  | [] => [x]
  | y :: l => if x ≥ y then x :: y :: l else y :: insertDown x l

def sortDown (l : List Nat) : List Nat := l.foldl (fun a x => insertDown x a) []

/-- Needs are covered by distinct cores with the room given. -/
def covers (needs room : List Nat) : Bool :=
  ((sortDown needs).zip (sortDown room)).all (fun e => e.1 ≤ e.2) && decide (needs.length ≤ room.length)

/-- The cores of a hardware cluster. -/
def clusterOf (cl : Nat) : List Nat := (List.range 8).map fun i => cl * 8 + i

/-- A node's next unit fits on a die now. -/
def fitsDie (s : State) (key : Nat) (n : Node) (die : Nat) : Bool :=
  (List.range 16).any fun i => covers (unitNeeds n)
    (((clusterOf (die * 16 + i)).filter (coreOpen s key n)).map fun c => (freeSlots s c).length)

/-! ## Order among entries (R295, R299) -/

/-- A READY or RUNNING Purlin-load node keeps its home die to itself; of two the RUNNING one goes first, then the one
that is first in the order of R295. -/
def purlinKeeps (s : State) (key : Nat) (n : Node) (die : Nat) : Bool :=
  (sentries s.pool).any fun e => e.1 ≠ key && rPurlin e.2.rcd && decide (e.2.die = die)
    && (decide (e.2.phase = .running) || (decide (e.2.phase = .ready)
        && !(rPurlin n.rcd && (decide (n.phase = .running) || decide (rPrio n.rcd > rPrio e.2.rcd)
          || (rPrio n.rcd = rPrio e.2.rcd && decide (n.order < e.2.order))))))

/-- A Purlin-load node waits for every batch on its die, resident or evicted, to be gone. -/
def purlinWaits (s : State) (key : Nat) (n : Node) : Bool :=
  rPurlin n.rcd && (sentries s.gangs).any fun e => decide (dieNo e.2.core = n.die ∧ e.2.node ≠ key)

/-- Another entry's unit, skipped too long, blocks this one on a die; of two such of one PRIO the one
skipped first goes first. -/
def blockedOn (s : State) (key : Nat) (n : Node) (die : Nat) : Bool :=
  (sentries s.pool).any fun e => e.1 ≠ key && e.2.blocking && pendingUnit e.2
    && decide (rPrio n.rcd ≤ rPrio e.2.rcd) && (diesOf s e.2).contains die
    && !(n.blocking && rPrio n.rcd = rPrio e.2.rcd
        && decide (n.skippedSince.getD 0 * 0x10000000000 + n.order < e.2.skippedSince.getD 0 * 0x10000000000 + e.2.order))

/-- A node may put its next unit on a die, as far as its own place in time and others' claims go. -/
def mayAdmit (s : State) (key : Nat) (n : Node) (die : Nat) : Bool :=
  pendingUnit n && !(ctxD s n.ctx).faulted && (ctxD s n.ctx).qState ≠ 2 && (diesOf s n).contains die
    && orderOk n && staggerOk s key n die && !purlinKeeps s key n die && !purlinWaits s key n
    && !blockedOn s key n die

/-- An entry that comes before this one: higher PRIO, or the same and accepted earlier. -/
def entryBefore (a b : Node) : Bool :=
  decide (rPrio a.rcd > rPrio b.rcd) || (rPrio a.rcd = rPrio b.rcd && decide (a.order < b.order))

/-- Entries before this one that could be admitted on a die. -/
def betterFits (s : State) (key : Nat) (n : Node) (die : Nat) : Bool :=
  (sentries s.pool).any fun e => e.1 ≠ key && entryBefore e.2 n && mayAdmit s e.1 e.2 die && fitsDie s e.1 e.2 die

/-! ## Descriptor images (R295) -/

/-- What the read of an image at admission comes to. -/
inductive ImageRes where
  | desc (d : Desc)
  | fail (c : Cause)
  | wait (page acc : Nat)
  | held

/-- Image `i`, read in the view of a core's die. -/
def readImage (s : State) (n : Node) (core i : Nat) : ImageRes :=
  let addr := rImage n.rcd i
  match n.refused.find? fun x => x.1 = i with
  | some (_, code) => .fail { (refusalCause code addr 0) with source := 6 }
  | none => match resolve s { core := core, ctx := n.ctx, gk := none, ref := none } .desc 0 addr 64 1 with
    | .miss page acc => .wait page acc
    | .wait _ => .held
    | .bad c => .fail { c with source := 6 }
    | .ok p =>
      let d := wordsOf 16 (spotBytes s core n.ctx none p 64)
      if if dValid d then descOk d else partOk d then .desc d
      else .fail { code := 0x18, d0 := w32 i, source := 6 }

def imagesOf (s : State) (n : Node) (core : Nat) : List (Nat × ImageRes) :=
  (List.range (rTdCount n.rcd)).map fun i => (i, readImage s n core i)

/-- Images that still wait for their page: (image, page, access). -/
def imageWaits (rs : List (Nat × ImageRes)) : List (Nat × Nat × Nat) :=
  rs.filterMap fun r => match r.2 with
    | .wait page acc => some (r.1, page, acc)
    | _ => none

def imageHeld (rs : List (Nat × ImageRes)) : Bool :=
  rs.any fun r => match r.2 with
    | .held => true
    | _ => false

/-- The cause of the lowest failing image. -/
def imageCause (rs : List (Nat × ImageRes)) : Option Cause :=
  rs.findSome? fun r => match r.2 with
    | .fail c => some c
    | _ => none

/-- The images that could be read are copied to a core. -/
def copyImages (ctx core : Nat) (rs : List (Nat × ImageRes)) (s : State) : State :=
  rs.foldl (fun s r => match r.2 with
    | .desc d => setDesc ctx core r.1 d s
    | _ => s) s

/-! ## Launch state (R12, R16, R29, R298) -/

/-- Gang `k` of batch `b`, as it is launched on a core in slot `slot`. -/
def launchGang (s : State) (key : Nat) (n : Node) (cluster : List Nat) (core slot b k qid admitted : Nat)
    (cause : Option Cause) : Gang :=
  let x := ctxD s n.ctx
  let width := if n.legacy then 16 else 32
  let t0 := b * n.b + k * width
  let live := (List.range width).filter fun l => decide (k * width + l < batchThreads n b)
  let shp0 := (rWord n.rcd 8).toNat
  let g : Gang :=
    { ctx := n.ctx, core := core, home := slot, slot := slot, half := if n.legacy then k % 2 else 0
      legacy := n.legacy, node := key, batch := b, tid0 := t0, cluster := cluster, prio := rPrio n.rcd
      lregs := n.lregs, live := live, pad := if n.bucket.isSome then live.filter fun l => decide (t0 + l ≥ shp0) else []
      v := ssets 0 [] ((List.range width).map fun l => (l * 64, if live.contains l then w32 (t0 + l) else 0xFFFFFFFF))
      g := ssets 0 [] [(0, rWord n.rcd 2), (1, rWord n.rcd 3), (2, w32 n.n), (3, w32 b), (4, w32 k), (5, w32 (b % n.c))]
      shp := (List.range 4).map fun i => rWord n.rcd (8 + i)
      entry := n.entry, idemPc := n.entry
      groups := [(0, some { slices := List.range (width / 4), pc := n.entry, qids := [qid] })]
      admitted := admitted, since := s.usec, bucket := n.bucket
      stackBase := x.stackBase, stackSize := x.stackSize, hinted := n.hinted, quiesce := x.qState = 1 }
  match cause with
  | none => g
  | some c => { g with pending := [⟨c, live, w32 n.entry, false, none, false⟩] }

/-- The gangs of a batch are placed on a core, in its lowest free slots; the sweeper stops there for their context
(R327). -/
def placeBatch (key : Nat) (n : Node) (cluster : List Nat) (core b admitted : Nat) (cause : Option Cause) (s : State) : State :=
  let width := if n.legacy then 16 else 32
  let slots := freeSlots s core
  let s := updCc s n.ctx core fun x => { x with tags := x.tags.map fun e => (e.1, { e.2 with kept := false }) }
  (List.range (ceilDiv (batchThreads n b) width)).foldl (fun s k =>
    let slot := slots.getD (if n.legacy then k / 2 else k) 0
    let g := launchGang s key n cluster core slot b k (s.next + 1) admitted cause
    let s := setGang { s with next := s.next + 2 } s.next (some g)
    { s with pool := s.pool.map fun e => (e.1, e.2.map fun x =>
        if e.1 = key then { x with gangs := x.gangs ++ [s.next - 2] } else x) }) s

/-- THE UNIT IS ADMITTED to its cores, in rank order. -/
def admitTo (key : Nat) (n : Node) (cores : List Nat) (rs : List (Nat × ImageRes)) (s : State) : State :=
  let u := n.nextUnit
  let die := dieNo (cores.headD 0)
  let admitted := s.next
  let s := taken s
  let s := ((List.range n.c).zip cores).foldl (fun s e =>
    placeBatch key n cores e.2 (u * n.c + e.1) admitted (imageCause rs) (copyImages n.ctx e.2 rs s)) s
  let s := updDie s die fun x => { x with
    lastStart := sset 0 (sset 0 x.lastStart (2 * key) (u + 1)) (2 * key + 1) 0 }
  { s with pool := s.pool.map fun e => (e.1, e.2.map fun x => if e.1 = key then
      { x with phase := .running, nextUnit := u + 1, skippedSince := none, blocking := false, claim := []
               refused := x.refused.filter fun r => r.1 = 128 } else x) }

/-! ## ADMIT_UNIT (R295) -/

/-- The cores named can take the unit: distinct, of one hardware cluster, open, with room. -/
def placementOk (s : State) (key : Nat) (n : Node) (cores : List Nat) : Bool :=
  decide (cores.length = n.c ∧ cores.eraseDups.length = n.c)
    && cores.all (fun c => decide (c < Config.cores ∧ clusterNo c = clusterNo (cores.headD 0)) && coreOpen s key n c)
    && ((unitNeeds n).zip cores).all fun e => decide (e.1 ≤ (freeSlots s e.2).length)

/-- The dispatch unit has found no room for the unit on any die it may go to: it is skipped for now. -/
def noRoom (s : State) (key : Nat) (n : Node) : Bool :=
  let dies := (diesOf s n).filter (mayAdmit s key n)
  dies ≠ [] && !dies.any (fitsDie s key n)

/-- Entries without room are skipped, from now on if they were not before. -/
def markSkipped (s : State) : State :=
  { s with pool := s.pool.map fun e => (e.1, e.2.map fun n =>
      if n.skippedSince.isNone && noRoom s e.1 n then { n with skippedSince := some s.usec } else n) }

/-- ADMIT_UNIT: the next unit of a node goes to the cores named, in ascending order of cluster rank. An
image that misses translation delays it. -/
def execAdmitUnit (node : Nat) (cores : List Nat) (s : State) : Out :=
  .next (match sget none s.pool node with
    | none => s
    | some n =>
      let die := dieNo (cores.headD 0)
      if !mayAdmit s node n die || !placementOk s node n cores || betterFits s node n die then markSkipped s
      else
        let rs := imagesOf s n (cores.headD 0)
        if imageHeld rs then s
        else match imageWaits rs with
          | [] => markSkipped (admitTo node n cores rs s)
          | ws => ws.foldl (fun s w => requestWalk (cores.headD 0) n.ctx w.2.1 w.2.2 (.node node w.1) s) s)

/-! ## ADMISSION_SKIP_TIMEOUT (R295, R325) -/

/-- Cores of a cluster that could hold the next unit if gangs of lower PRIO were evicted, by rank. -/
def evictionPlan (s : State) (key : Nat) (n : Node) (cl : Nat) : Option (List Nat) :=
  let prio := rPrio n.rcd
  (unitNeeds n).foldl (fun plan need => match plan with
    | none => none
    | some cs => (((clusterOf cl).filter fun c => !cs.contains c && coreOpen s key n c
        && decide (slotsPossible s c prio ≥ need)).head?).map fun c => cs ++ [c]) (some [])

/-- Pre-emption is requested for a blocking unit: in the first cluster, home die first, where evictions
make room; the unit lays claim to those cores. -/
def requestPreempt (key : Nat) (n : Node) (s : State) : State :=
  let dies := n.die :: (diesOf s n).filter (· ≠ n.die)
  let cls := dies.flatMap fun d => (List.range 16).map fun i => d * 16 + i
  if rPurlin n.rcd then s
  else match cls.findSome? (evictionPlan s key n) with
    | none => s
    | some cores =>
      ((unitNeeds n).zip cores).foldl (fun s' e => evictFor e.2 (rPrio n.rcd) e.1 s.next s')
        { taken s with pool := sset none s.pool key (some { n with claim := cores }) }

/-- ADMISSION_SKIP_TIMEOUT: a unit skipped for 64 µs blocks, and asks for pre-emption; it asks again while
no save is under way. -/
def execAdmissionSkipTimeout (node : Nat) (s : State) : Out :=
  .next (match sget none s.pool node with
    | none => s
    | some n => match n.skippedSince with
      | none => s
      | some since =>
        if !pendingUnit n then s
        else
          let n' := { n with blocking := true }
          let s := { usecTo (since + 64) s with pool := sset none s.pool node (some n') }
          if (sentries s.gangs).any fun e => (match e.2.place with
            | .saving _ => true
            | _ => false) then s
          else requestPreempt node n' s)

end Sys2Proof.Machine
end

