-- ==== Sys2Proof/Machine/Bytes.lean ====
section
/-!
DEFINITION. Byte, hash and generator instructions, lane pipe 0x60–0x68 (R103–R105, R109, R110).
-/
namespace Sys2Proof.Machine

/-- Byte `k` of a word, byte 0 lowest (R103). -/
def byteOf (x : Word) (k : Nat) : Nat := x.toNat / 2 ^ (8 * k) % 256

/-- A word of four bytes, byte 0 first. -/
def ofBytes (f : Nat → Nat) : Word := w32 (f 0 + f 1 * 0x100 + f 2 * 0x10000 + f 3 * 0x1000000)

def byteq (a b : Word) : Word := ofBytes fun k => if byteOf a k = byteOf b k then 0xFF else 0

def bfind (a b : Word) : Word :=
  match [0, 1, 2, 3].find? fun k => decide (b.toNat / 256 % 4 ≤ k) && decide (byteOf a k = byteOf b 0) with
  | some k => w32 k
  | none => 4

def bperm (a b : Word) : Word :=
  ofBytes fun k => let n := b.toNat / 16 ^ k % 16; if n ≤ 3 then byteOf a n else 0

/-- One bit of the reflected CRC-32C (R104). -/
def crcBit (c : Word) : Word := if c.getLsbD 0 then (c >>> 1) ^^^ 0x82F63B78#32 else c >>> 1

def crcByte (c : Word) (b : Nat) : Word := (List.range 8).foldl (fun c _ => crcBit c) (c ^^^ w32 b)

def crcWord (a b : Word) : Word := [0, 1, 2, 3].foldl (fun c k => crcByte c (byteOf b k)) a

def hmix (a b : Word) : Word :=
  let h := (a ^^^ b) * 0x9E3779B1#32
  h ^^^ (h >>> 15)

def execByteq (o : O3) (s : State) : Out := binary (.byteq o) .lane o byteq s
def execBfind (o : O3) (s : State) : Out := binary (.bfind o) .lane o bfind s
def execBperm (o : O3) (s : State) : Out := binary (.bperm o) .lane o bperm s
def execCrcC (o : O3) (s : State) : Out := binary (.crcC o) .lane o crcWord s
def execHmix (o : O3) (s : State) : Out := binary (.hmix o) .lane o hmix s

/-! ## The per-lane generator (R109, R110) -/

/-- xorshift64: the new state; the draw is its low word. -/
def rngStep (x : Dword) : Dword :=
  let x := x ^^^ (x <<< 13)
  let x := x ^^^ (x >>> 7)
  x ^^^ (x <<< 17)

def genOf (s : State) (u : UView) (l : Nat) : Dword :=
  match u.gk.bind (gang? s) with
  | some g => sget 1 g.gen l
  | none => 1

def setGens (xs : List (Nat × Dword)) (u : UView) (s : State) : State :=
  match u.gk with
  | some gk => updGang s gk fun g => { g with gen := ssets 1 g.gen xs }
  | none => s

/-- RNG.SEED: no result. -/
def execRngSeed (o : OAB) (s : State) : Out :=
  issue (.rngSeed o) { pipe := .lane, strand := o.s, srcs := [o.a, o.b] }
    (fun u acts s => advance (setGens (acts.map fun l =>
      let x := pair (vsrc s u o.a l) (vsrc s u o.b l)
      (l, if x = 0 then 1 else x)) u s) u) s

def execRngNext (o : OD) (s : State) : Out :=
  issue (.rngNext o) { pipe := .lane, strand := o.s, dst := some o.d, w := o.w }
    (fun u acts s =>
      let xs := acts.map fun l => (l, rngStep (genOf s u l))
      advance (laneResult o.d o.w (xs.map fun e => (e.1, lo32 e.2)) u (setGens xs u s)) u) s

def execPrune (o : O3) (s : State) : Out :=
  issue (.prune o) (need3 .lane o)
    (fun u acts s =>
      let xs := acts.map fun l => (l, rngStep (genOf s u l))
      let rs := xs.map fun e => (e.1, if (lo32 e.2).ult (vsrc s u o.b e.1) then 0 else vsrc s u o.a e.1)
      advance (laneResult o.d o.w rs u (setGens xs u s)) u) s

end Sys2Proof.Machine
end

