-- ==== Sys2Proof/Machine/Sha.lean ====
section
/-!
DEFINITION. SHA-256 and RSASSA-PKCS1-v1_5, which the manual names without defining
(R335, R337, R339, R363–R366, R377): the published standards, log entry 46. The constants of the digest are
computed from the roots that define them, and its eight working variables are kept as two histories: the
values that entered at the left (a, and b, c, d behind it) and in the middle (e, and f, g, h behind it).
-/
namespace Sys2Proof.Machine

/-- `n` bytes of a number, most significant first. -/
def natBe (n v : Nat) : List Byte := (natLe n v).reverse

/-- The number that bytes hold, most significant first. -/
def beNat (bs : List Byte) : Nat := leNat bs.reverse

/-! ## The constants -/

/-- The first `n` primes from `k` up, by `fuel` trials. -/
def primesFrom (fuel n k : Nat) : List Nat := match fuel, n with
  | 0, _ => []
  | _, 0 => []
  | f + 1, m + 1 =>
    if (List.range 18).all fun d => d < 2 || k ≤ d || k % d ≠ 0 then k :: primesFrom f m (k + 1)
    else primesFrom f (m + 1) (k + 1)

/-- The greatest `r` below `r₀ + 2 ^ n` with `r ^ e` not above `v`, from a root `r₀`. -/
def rootFrom (e v : Nat) : Nat → Nat → Nat
  | 0, r => r
  | n + 1, r => rootFrom e v n (if (r + 2 ^ n) ^ e ≤ v then r + 2 ^ n else r)

/-- The first 32 fraction bits of the `e`th root of a number. -/
def rootBits (e p : Nat) : Word := BitVec.ofNat 32 (rootFrom e (p * 2 ^ (32 * e)) 37 0)

/-- The constant of each round: cube roots of the first 64 primes. -/
def roundBits : List Word := (primesFrom 312 64 2).map (rootBits 3)

/-- The value a digest starts from, most significant word first: square roots of the first 8 primes. -/
def startBits : List Word := (primesFrom 19 8 2).map (rootBits 2)

/-! ## The digest -/

/-- A word turned right by each of three counts; the last counts as a shift where `drop` is set. -/
def mixed (i j k : Nat) (drop : Bool) (x : Word) : Word :=
  x.rotateRight i ^^^ x.rotateRight j ^^^ (if drop then x >>> k else x.rotateRight k)

/-- A block under way: the latest values at the left and in the middle, newest first, and the coming 16
words of the schedule, the next one first. -/
structure Digesting where
  left : List Word
  middle : List Word
  coming : List Word
  deriving DecidableEq, Repr

/-- One round, with its constant. -/
def Digesting.round (x : Digesting) (k : Word) : Digesting :=
  match x.left, x.middle, x.coming with
  | [a, b, c, d], [e, f, g, h], m :: ms =>
    let pick := g ^^^ (e &&& (f ^^^ g))
    let most := (a &&& (b ||| c)) ||| (b &&& c)
    let up := m + k + h + pick + mixed 6 11 25 false e
    let late := m + mixed 7 18 3 true (ms.getD 0 0) + ms.getD 8 0 + mixed 17 19 10 true (ms.getD 13 0)
    { left := [up + most + mixed 2 13 22 false a, a, b, c], middle := [d + up, e, f, g], coming := ms ++ [late] }
  | _, _, _ => x

/-- The digest's value after a block of 16 words. -/
def afterBlock (value block : List Word) : List Word :=
  let x := roundBits.foldl Digesting.round { left := value.take 4, middle := value.drop 4, coming := block }
  value.zipWith (· + ·) (x.left ++ x.middle)

/-- The words of whole words' bytes, each most significant byte first: `n` of them. -/
def wordsBe : Nat → List Byte → List Word
  | 0, _ => []
  | n + 1, bs => BitVec.ofNat 32 (beNat (bs.take 4)) :: wordsBe n (bs.drop 4)

/-- The value after `n` blocks of a message's words. -/
def afterBlocks : Nat → List Word → List Word → List Word
  | 0, value, _ => value
  | n + 1, value, ws => afterBlocks n (afterBlock value (ws.take 16)) (ws.drop 16)

/-- The SHA-256 digest, as a number most significant byte first: the message, a one bit, zeros, and the
message's length in bits, in the fewest whole blocks. -/
def sha256 (bs : List Byte) : Nat :=
  let blocks := (bs.length + 72) / 64
  let message := bs ++ 0x80#8 :: (List.replicate (64 * blocks - bs.length - 9) 0#8 ++ natBe 8 (8 * bs.length))
  beNat ((afterBlocks blocks startBits (wordsBe (16 * blocks) message)).flatMap fun w => natBe 4 w.toNat)

/-! ## Signatures -/

/-- `b ^ e` modulo `m`, from the top of the exponent's low `n` bits. -/
def powMod (m n b e : Nat) : Nat :=
  (List.range n).reverse.foldl (fun r i => r * r % m * (if e.testBit i then b else 1) % m) (1 % m)

/-- The encoded message of a digest: 384 bytes. -/
def pkcs1 (digest : Nat) : Nat :=
  beNat ([0x00#8, 0x01#8] ++ List.replicate 330 0xFF#8 ++ [0x00#8]
    ++ natBe 19 0x3031300d060960864801650304020105000420 ++ natBe 32 digest)

/-- A signature, 384 bytes most significant first, verifies under a key. -/
def rsaVerify (modulus exponent digest : Nat) (sig : List Byte) : Bool :=
  let x := beNat sig
  decide (x < modulus) && decide (powMod modulus 32 x exponent = pkcs1 digest)

/-- The signature of bytes under a key's modulus and private exponent: 384 bytes. -/
def rsaSign (modulus privateExponent : BitVec 3072) (bs : List Byte) : List Byte :=
  natBe 384 (powMod modulus.toNat 3072 (pkcs1 (sha256 bs)) privateExponent.toNat)

end Sys2Proof.Machine
end

