-- ==== Sys2Proof/Machine/Events.lean ====
section
/-!
DEFINITION. Deferred causes, handler instances and the watchdog (R309–R311, R320); lapses, yields and
ages (R24, R66, R120); the fading scratchpad, the Purlin refresh and Ridge errors (R171, R172, R175, R307).
-/
namespace Sys2Proof.Machine

/-! ## Deferred causes (R309, R310) -/

/-- A group is stopped by a cause. -/
def isStopped (g : Gang) (gid : Nat) : Bool := stoppedWait ((group? g gid).bind Group.wait)

/-- The groups that a pending cause stops: the one that issued the work, or, where none is known or it is gone, all
of the gang that are not stopped yet. -/
def pendingGroups (g : Gang) (p : Pending) : List Nat :=
  let own := match p.group with
    | some k => if (group? g k).isSome then [k] else skeys g.groups
    | none => skeys g.groups
  own.filter fun k => !isStopped g k

/-- The pending causes that may be taken now: those of work that has failed, and those of the first instruction
once that may issue. -/
def ripe (s : State) (g : Gang) : List Pending :=
  if g.place = .resident ∧ !g.dead ∧ g.live ≠ [] then
    g.pending.filter fun p => pendingGroups g p ≠ [] && (p.defer || inTurn s g)
  else []

/-- The one that is taken first: the lowest code, the earliest of one code (R310). -/
def pendingReady (s : State) (g : Gang) : Option Pending :=
  let low := lmin ((ripe s g).map fun p => p.cause.code)
  (ripe s g).find? fun p => some p.cause.code = low

/-- Live lanes of a gang that hold a user block: neither parked nor DONE. -/
def inStep (g : Gang) : List Nat := g.live.filter fun l => sget 1023 g.blk l < 1022

/-- A cause is delivered to a gang at a boundary: in linear code its groups stop; in a region the lanes
still in the step are parked; with none there, a detached instance takes it. -/
def deliverPending (gk : Nat) (g : Gang) (p : Pending) (s : State) : State :=
  let gids := pendingGroups g p
  let depth := ((gids.head?.bind (group? g)).map fun r => r.cont.length).getD 0
  let stop (lanes : List Nat) (s : State) : State :=
    gids.foldl (fun s gid => raiseGroup gk gid p.cause lanes p.defer p.pc p.scode s) s
  match g.region with
  | none => stop (p.lanes.filter g.live.contains) s
  | some _ =>
    let lanes := p.lanes.filter (inStep g).contains
    if lanes = [] && !(isUncorrectable p.cause && depth ≠ 0) then
      raiseDetached g.core g.ctx p.cause false p.defer p.pc p.scode s g.half depth
    else stop lanes s

/-- DEFERRED_CAUSE_DELIVERY. A cause of the gang's first instruction starts its batch (R295, R300). -/
def execDeferredCauseDelivery (gk : Nat) (s : State) : Out :=
  .next (match gang? s gk with
    | none => s
    | some g => match pendingReady s g with
      | none => s
      | some p =>
        let g' := { g with pending := g.pending.erase p, idle := g.idle && p.defer }
        deliverPending gk g' p (if p.defer then setGang s gk (some g') else noteStart g (setGang s gk (some g'))))

/-! ## Handler instances (R311) -/

/-- The instance that has waited longest for a register set of a core. -/
def waitingInst (s : State) (core : Nat) : Option (Nat × Inst) :=
  (sentries s.insts).find? fun e => decide (e.2.core = core ∧ e.2.set = none)

/-- HANDLER_INSTANCE_START: it takes the lowest free set. -/
def execHandlerInstanceStart (core : Nat) (s : State) : Out :=
  .next (match waitingInst s core, freeSet s core with
    | some (id, i), some n => setInst s id (some { i with set := some n, since := s.usec })
    | _, _ => s)

/-! ## The run-bound watchdog (R320) -/

/-- A handler of the watchdog's cause already serves a gang. -/
def watchdogServed (s : State) (gk : Nat) : Bool :=
  (sentries s.insts).any fun e => e.2.rcd.cause.code = 0x3E && (instLanes s 3 e.1).1 = some gk

/-- A gang can be stopped: it runs or waits on its core, in a region perhaps for its fragments. -/
def watchable (s : State) (gk : Nat) (g : Gang) : Bool :=
  g.place = .resident && !g.dead && g.live ≠ [] && !(ctxD s g.ctx).faulted && !watchdogServed s gk
    && (match g.region with
      | none => (sentries g.groups).any fun e => !isStopped g e.1
      | some _ => true)

/-- Every group of a gang that is not stopped takes the cause; in a region, its lanes in the step do. A region that
only waits for fragments has no lane to stop: a detached instance takes the cause, and the count starts anew
(DESIGN CHOICE, log entry 102). -/
def stopGang (gk : Nat) (g : Gang) (c : Cause) (s : State) : State :=
  match g.region with
  | none => (sentries g.groups).foldl (fun s e =>
      if isStopped g e.1 then s else raiseGroup gk e.1 c (groupLanes g e.2) false 0 false s) s
  | some _ =>
    if inStep g = [] then
      raiseDetached g.core g.ctx c false false 0 false (updGang s gk fun g => { g with since := s.usec }) g.half
    else raiseGroup gk (onlyGroup g) c (inStep g) false 0 false s

/-- RUN_BOUND_WATCHDOG: a run has passed SYS.RUN_BOUND ms; time moves there. -/
def execRunBoundWatchdog (u : UnitRef) (s : State) : Out :=
  .next (match u with
    | .grp gk _ => match gang? s gk with
      | none => s
      | some g =>
        let b := (ctxD s g.ctx).runBound
        if b = 0 || !watchable s gk g then s
        else
          let s := usecTo (g.since + b * 1000 + 1) s
          stopGang gk g { code := 0x3E, d0 := w32 ((s.usec - g.since) / 1000), source := 7 } s
    | .inst id => match inst? s id with
      | none => s
      | some i =>
        let b := (ctxD s i.ctx).runBound
        if b = 0 || i.set.isNone || (ctxD s i.ctx).faulted then s
        else
          let s := usecTo (i.since + b * 1000 + 1) s
          faultContext i.ctx { code := 0x3E, d0 := w32 ((s.usec - i.since) / 1000), source := 7 } s
    | .xp _ _ => s)

/-! ## YIELD, ages and holds (R24, R66, R120) -/

/-- The wait of a unit ends. -/
def clearWait (u : UView) (s : State) : State :=
  onIssuer s u (fun r => { r with wait := none }) (fun i => { i with wait := none })

/-- YIELD_EXPIRE: sixteen clocks have passed. -/
def execYieldExpire (u : UnitRef) (s : State) : Out :=
  .next (match waitIn s u with
    | some (v, ⟨.yield c, _⟩) => if c ≤ s.clk then clearWait v s else s
    | _ => s)

/-- SYS.AGE_LIMIT of a gang's context on its core. -/
def ageLimitOf (s : State) (g : Gang) : Nat := (ccOf s g.ctx g.core).ageLimit

/-- AGE_LIMIT_REACHED: a group that is ready has not been chosen for so many clocks. -/
def execAgeLimitReached (u : UnitRef) (s : State) : Out :=
  .next (match u with
    | .grp gk gid => match (gang? s gk).bind fun g => (group? g gid).map fun r => (g, r) with
      | some (g, r) =>
        if r.wait.isSome || g.place ≠ .resident || g.dead then s
        else updGroup s gk gid fun r => { r with age := max r.age (ageLimitOf s g) }
      | none => s
    | _ => s)

/-- The pipes of a kind: the two lane pipes, or the gang pipe. -/
def pipesOf (p : Pipe) : List Nat :=
  match p with
  | .lane => [0, 1]
  | .gang => [2]

/-- A hold of a unit on a pipe: its number, the clock of its last issue, that of its chain's start. -/
def holdOf (s : State) (core : Nat) (u : UnitRef) (p : Pipe) : Option (Nat × Nat × Nat) :=
  (pipesOf p).findSome? fun k => match sget none (coreOf s core).holds k with
    | some (v, last, start) => if v = u then some (k, last, start) else none
    | none => none

/-- Every VALID latch entry of a unit becomes LOST. -/
def loseLatches (v : UView) (s : State) : State :=
  onIssuer s v Group.lose (fun i => { i with laneLatch := lostLatches i.laneLatch, gangLatch := lostLatches i.gangLatch })

/-- A hold ends, and with it the latches. -/
def lapse (core k : Nat) (v : UView) (s : State) : State :=
  loseLatches v (updCore s core fun c => { c with holds := sset none c.holds k none })

/-- A hold is over: 32 clocks after the last issue, or 64 after the chain's first. -/
def holdOver (s : State) (last start : Nat) : Bool := decide (min (last + 32) (start + 64) ≤ s.clk)

/-- HOLD_LAPSE: such a hold of a unit ends. -/
def execHoldLapse (u : UnitRef) (p : Pipe) (s : State) : Out :=
  .next (match viewOf s u with
    | none => s
    | some v => match holdOf s v.core u p with
      | none => s
      | some (k, last, start) => if holdOver s last start then lapse v.core k v s else s)

/-- What is left of the holds of a core when a clock has passed. -/
def lapseOn (s : State) (core : Nat) : State :=
  [0, 1, 2].foldl (fun s k => match sget none (coreOf s core).holds k with
    | some (u, last, start) =>
      if holdOver s last start then (match viewOf s u with
        | some v => lapse core k v s
        | none => updCore s core fun c => { c with holds := sset none c.holds k none })
      else s
    | none => s) s

/-! ## The scratchpad's time (R171, R172) -/

/-- BUFFER_EXPIRY: SYS.FADE_TICK reaches EXPIRY, where the sweeper does not keep the buffer. -/
def execBufferExpiry (ctx core idx : Nat) (s : State) : Out :=
  let t := tagOf s ctx core idx
  .next (if !t.live || t.saved || t.kept then s
    else
      let left := if expired s t then 0 else (t.expiry + 0x100000000 - fadeTick s) % 0x100000000
      updTag (passTime left s) ctx core idx fun t => { t with stale := true })

/-- RENEWAL_COMPLETE: the last granule is rewritten; a renewal that waited starts. -/
def execRenewalComplete (ctx core idx : Nat) (s : State) : Out :=
  let t := tagOf s ctx core idx
  .next (if !t.live || t.rewrite.isNone then s
    else
      let s' := updTag s ctx core idx fun t => { t with rewrite := none, more := t.more.drop 1 }
      match t.more with
      | [] => s'
      | z :: _ => startRewrite ctx core idx z s')

/-! ## The Purlin refresh (R175) -/

/-- PURLIN_REFRESH_START: time reaches the opening of the next bank group's window on a die. -/
def execPurlinRefreshStart (die : Nat) (s : State) : Out :=
  .next (if (purlinGroup s die).2 then s else tenthsTo (tenths s + (40 - purlinPos s die % 40)) s)

/-- PURLIN_REFRESH_END: time reaches the end of the window that is open on a die. -/
def execPurlinRefreshEnd (die : Nat) (s : State) : Out :=
  .next (if (purlinGroup s die).2 then tenthsTo (tenths s + (16 - purlinPos s die % 40)) s else s)

/-! ## Ridge errors (R307) -/

/-- The lanes of a mask. -/
def maskLanes (m : Nat) : List Nat := (List.range 32).filter fun l => m.testBit l

/-- RIDGE_LINK_ERROR: cause 0x37 is held deferred for the gang whose transfer failed. -/
def execRidgeLinkError (gk lanes target : Nat) (pc : Word) (s : State) : Out :=
  .next (match gang? s gk with
    | none => s
    | some g => pend g.core g.ctx (some gk) none { code := 0x37, d0 := w32 target, source := 5 }
        ((maskLanes lanes).filter g.live.contains) pc false s)

end Sys2Proof.Machine
end

