-- ==== Sys2Proof/Machine/Sealing.lean ====
section
/-!
DEFINITION. Sealing and unsealing automaton images (R49–R55).
-/
namespace Sys2Proof.Machine

/-! ## The parts of an image -/

/-- Word `i` of a byte string. -/
def bWord (bs : List Byte) (i : Nat) : Word := w32 (leNat ((bs.drop (4 * i)).take 4))

/-- The header of an image (R49). -/
structure ImgHdr where
  magic : Nat
  w1 : Word
  ns : Nat
  nb : Nat
  w3 : Word
  w4 : Word
  nmap : Nat
  blkOff : Nat
  stOff : Nat
  mapOff : Nat
  codeOff : Nat
  codeLen : Nat
  total : Nat
  rest : List Word
deriving DecidableEq, Repr

def imgHdr (bs : List Byte) : ImgHdr :=
  let n (i : Nat) : Nat := (bWord bs i).toNat
  { magic := n 0, w1 := bWord bs 1, ns := bits (bWord bs 2) 16 16, nb := bits (bWord bs 2) 0 16, w3 := bWord bs 3
    w4 := bWord bs 4, nmap := n 5, blkOff := n 6, stOff := n 7, mapOff := n 8, codeOff := n 9
    codeLen := n 10, total := n 11, rest := [bWord bs 12, bWord bs 13, bWord bs 14, bWord bs 15] }

def ImgHdr.entry (h : ImgHdr) : Nat := bits h.w3 0 10
def ImgHdr.misslim (h : ImgHdr) : Nat := bits h.w4 0 16
def ImgHdr.misstrap (h : ImgHdr) : Bool := h.w1.getLsbD 16

/-- Which bytes of an image are at hand, by offset and length: a check that needs others is not made. -/
abbrev Known := Nat → Nat → Bool

/-- The tables as (offset, length), of those whose place the header words at hand give. -/
def ImgHdr.tables (h : ImgHdr) (known : Known := fun _ _ => true) : List (Nat × Nat) :=
  let k (i : Nat) : Bool := known (4 * i) 4
  (0, 64) :: ([(k 6 && k 2, h.blkOff, 32 * h.nb), (k 7 && k 2, h.stOff, 16 * h.ns), (k 8 && k 5, h.mapOff, 8 * h.nmap),
    (k 9 && k 10, h.codeOff, 4 * h.codeLen)].filter Prod.fst).map Prod.snd

/-- No two of the spans overlap. -/
def disjointSpans : List (Nat × Nat) → Bool
  | [] => true
  | x :: l => l.all (fun y => x.2 = 0 || y.2 = 0 || decide (x.1 + x.2 ≤ y.1) || decide (y.1 + y.2 ≤ x.1)) && disjointSpans l

/-- Status 1 to 3 of the header, or 0. -/
def hdrStatus (h : ImgHdr) (known : Known := fun _ _ => true) : Nat :=
  let k (i : Nat) : Bool := known (4 * i) 4
  if (k 0 && h.magic ≠ 0x4D41584A) || (k 1 && bits h.w1 0 16 ≠ 1) then 1
  else if (k 2 && !decide (1 ≤ h.nb ∧ h.nb ≤ 1022 ∧ 1 ≤ h.ns ∧ h.ns ≤ 4096)) || (k 2 && k 5 && h.nmap > h.ns)
      || (k 2 && k 3 && h.entry ≥ h.nb) || (k 1 && k 4 && h.misstrap && h.misslim = 0) then 2
  else if (k 6 && h.blkOff % 16 ≠ 0) || (k 7 && h.stOff % 16 ≠ 0) || (k 8 && h.mapOff % 16 ≠ 0) || (k 9 && h.codeOff % 16 ≠ 0)
      || (k 11 && h.total > 0x400000) || (k 11 && !((h.tables known).all fun t => t.1 + t.2 ≤ h.total))
      || !disjointSpans (h.tables known) then 3
  else 0

/-- Reserved fields of the header. -/
def hdrReserved (h : ImgHdr) (known : Known := fun _ _ => true) : Bool :=
  let k (i : Nat) : Bool := known (4 * i) 4
  (!k 1 || bits h.w1 17 15 = 0) && (!k 3 || bits h.w3 10 22 = 0) && (!k 4 || bits h.w4 16 16 = 0)
    && ([0, 1, 2, 3].all fun i => !k (12 + i) || h.rest.getD i 0 = 0)

/-- The eight words of block `b`'s entry, the four of state `s`'s, the two of set-map entry `i`. -/
def blockWords (bs : List Byte) (h : ImgHdr) (b : Nat) : List Word := wordsOf 8 (bs.drop (h.blkOff + 32 * b))
def stateWords (bs : List Byte) (h : ImgHdr) (x : Nat) : List Word := wordsOf 4 (bs.drop (h.stOff + 16 * x))
def mapWords (bs : List Byte) (h : ImgHdr) (i : Nat) : List Word := wordsOf 2 (bs.drop (h.mapOff + 8 * i))

/-! ## Block entries (R50) -/

def leadN (w : List Word) : Nat := bits (rWord w 0) 28 4

/-- Lead slot `k`, 16 bits. -/
def leadSlot (w : List Word) (k : Nat) : Nat := bits (rWord w (1 + k / 2)) (16 * (k % 2)) 16

def leadList (w : List Word) : List Nat := (List.range (min 8 (leadN w))).map (leadSlot w)

def blockReserved (w : List Word) : Bool :=
  bits (rWord w 0) 26 2 = 0 && bits (rWord w 0) 0 16 = 0 && zeroWords w 5 7
    && (List.range 8).all fun k => k < leadN w || leadSlot w k = 0xFFFF

/-! ## State entries (R51) -/

def nBlk (w : List Word) : Nat := bits (rWord w 0) 30 2

/-- The blocks of a state, in strand order. -/
def blkList (w : List Word) : List Nat := ([bits (rWord w 0) 20 10, bits (rWord w 0) 10 10, bits (rWord w 0) 0 10]).take (nBlk w)

def stateReserved (w : List Word) : Bool :=
  bits (rWord w 1) 24 8 = 0 && bits (rWord w 2) 16 16 = 0 && rWord w 3 = 0
    && (nBlk w ≥ 2 || bits (rWord w 0) 10 10 = 0x3FF) && (nBlk w ≥ 3 || bits (rWord w 0) 0 10 = 0x3FF)

/-- AUTO.STEP or AUTO.EXIT. -/
def endsPass (w : Word) : Bool := fPipe w = .gang && ((fOp w).toNat = 0xD2 || (fOp w).toNat = 0xD3)

/-- The code of a state: each word, and whether it is at hand. -/
def codeOk (nblk : Nat) (ws : List (Word × Bool)) : Bool :=
  match ws.reverse with
  | [] => false
  | last :: before => (!last.2 || (endsPass last.1 && fS last.1 = 0)) && before.all (fun w => !w.2 || !endsPass w.1)
      && ws.all fun w => !w.2 || strandOf w.1 ≤ nblk

def stateOk (h : ImgHdr) (code : List (Word × Bool)) (w : List Word) : Bool :=
  let bl := blkList w
  let at_ := bits (rWord w 1) 0 24
  let len := bits (rWord w 2) 0 16
  nBlk w ≠ 0 && bl.eraseDups.length = bl.length && bl.all (· < h.nb) && len ≠ 0 && at_ + len ≤ h.codeLen
    && codeOk (nBlk w) ((code.drop at_).take len)

/-! ## The set map (R52) -/

/-- A set-map entry's reserved bits, and 0x3FF in its key's unused positions (log entry 18). -/
def mapReserved (w : List Word) : Bool :=
  bits (rWord w 1) 12 20 = 0 && (bits (rWord w 0) 30 2 ≥ 1 || bits (rWord w 0) 20 10 = 0x3FF)
    && (bits (rWord w 0) 30 2 ≥ 2 || bits (rWord w 0) 10 10 = 0x3FF) && (bits (rWord w 0) 30 2 ≥ 3 || bits (rWord w 0) 0 10 = 0x3FF)

/-- The members that a key names. -/
def keyList (w : Word) : List Nat := ([bits w 20 10, bits w 10 10, bits w 0 10]).take (bits w 30 2)

def ascending : List Nat → Bool
  | x :: y :: l => x < y && ascending (y :: l)
  | _ => true

def mapOk (h : ImgHdr) (states : List (List Word)) (stKnown : Nat → Bool) (w : List Word) : Bool :=
  let k := rWord w 0
  let st := bits (rWord w 1) 0 12
  bits k 30 2 ≠ 0 && ascending (keyList k) && decide (st < h.ns)
    && (!stKnown st || lsort (blkList (states.getD st [])) = keyList k)

/-! ## The checks (R54) -/

/-- Checks 4 to 7 over the entries that are at hand, with the image as the sequencer holds it. -/
def checkBody (bs : List Byte) (h : ImgHdr) (known : Known := fun _ _ => true) : Nat × Image :=
  let blocks := (List.range h.nb).map (blockWords bs h)
  let states := (List.range h.ns).map (stateWords bs h)
  let maps := (List.range h.nmap).map (mapWords bs h)
  let code := wordsOf h.codeLen (bs.drop h.codeOff)
  let stKnown (i : Nat) : Bool := known (h.stOff + 16 * i) 16
  let rows (n : Nat) (k : Nat → Bool) (ws : List (List Word)) : List (Nat × List Word) :=
    ((List.range n).zip ws).filter fun e => k e.1
  let bl := rows h.nb (fun i => known (h.blkOff + 32 * i) 32) blocks
  let st := rows h.ns stKnown states
  let mp := rows h.nmap (fun i => known (h.mapOff + 8 * i) 8) maps
  let cd := ((List.range h.codeLen).zip code).map fun e => (e.2, known (h.codeOff + 4 * e.1) 4)
  let has (s b : Nat) : Bool := s < h.ns && (!stKnown s || (blkList (states.getD s [])).contains b)
  let blockOk (b : Nat) (w : List Word) : Bool :=
    let last := (leadList w).getLastD 0
    decide (1 ≤ leadN w ∧ leadN w ≤ 8) && decide (bits (rWord w 0) 16 10 < h.nb)
      && (leadList w).all (has · b) && (!stKnown last || blkList (states.getD last []) = [b])
  let im : Image :=
    { nb := h.nb, entry := h.entry, misstrap := h.misstrap, misslim := h.misslim
      blocks := blocks.map fun w => (bits (rWord w 0) 16 10, leadList w)
      states := states.map fun w => (blkList w, bits (rWord w 1) 0 24, bits (rWord w 2) 0 16)
      setmap := maps.map fun w => (rWord w 0, bits (rWord w 1) 0 12), code := code, total := h.total }
  (if !hdrReserved h known || !(bl.all fun e => blockReserved e.2) || !(st.all fun e => stateReserved e.2)
        || !(mp.all fun e => mapReserved e.2) then 4
    else if !(bl.all fun e => blockOk e.1 e.2) then 5
    else if !(st.all fun e => stateOk h cd e.2) then 6
    else if !(mp.all fun e => mapOk h states stKnown e.2) || !ascending (mp.map fun e => (rWord e.2 0).toNat) then 7
    else 0, im)

/-- Bytes that a context's image store holds (R53). -/
def storeUsed (x : Context) : Nat := ((sentries x.images).map fun e => e.2.total).foldl (· + ·) 0

/-- Status 8 and 9 for index word `v` and an image of `total` bytes. -/
def indexStatus (x : Context) (v : Word) (total : Nat) : Nat :=
  if v.toNat > 63 || (sget none x.images v.toNat).isSome then 8
  else if storeUsed x + total > 0x400000 then 9 else 0

/-- The status of sealing an image whose bytes are all at hand. -/
def sealStatusOf (x : Context) (v : Word) (bs : List Byte) : Nat × Image :=
  let h := imgHdr bs
  let b := checkBody bs h
  (if hdrStatus h ≠ 0 then hdrStatus h else if b.1 ≠ 0 then b.1 else indexStatus x v h.total, b.2)

/-! ## Sealing from memory (R53) -/

/-- `n` bytes upward from an address of the global window, `none` where a read fails, as it does in the pages `dead`;
or the first read that has to wait. -/
def readSpan (s : State) (a : Agent) (dead : List Nat) : Nat → Dword → Except RStop (List (Option Byte))
  | 0, _ => .ok []
  | n + 1, addr =>
    let one : Except RStop (Option Byte) := match resolve s a .globalOnly 0 addr 1 1 with
      | .bad _ => .ok none
      | .wait w => .error (.wait w)
      | .miss page acc => if dead.contains page then .ok none else .error (.miss page acc)
      | .ok p => .ok (spotBytes s a.core a.ctx none p 1).head?
    match one with
    | .error e => .error e
    | .ok b => match readSpan s a dead n (addr + 1) with
      | .error e => .error e
      | .ok bs => .ok (b :: bs)

/-- What a seal comes to. -/
inductive SealRes where
  | status (n : Nat)
  | ok (im : Image)
  | stop (e : RStop)

/-- The bytes of a partly read image that are at hand. -/
def knownIn (bs : List (Option Byte)) : Known := fun off n => ((bs.drop off).take n).all Option.isSome

/-- The first status that is not 0. -/
def lowest (l : List Nat) : Nat := (l.find? (· ≠ 0)).getD 0

/-- THE SEAL of the image at SYS.AUTO_ADDR under the index word `v`: the lowest status of the checks that the bytes
at hand decide; where none of them fails, 11 for a byte that could not be read (R54). -/
def sealAt (s : State) (a : Agent) (dead : List Nat) (v : Word) : SealRes :=
  let x := ctxD s a.ctx
  match readSpan s a dead 64 x.autoAddr with
  | .error e => .stop e
  | .ok hb =>
    let k := knownIn hb
    let h := imgHdr (hb.map fun b => b.getD 0)
    if hdrStatus h k ≠ 0 then .status (hdrStatus h k)
    else if !k 0 64 then
      .status (lowest [if hdrReserved h k then 0 else 4, indexStatus x v (if k 44 4 then h.total else 0), 11])
    else match readSpan s a dead (h.total - 64) (x.autoAddr + 64) with
      | .error e => .stop e
      | .ok rest =>
        let bs := hb ++ rest
        let b := checkBody (bs.map fun b => b.getD 0) h (knownIn bs)
        match lowest [b.1, indexStatus x v h.total, if bs.all Option.isSome then 0 else 11] with
        | 0 => .ok b.2
        | n => .status n

/-- The result of a seal, in SYS.AUTO_SEALST and the image table. -/
def sealDone (ctx : Nat) (v : Word) (r : SealRes) (s : State) : State :=
  match r with
  | .status n => updCtx s ctx fun x => { x with sealStatus := n }
  | .ok im => updCtx s ctx fun x => { x with sealStatus := 0, images := sset none x.images v.toNat (some im) }
  | .stop _ => s

/-- A gang of the context is in a region on an image. -/
def imageBusy (s : State) (ctx img : Nat) : Bool :=
  (sentries s.gangs).any fun e => e.2.ctx = ctx && (e.2.region.map Region.img) = some img

/-- The status of an unseal. -/
def unsealStatus (s : State) (ctx : Nat) (v : Word) : Nat :=
  if v.toNat > 63 || (sget none (ctxD s ctx).images v.toNat).isNone then 8
  else if imageBusy s ctx v.toNat then 10 else 0

def unsealImage (ctx : Nat) (v : Word) (s : State) : State :=
  let n := unsealStatus s ctx v
  updCtx s ctx fun x => { x with sealStatus := n, images := if n = 0 then sset none x.images v.toNat none else x.images }

/-- A walk made at once for a page, its result cached; none where it finds no usable leaf. -/
def walkPage (die ctx page acc : Nat) (s : State) : Option State :=
  match walkTable s die ctx (page * 0x10000) acc with
  | .leaf pa r w x d at_ entry big =>
    let write := acc / 2 % 2 = 1 || acc / 8 % 2 = 1
    some (cache { die := die, ctx := ctx, page := page, pa := pa, r := r, w := w, x := x, d := d || write, big := big }
      (markEntry die at_ entry acc s))
  | _ => none

/-- The seal with its pages walked as they are needed, at most so many of them; a page without a usable leaf is one
of the `dead`. -/
def sealWalk (ctx core : Nat) (v : Word) : Nat → List Nat → State → State
  | 0, _, s => s
  | n + 1, dead, s =>
    match sealAt s { core := core, ctx := ctx, gk := none, ref := none } dead v with
    | .stop (.miss page acc) => match walkPage (dieNo core) ctx page acc s with
      | some s' => sealWalk ctx core v n dead s'
      | none => sealWalk ctx core v n (page :: dead) s
    | r => sealDone ctx v r s

/-- AUTO_SEAL: an image of 4 MiB lies in at most 65 pages. -/
def execAutoSeal (ctx core : Nat) (v : Word) (s : State) : Out := .next (sealWalk ctx core v 67 [] s)

/-- AUTO_UNSEAL. -/
def execAutoUnseal (ctx : Nat) (v : Word) (s : State) : Out := .next (unsealImage ctx v s)

end Sys2Proof.Machine
end

