-- ==== Sys2Proof/Machine/Regions.lean ====
section
/-!
DEFINITION. Designating and releasing versioned regions (R181–R184), and the directory words (R194).
-/
namespace Sys2Proof.Machine

/-! ## Pages of a region -/

/-- The pages that a span of addresses covers, each with its physical base where a write may reach it. -/
def spanPages (s : State) (die ctx base size : Nat) : List (Nat × Option Nat) :=
  (List.range ((base + size - 1) / 0x10000 + 1 - base / 0x10000)).map fun i =>
    let page := base / 0x10000 + i
    (page, match walkTable s die ctx (page * 0x10000) 2 with
      | .leaf pa _ _ _ _ _ _ _ => some pa
      | _ => none)

/-- Writes to a span that are performed but not yet in every die's view (R183). -/
def spanBusy (s : State) (die ctx base size : Nat) : Bool :=
  let pas := (spanPages s die ctx base size).filterMap Prod.snd
  let hit (pa : Nat) : Bool := pas.any fun p => p / 0x10000 = pa / 0x10000
  s.sb.any (fun e => e.bytes.any fun b => hit b.1) || s.pubs.any (fun w => w.bytes.any fun b => hit b.1)
    || s.homeq.any (fun h => hit h.pa)
    || s.gutter.any fun e => e.ctx = ctx && decide (base ≤ e.addr.toNat ∧ e.addr.toNat < base + size)

/-! ## Designation (R181, R183, R184) -/

/-- Line entries that designated regions hold, of every context. -/
def linesReserved (s : State) : Nat :=
  ((sentries s.ctxs).flatMap fun c => (sentries c.2.regions).map fun r => r.2.size / 64).foldl (· + ·) 0

def overlapsRegion (x : Context) (base size : Nat) : Bool :=
  (sentries x.regions).any fun r => overlaps r.2.base r.2.size base size

/-- The status of a designation at index `idx`, the lowest that applies. -/
def designateStatus (s : State) (die ctx idx base size : Nat) : Nat :=
  let x := ctxD s ctx
  if (sget none x.regions idx).isSome then 1
  else if size = 0 || size > 0xFFFFFFC0 || base % 64 ≠ 0 || size % 64 ≠ 0 || base + size > 0x100000000000000 then 2
  else if overlapsRegion x base size then 3
  else if (spanPages s die ctx base size).any fun p => p.2.isNone then 4
  else if linesReserved s + size / 64 > Config.directoryLines then 6
  else 0

/-- Version 0 of a region's lines: what its pages hold, by virtual address, where it is not zero. -/
def zeroCells (s : State) (die ctx base size : Nat) : List Host.Cell :=
  (spanPages s die ctx base size).flatMap fun p => match p.2 with
    | none => []
    | some pa =>
      let loc := viewLoc die pa
      let hidden := s.enc.filter fun e => e.2 ≠ dataKey s ctx && readByte s e.1 = 0
      ssets 0 [] ((s.mem.map Prod.fst ++ hidden.map Prod.fst).filterMap fun k =>
        let va := p.1 * 0x10000 + (k - loc)
        if loc ≤ k ∧ k < loc + 0x10000 ∧ base ≤ va ∧ va < base + size then some (va, viewByte s (dataKey s ctx) k) else none)

/-- The uncorrectable words of version 0: those of the region's pages (R319). -/
def zeroBad (s : State) (die ctx base size : Nat) : List Nat :=
  (spanPages s die ctx base size).flatMap fun p => match p.2 with
    | none => []
    | some pa =>
      let loc := viewLoc die pa
      (s.bad.filter fun e => e.2 = 2).filterMap fun e =>
        let va := p.1 * 0x10000 + (e.1 * 4 - loc)
        if loc ≤ e.1 * 4 ∧ e.1 * 4 < loc + 0x10000 ∧ base ≤ va ∧ va < base + size then some (va / 4) else none

/-- The region enters the table; its lines start without versions. -/
def designate (die ctx idx base size wait : Nat) (s : State) : State :=
  updCtx s ctx fun x => { x with
    regions := sset none x.regions idx (some { base := base, size := size, wait := wait
                                               zero := zeroCells s die ctx base size, bad := zeroBad s die ctx base size })
    lines := x.lines.filter fun e => !decide (base / 64 ≤ e.1 ∧ e.1 < (base + size) / 64) }

/-! ## Release (R183) -/

/-- A load waits on a line of a region, or a WAITING node has an operand there. -/
def regionWaited (s : State) (ctx : Nat) (r : VRegion) : Bool :=
  let inR (va : Nat) : Bool := decide (r.base ≤ va ∧ va < r.base + r.size)
  (waits s ctx).any (fun e => match e.2.on with
    | .version rows _ => rows.any fun x => inR x.2.1
    | _ => false)
    || (sentries s.pool).any fun n => n.2.ctx = ctx && decide (n.2.phase = .waiting) && n.2.opds.any fun o => inR (o.1 * 64)

def regionStaged (x : Context) (r : VRegion) : Bool :=
  x.lines.any fun e => decide (r.base / 64 ≤ e.1 ∧ e.1 < (r.base + r.size) / 64) && e.2.staged.isSome

/-- The status of a release. -/
def releaseStatus (s : State) (ctx idx : Nat) (force : Bool) : Nat :=
  match sget none (ctxD s ctx).regions idx with
  | none => 1
  | some r => if regionWaited s ctx r || regionStaged (ctxD s ctx) r || (!force && r.pins ≠ []) then 5 else 0

/-- The places of a line's uncorrectable words in a die view, from the line's physical address. -/
def badPlaces (die pa : Nat) (r : VRegion) (l : Line) (line : Nat) : List Nat :=
  ((List.range 16).filter fun i => lineBad r l (line * 64 + 4 * i) l.latest).map fun i => viewLoc die (pa + 4 * i)

/-- Each line's latest version is written into the region's memory; versions, directory entries, pins and
the index are free. -/
def release (die ctx idx : Nat) (s : State) : State :=
  match sget none (ctxD s ctx).regions idx with
  | none => s
  | some r =>
    let mine (k : Nat) : Bool := decide (r.base / 64 ≤ k ∧ k < (r.base + r.size) / 64)
    let s' := ((ctxD s ctx).lines.filter fun e => mine e.1 && e.2.vers ≠ []).foldl (fun s' e =>
      match walkNow die ctx (e.1 * 64) 2 s' with
      | .ok (pa, s'') => markBad (originate die (placed pa (versionBytes r e.2 e.1 e.2.latest)) { ctx := ctx } s'')
          (badPlaces die pa r e.2 e.1)
      | .error _ => s') s
    updCtx s' ctx fun x => { x with regions := sset none x.regions idx none, lines := x.lines.filter fun e => !mine e.1 }

/-! ## SYS.VREG_CMD (R182) -/

/-- What a command comes to: a status, or a designation that must wait for writes to its lines. -/
inductive VregRes where
  | done (status : Nat) (s : State)
  | wait

/-- The command `v` on the context's region registers. -/
def vregCommand (die ctx : Nat) (v : Word) (s : State) : VregRes :=
  let x := ctxD s ctx
  let idx := bits v 0 6
  let force := v.getLsbD 6
  let st (n : Nat) (s : State) : VregRes := .done n (updCtx s ctx fun x => { x with vregStatus := n })
  let reserved := bits v 8 24 ≠ 0 || (force && !v.getLsbD 7)
  if v.getLsbD 7 then
    let n := releaseStatus s ctx idx force
    if n ≠ 0 then st n s else if reserved then st 7 s else st 0 (release die ctx idx s)
  else
    let base := x.vregBase.toNat
    let size := x.vregSize.toNat
    let n := designateStatus s die ctx idx base size
    if n ≠ 0 then st n s else if reserved then st 7 s
    else if spanBusy s die ctx base size then .wait
    else st 0 (designate die ctx idx base size x.vregWait s)

def vregEvent (ctx core : Nat) (v : Word) (s : State) : State :=
  match vregCommand (dieNo core) ctx v s with
  | .done _ s' => s'
  | .wait => s

/-- VREG_DESIGNATE and VREG_RELEASE: a write of SYS.VREG_CMD with OP 0, and with OP 1. -/
def execVregDesignate (ctx core : Nat) (v : Word) (s : State) : Out :=
  .next (if v.getLsbD 7 then s else vregEvent ctx core v s)
def execVregRelease (ctx core : Nat) (v : Word) (s : State) : Out :=
  .next (if v.getLsbD 7 then vregEvent ctx core v s else s)

/-! ## The directory (R194) -/

/-- PROT: the slots that serve a pinned number. -/
def protBits (r : VRegion) (l : Line) : Nat :=
  let slot (p : Nat) : Option Nat := ((List.range l.vers.length).filter fun i => decide (((l.vers[i]?.map Version.num).getD 0) ≤ p)).getLast?
  ((List.range 8).filter fun i => r.pins.any fun p => slot p.1 = some i).foldl (fun a i => a + 2 ^ i) 0

/-- Reads that wait on a line, and operands of WAITING nodes whose version it does not have yet. -/
def lineWaiters (s : State) (ctx line : Nat) : Nat :=
  min 255 (((waits s ctx).filter fun e => match e.2.on with
      | .version rows _ => rows.any fun x => x.2.1 / 64 = line
      | _ => false).length
    + ((sentries s.pool).flatMap fun n => if n.2.ctx = ctx ∧ n.2.phase = .waiting then
        n.2.opds.filter fun o => decide (o.1 ≤ line ∧ line ≤ o.2.1 ∧ (lineOf s ctx (line * 64)).latest < o.2.2) else []).length)

/-- Word `i` of the directory entry of a line. -/
def dirWord (s : State) (ctx va i : Nat) : Word :=
  match regionAt s ctx va with
  | none => 0
  | some (k, r) =>
    let l := lineOf s ctx va
    if i = 0 then w32 ((if l.latest ≠ 0 then 0x80000000 else 0) + (if l.staged.isSome then 0x40000000 else 0)
      + l.vers.length * 0x1000000 + k * 0x10000 + protBits r l * 0x100 + lineWaiters s ctx (va / 64))
    else if i = 1 then w32 l.latest
    else if i = 2 then w32 (oldOf r l)
    else if i = 3 then w32 ((l.staged.map Prod.fst).getD 0)
    else if i < 12 then w32 ((l.vers[i - 4]?.map Version.num).getD 0)
    else if i < 20 then w32 ((l.vers[i - 12]?.map Version.heap).getD 0)
    else 0

/-- The index moves on after a read of SYS.VDIR_DATA. -/
def nextDir (ctx : Nat) (s : State) : State := updCtx s ctx fun x => { x with vdirIdx := (x.vdirIdx + 1) % 24 }

/-- VDIR_DATA_READ. -/
def execVdirDataRead (ctx : Nat) (s : State) : Out := .next (nextDir ctx s)

end Sys2Proof.Machine
end

