-- ==== Sys2Proof/Machine/Sys.lean ====
section
/-!
DEFINITION. The special registers (R134 and the register maps of every chapter): SYSRD, SYSWR, and the
writes that act at once (R132, R320).
-/
namespace Sys2Proof.Machine

/-! ## Assignment and access -/

/-- Who may write a register. -/
inductive Writer where
  | nobody | any | priv | mgmt
deriving DecidableEq, Repr

/-- The writers of an assigned number; none for an unassigned one. -/
def sysWriter (n : Nat) : Option Writer :=
  if n ≤ 0x003 then some .nobody
  else if 0x008 ≤ n ∧ n ≤ 0x00F then some .any
  else if 0x010 ≤ n ∧ n ≤ 0x012 then some .priv
  else if 0x013 ≤ n ∧ n ≤ 0x015 then some .nobody
  else if n = 0x018 ∨ n = 0x019 then some .any
  else if n = 0x020 ∨ n = 0x021 then some .nobody
  else if 0x022 ≤ n ∧ n ≤ 0x026 then some .priv
  else if 0x027 ≤ n ∧ n ≤ 0x02B then some .nobody
  else if n = 0x02C then some .priv
  else if 0x02D ≤ n ∧ n ≤ 0x031 then some .nobody
  else if n = 0x032 ∨ n = 0x034 then some .priv
  else if n = 0x033 ∨ n = 0x035 then some .nobody
  else if 0x100 ≤ n ∧ n ≤ 0x102 then some .nobody
  else if 0x104 ≤ n ∧ n ≤ 0x106 then some .priv
  else if n = 0x108 ∨ n = 0x10A ∨ n = 0x10C then some .nobody
  else if n = 0x109 then some .priv
  else if 0x110 ≤ n ∧ n ≤ 0x114 then some .priv
  else if 0x115 ≤ n ∧ n ≤ 0x117 then some .nobody
  else if 0x118 ≤ n ∧ n ≤ 0x11A then some .priv
  else if n = 0x11B then some .nobody
  else if 0x300 ≤ n ∧ n ≤ 0x305 then some .nobody
  else if 0x308 ≤ n ∧ n ≤ 0x30A then some .priv
  else if 0x30C ≤ n ∧ n ≤ 0x30F then some .priv
  else if 0x320 ≤ n ∧ n ≤ 0x322 then some .nobody
  else if 0x324 ≤ n ∧ n ≤ 0x326 then some .mgmt
  else if n = 0x327 ∨ n = 0x330 ∨ n = 0x331 then some .nobody
  else none

/-- Registers that only privileged code may read (R53, R194). -/
def sysReadPriv (n : Nat) : Bool := decide (0x023 ≤ n ∧ n ≤ 0x027) || decide (0x118 ≤ n ∧ n ≤ 0x11B)

/-- The reserved fields of a writable register that a nonzero write may not name. HINTED of SYS.ISSUE_MODE is
read-only and no reserved field: a write of it is ignored (DESIGN CHOICE, log entry 103). -/
def sysReserved (n : Nat) : Word :=
  match n with
  | 0x011 => 0xFFFFFFFC
  | 0x018 => 0xFFFFFFFC
  | 0x019 => 0xFFFFFFE0
  | 0x02C => 0xFFFE0000
  | 0x034 => 0x0000FFFC
  | 0x104 => 0x0000FFFF
  | 0x105 => 0xFF000000
  | 0x106 => 0xFFFE0000
  | 0x109 => 0xFFC0FF80
  | 0x110 => 0x0000003F
  | 0x111 => 0xFF000000
  | 0x112 => 0x0000003F
  | 0x113 => 0xFFF00000
  | 0x118 => 0x0000003F
  | 0x119 => 0xFF000000
  | 0x309 => 0xFFFFFFFE
  | 0x30D => 0x7FFFFF00
  | 0x30E => 0x00000FFF
  | 0x30F => 0xFFF00000
  | 0x324 => 0x0000003F
  | 0x325 => 0xFF000000
  | 0x326 => 0xFFFFFFF0
  | _ => 0

/-- The values that a register accepts; any other raises cause 0x05. -/
def sysValueOk (s : State) (n : Nat) (v : Word) : Bool :=
  match n with
  | 0x010 => decide (16 ≤ v.toNat ∧ v.toNat ≤ 4095)
  | 0x032 => bits v 0 16 ≠ 0
  | 0x106 => v.toNat % 256 = 0 && v.toNat ≤ 0x10000
  | 0x109 => bits v 16 6 + bits v 0 7 ≤ 64
  | 0x11A => v.toNat ≤ 23
  | 0x326 => s.ctl.secBusy.isNone && decide (1 ≤ bits v 0 4 ∧ bits v 0 4 ≤ 3)
  | _ => true

/-! ## Reading -/

/-- Bit `n` when a condition holds. -/
def bitIf (b : Bool) (n : Nat) : Nat := if b then 2 ^ n else 0

/-- The lanes of a list, as a mask. -/
def laneMask (l : List Nat) : Nat := (l.map fun x => 2 ^ x).foldl (· ||| ·) 0

/-- The fault record that a unit reads (R312): an instance's own, a group's unwind record, or none. -/
def recordOf (s : State) (u : UView) : Option Record :=
  match u.kind with
  | .inst id => (inst? s id).map Inst.rcd
  | .grp gid => ((u.gk.bind (gang? s)).bind fun g => group? g gid).bind Group.unwind

/-- SYS.FLT_INFO. -/
def faultInfo (r : Record) : Nat :=
  bitIf r.frag 31 + bitIf r.defer 30 + bitIf r.notice 29 + bitIf r.detached 28 + bitIf r.nest 27
    + r.cdepth % 8 * 2 ^ 24 + r.cause.source % 16 * 2 ^ 20 + r.half % 16 * 2 ^ 16 + bitIf r.scode 15 + r.cause.code % 64

/-- Word `i` of the fault record, at number 0x300 + `i`. -/
def faultWord (r : Record) (i : Nat) : Word :=
  match i with
  | 0 => w32 (faultInfo r)
  | 1 => r.cause.d0
  | 2 => r.cause.d1
  | 3 => r.cause.d2
  | 4 => r.cause.d3
  | _ => if r.detached then 0 else w32 (laneMask r.lanes)

/-- SYS.AUTO_STAT (R48). -/
def autoStat (g : Gang) : Word :=
  match g.region with
  | none => 0
  | some r => w32 (2 ^ 31 + bitIf (g.frags ≠ []) 30 + r.img % 64 * 2 ^ 24 + r.passNo % 64 * 2 ^ 18 + min r.missrun 0xFFFF)

/-- The issue mode of a unit (R70, R354): an instance's own. -/
def modeHinted (s : State) (u : UView) : Bool :=
  (match u.kind with
    | .inst id => ((inst? s id).map Inst.hinted).getD false
    | .grp _ => ((u.gk.bind (gang? s)).map Gang.hinted).getD false) && !(ctxD s u.ctx).force

/-- The floating-point registers of a unit: its gang's, or those of an instance without one (R147). -/
def fpCtlReg (s : State) (u : UView) : Word :=
  match u.gk.bind (gang? s), u.kind with
  | some g, _ => g.fpCtl
  | none, .inst id => ((inst? s id).map Inst.fpCtl).getD 0
  | none, _ => 0

def fpStatReg (s : State) (u : UView) : Word :=
  match u.gk.bind (gang? s), u.kind with
  | some g, _ => g.fpStat
  | none, .inst id => ((inst? s id).map Inst.fpStat).getD 0
  | none, _ => 0

/-- SYS.POOL_STAT (R302). -/
def poolStat (s : State) (ctx : Nat) : Word :=
  let l := sentries s.pool
  w32 ((l.filter fun e => e.2.ctx = ctx).length * 0x10000 + (Config.poolEntries - l.length))

/-- SYS.PURLIN_PHASE (R176). -/
def purlinPhase (s : State) (die : Nat) : Word :=
  w32 (bitIf (purlinGroup s die).2 20 + (purlinGroup s die).1 * 0x10000 + purlinPos s die)

/-- SYS.EVICT_STAT (R333). -/
def evictStat (s : State) (u : UView) : Word :=
  let out := ((evictedOn s u.core).filter fun e => e.2.ctx = u.ctx).length
  w32 (out % 256 * 0x10000 + min 0xFFFF (((u.gk.bind (gang? s)).map Gang.evictions).getD 0))

/-- SYS.POWER (R369), its measurements WATTS and AMPS being free values (log entry 47), and SYS.CAPACITY
(R372). -/
def powerWord (s : State) : Word :=
  w32 (s.ctl.opp % 4 * 2 ^ 30 + bitIf (s.cores.any fun c => c.2.undervolt) 29 + bitIf (s.cores.any fun c => c.2.pf) 28
    + (Config.freeWord (s.fresh * 64)).toNat % 2 ^ 24)

def capacityWord (s : State) : Word :=
  let bad := (s.cores.filter fun c => c.2.fenced).map Prod.fst
  w32 ((Config.cores - bad.length) * 0x10000 + (128 - (lsort (bad.map (· / 8))).length) * 0x100)

/-- SYS.LIFECYCLE (R334). -/
def lifecycleWord (s : State) : Word := w32 (bitIf s.ctl.dbgu 8 + s.ctl.lifecycle.toNat)

/-- SYS.SEC_STAT (R336). -/
def secStat (s : State) : Word :=
  w32 (bitIf s.ctl.secBusy.isSome 31 + s.ctl.secOp % 16 * 0x10000 + s.ctl.secStatus % 256)

/-- What the issuing gang gives a register; 0 where there is none. -/
def ofGang (s : State) (u : UView) (f : Gang → Word) : Word := ((u.gk.bind (gang? s)).map f).getD 0

/-- The node of the issuing gang. -/
def nodeOf (s : State) (g : Gang) : Option Node := sget none s.pool g.node

/-- Numbers 0x000 to 0x0FF. -/
def sysLow (s : State) (u : UView) (n : Nat) : Word :=
  match n with
  | 0x000 => Config.stepping
  | 0x001 => w32 (dieNo u.core)
  | 0x002 => w32 u.core
  | 0x003 => w32 (clusterNo u.core)
  | 0x010 => w32 (ccOf s u.ctx u.core).ageLimit
  | 0x011 => w32 (bitIf (modeHinted s u) 1 + bitIf (ctxD s u.ctx).force 0)
  | 0x012 => (ctxD s u.ctx).waitBound
  | 0x013 => ofGang s u Gang.stepCount
  | 0x014 => ofGang s u Gang.idemCount
  | 0x015 => w32 (contOf s u).length
  | 0x018 => fpCtlReg s u
  | 0x019 => fpStatReg s u
  | 0x020 => ofGang s u fun g => w32 ((g.region.map Region.state).getD 0)
  | 0x021 => ofGang s u autoStat
  | 0x022 => (ccOf s u.ctx u.core).autoMiss
  | 0x023 => lo32 (ctxD s u.ctx).autoAddr
  | 0x024 => hi32 (ctxD s u.ctx).autoAddr
  | 0x027 => w32 (ctxD s u.ctx).sealStatus
  | 0x028 => ofGang s u fun g => g.shp.getD 0 0
  | 0x029 => ofGang s u fun g => g.shp.getD 1 0
  | 0x02A => ofGang s u fun g => g.shp.getD 2 0
  | 0x02B => ofGang s u fun g => g.shp.getD 3 0
  | 0x02C => w32 (bitIf (dieOf s (dieNo u.core)).spread 16 + (dieOf s (dieNo u.core)).stagger % 0x10000)
  | 0x02D => ofGang s u fun g => ((nodeOf s g).map Node.id).getD 0
  | 0x02E => ofGang s u fun g => w32 (laneMask g.pad)
  | 0x02F => ofGang s u fun g => match g.bucket with
      | some b => w32 (2 ^ 31 + b % 16)
      | none => 0
  | 0x030 => poolStat s u.ctx
  | 0x031 => ofGang s u fun g => w32 (g.prio % 4)
  | 0x032 => w32 ((ctxD s u.ctx).readmit * 0x10000 + (ctxD s u.ctx).budget)
  | 0x033 => evictStat s u
  | 0x034 => w32 ((ctxD s u.ctx).qBound * 0x10000)
  | 0x035 => w32 ((ctxD s u.ctx).qState % 4 * 2 ^ 30 + min 0xFFFF (quiesceLag s u.ctx))
  | n => if 0x008 ≤ n ∧ n ≤ 0x00F then qreg s u (n - 8) else 0

/-- The line that the directory registers name. -/
def dirLine (x : Context) : Nat := x.vdirAddr.toNat

/-- Numbers 0x100 to 0x1FF. -/
def sysMem (s : State) (u : UView) (n : Nat) : Word :=
  let x := ctxD s u.ctx
  match n with
  | 0x100 => w32 (s.ctl.retention % 0x10000)
  | 0x101 => w32 (fadeTick s)
  | 0x102 => w32 (tagsFree s u.ctx u.core * 0x800000 + spFree s u.core)
  | 0x104 => lo32 x.stackBase
  | 0x105 => hi32 x.stackBase
  | 0x106 => w32 x.stackSize
  | 0x108 => purlinPhase s (dieNo u.core)
  | 0x109 => w32 (x.purlinBase * 0x10000 + x.purlinSize)
  | 0x10A => x.eaves.setWidth 32
  | 0x10C => w32 (gutterUse s u.core)
  | 0x110 => lo32 x.vregBase
  | 0x111 => hi32 x.vregBase
  | 0x112 => x.vregSize
  | 0x113 => w32 x.vregWait
  | 0x115 => w32 x.vregStatus
  | 0x116 => w32 x.vheap
  | 0x117 => w32 (heapFree x)
  | 0x118 => lo32 x.vdirAddr
  | 0x119 => hi32 x.vdirAddr
  | 0x11A => w32 x.vdirIdx
  | 0x11B => dirWord s u.ctx (dirLine x) x.vdirIdx
  | _ => 0

/-- Numbers 0x300 to 0x3FF. -/
def sysRel (s : State) (u : UView) (n : Nat) : Word :=
  let x := ctxD s u.ctx
  match n with
  | 0x308 => x.trapEntry
  | 0x309 => w32 (bitIf x.trapValid 0)
  | 0x30A => w32 x.runBound
  | 0x30C => x.tlbInvLo
  | 0x30E => lo32 x.ptRoot
  | 0x30F => hi32 x.ptRoot
  | 0x320 => lo32 Config.deviceId
  | 0x321 => hi32 Config.deviceId
  | 0x322 => lifecycleWord s
  | 0x324 => lo32 (ctxD s 1).secAddr
  | 0x325 => hi32 (ctxD s 1).secAddr
  | 0x327 => secStat s
  | 0x330 => powerWord s
  | 0x331 => capacityWord s
  | n => if 0x300 ≤ n ∧ n ≤ 0x305 then ((recordOf s u).map fun r => faultWord r (n - 0x300)).getD 0 else 0

/-- THE VALUE OF A SPECIAL REGISTER; a write-only register or field gives 0. -/
def sysRead (s : State) (u : UView) (n : Nat) : Word :=
  if n < 0x100 then sysLow s u n else if n < 0x300 then sysMem s u n else sysRel s u n

def execSysrd (d : BitVec 6) (n : BitVec 12) (x : BitVec 2) (w : Bool) (h : BitVec 2) (s : State) : Out :=
  issue (.sysrd d n x w h)
    { pipe := .gang, strand := x, dst := some d, w := w, limits := (sysWriter n.toNat).isSome }
    (fun u acts s =>
      if sysReadPriv n.toNat && !u.priv then opFail (.sysrd d n x w h) 0x04 1 acts u s
      else
        let v := sysRead s u n.toNat
        let s := if n.toNat = 0x11B then nextDir u.ctx s else s
        advance (gangResult d w v u s) u) s

/-! ## Writes that act at once -/

/-- The next state of an outcome. -/
def nextOr (s : State) : Out → State
  | .next t => t
  | _ => s

/-- Units and copy processors of a context that wait. -/
def overdue (s : State) (ctx : Nat) (bound : WaitOn → Nat) : List UnitRef :=
  ((waits s ctx).filter fun e => bound e.2.on ≠ 0 && decide (e.2.since + bound e.2.on < s.usec)).map Prod.fst

/-- The bound that SYS.WAIT_BOUND gives a wait; 0 for none. A copy processor's wait for a tile at its
port is bounded, a gang's for the engine is not. -/
def waitBoundOf (x : Context) : WaitOn → Nat
  | .bar _ _ => barBound x
  | .cohort _ => barBound x
  | .tl _ _ => tlBound x
  | _ => 0

/-- Waits of the context that have lasted longer than the bounds end with their causes (R132). -/
def endOverdue (ctx : Nat) (s : State) : State :=
  let s := (overdue s ctx (waitBoundOf (ctxD s ctx))).foldl (fun s ref =>
    let s := nextOr s (execCohJoinTimeout ref s)
    let s := nextOr s (execBarWaitBoundExpire ref s)
    nextOr s (execTlWaitBoundExpire ref s)) s
  let late (b since : Nat) : Bool := b ≠ 0 && decide (since + b < s.usec)
  let x := ctxD s ctx
  let xps := s.cores.flatMap fun c => [(c.1, 0, c.2.xp0), (c.1, 1, c.2.xp1)]
  let s := xps.foldl (fun s e => match e.2.2.wait with
    | some ⟨.bar _ _, t⟩ => if e.2.2.ctx = ctx && late (barBound x) t then nextOr s (execCopyWaitBoundExpire e.1 e.2.1 s) else s
    | some ⟨.matrix, t⟩ => if e.2.2.ctx = ctx && late (tlBound x) t then nextOr s (execCopyWaitBoundExpire e.1 e.2.1 s) else s
    | _ => s) s
  s.cores.foldl (fun s c => match c.2.matrix.held with
    | some t => if c.2.matrix.owner = some ctx && late (tlBound x) t then nextOr s (execDrainPortBoundExpire c.1 s) else s
    | none => s) s

/-- A write of SYS.WAIT_BOUND. -/
def writeWaitBound (ctx : Nat) (v : Word) (s : State) : State :=
  endOverdue ctx (updCtx s ctx fun x => { x with waitBound := v })

/-- WAIT_BOUND_WRITE. -/
def execWaitBoundWrite (ctx : Nat) (v : Word) (s : State) : Out := .next (writeWaitBound ctx v s)

/-- A write of SYS.RUN_BOUND: gangs and instances whose run has lasted longer stop (R320). -/
def writeRunBound (ctx : Nat) (v : Word) (s : State) : State :=
  let s := updCtx s ctx fun x => { x with runBound := v.toNat }
  let late (since : Nat) : Bool := v ≠ 0 && decide (since + v.toNat * 1000 < s.usec)
  let gs := (sentries s.gangs).filter fun e => e.2.ctx = ctx && late e.2.since
  let is := (sentries s.insts).filter fun e => e.2.ctx = ctx && late e.2.since
  let s := gs.foldl (fun s e => nextOr s (execRunBoundWatchdog (.grp e.1 0) s)) s
  is.foldl (fun s e => nextOr s (execRunBoundWatchdog (.inst e.1) s)) s

/-- RUN_BOUND_WRITE. -/
def execRunBoundWrite (ctx : Nat) (v : Word) (s : State) : Out := .next (writeRunBound ctx v s)

/-! ## Writing -/

/-- SYS.AGE_LIMIT of a context on every core (R24). -/
def writeAgeLimit (ctx : Nat) (v : Word) (s : State) : State :=
  (List.range Config.cores).foldl (fun s c => updCc s ctx c fun x => { x with ageLimit := v.toNat }) s

/-- A security command starts (R336): the buffer's address is taken now, and the node that has to wait for it. -/
def startSec (op core ctx : Nat) (node : Option Nat) (s : State) : State :=
  { s with ctl := { s.ctl with
      secBusy := some { op := op, core := core, ctx := ctx, addr := (ctxD s 1).secAddr, node := node }
      secOp := op, secStatus := 0 } }

/-- SYS.QUIESCE_CTL: REL acts before REQ. -/
def writeQuiesce (ctx : Nat) (v : Word) (s : State) : State :=
  let s := updCtx s ctx fun x => { x with qBound := bits v 16 16 }
  let s := if v.getLsbD 1 then endQuiesce ctx s else s
  if v.getLsbD 0 then startQuiesce ctx s else s

/-- Half of a 64-bit register replaced. -/
def setHalf (high : Bool) (v : Word) (x : Dword) : Dword := if high then pair (lo32 x) v else pair v (hi32 x)

/-- A change of the gang's floating-point registers, or of those of an instance without one. -/
def onFp (u : UView) (fg : Gang → Gang) (fi : Inst → Inst) (s : State) : State :=
  match u.gk, u.kind with
  | some gk, _ => updGang s gk fg
  | none, .inst id => updInst s id fi
  | none, _ => s

/-- The object of a context whose code holds a word address was made for this stepping (R354). -/
def codeHinted (x : Context) (at_ : Nat) : Bool :=
  (x.objs.find? fun o => decide (o.code / 4 ≤ at_ ∧ at_ < o.code / 4 + o.codeLen)).any fun o => o.stamp = Config.stepping

/-- THE EFFECT OF A WRITE that completes at once. -/
def sysStore (u : UView) (n : Nat) (v : Word) (s : State) : State :=
  let c (f : Context → Context) : State := updCtx s u.ctx f
  match n with
  | 0x010 => writeAgeLimit u.ctx v s
  | 0x011 => c fun x => { x with force := v.getLsbD 0 }
  | 0x012 => writeWaitBound u.ctx v s
  | 0x018 => onFp u (fun g => { g with fpCtl := v }) (fun i => { i with fpCtl := v }) s
  | 0x019 => onFp u (fun g => { g with fpStat := g.fpStat &&& ~~~v }) (fun i => { i with fpStat := i.fpStat &&& ~~~v }) s
  | 0x022 => updCc s u.ctx u.core fun x => { x with autoMiss := v }
  | 0x023 => c fun x => { x with autoAddr := setHalf false v x.autoAddr }
  | 0x024 => c fun x => { x with autoAddr := setHalf true v x.autoAddr }
  | 0x026 => unsealImage u.ctx v s
  | 0x02C => updDie s (dieNo u.core) fun x => { x with spread := v.getLsbD 16, stagger := bits v 0 16 }
  | 0x032 => c fun x => { x with readmit := bits v 16 16, budget := bits v 0 16 }
  | 0x034 => writeQuiesce u.ctx v s
  | 0x104 => c fun x => { x with stackBase := setHalf false v x.stackBase }
  | 0x105 => c fun x => { x with stackBase := setHalf true v x.stackBase }
  | 0x106 => c fun x => { x with stackSize := v.toNat }
  | 0x109 => c fun x => { x with purlinBase := bits v 16 6, purlinSize := bits v 0 7 }
  | 0x110 => c fun x => { x with vregBase := setHalf false v x.vregBase }
  | 0x111 => c fun x => { x with vregBase := setHalf true v x.vregBase }
  | 0x112 => c fun x => { x with vregSize := v }
  | 0x113 => c fun x => { x with vregWait := v.toNat }
  | 0x118 => c fun x => { x with vdirAddr := setHalf false v x.vdirAddr }
  | 0x119 => c fun x => { x with vdirAddr := setHalf true v x.vdirAddr }
  | 0x11A => c fun x => { x with vdirIdx := v.toNat }
  | 0x308 => c fun x => { x with trapEntry := v, handlerHinted := codeHinted x v.toNat }
  | 0x309 => c fun x => { x with trapValid := v.getLsbD 0 }
  | 0x30A => writeRunBound u.ctx v s
  | 0x30C => c fun x => { x with tlbInvLo := v }
  | 0x324 => updCtx s 1 fun x => { x with secAddr := setHalf false v x.secAddr }
  | 0x325 => updCtx s 1 fun x => { x with secAddr := setHalf true v x.secAddr }
  | 0x326 => startSec (bits v 0 4) u.core u.ctx ((u.gk.bind (gang? s)).map Gang.node) s
  | n => if 0x008 ≤ n ∧ n ≤ 0x00F then setQreg s u (n - 8) (if u.legacy then v &&& 0xFFFF else v) else s

/-- The unit waits at SYSWR for an invalidation that it has started. -/
def waitsInv (s : State) (u : UView) : Bool := (waitOf s u).map Wait.on = some .tlbInv

/-- SYS.TLB_INV_HI and SYS.PT_ROOT (R321, R324): the invalidation starts once, and the word completes when
no walk is left that had read a matched entry. -/
def sysInvalidate (u : UView) (start : State → State) (s : State) : State :=
  let s' := if waitsInv s u then s else start s
  if invBusy s' u.ctx then hold s' u .tlbInv else advance s' u

/-- The page that a unit waited for and that has been refused. -/
def refusedPage (s : State) (u : UView) : Option Nat :=
  match waitOf s u with
  | some ⟨.refused page _, _⟩ => some page
  | _ => none

/-- SYS.AUTO_SEAL (R53). Once a page has been refused the rest of the image is read without waiting, since the seal's
status is known not to be 0. -/
def sysSeal (u : UView) (v : Word) (s : State) : State :=
  match refusedPage s u with
  | some page => advance (sealWalk u.ctx u.core v 67 [page] s) u
  | none => match sealAt s (agentOf u) [] v with
    | .stop (.miss page acc) => hold (requestWalk u.core u.ctx page acc (.unit u.ref) s) u (.page page)
    | .stop (.wait w) => hold s u w
    | r => advance (sealDone u.ctx v r s) u

/-- SYS.VREG_CMD (R182, R183): a designation waits until writes to its lines have reached memory. -/
def sysRegion (u : UView) (v : Word) (s : State) : State :=
  match vregCommand (dieNo u.core) u.ctx v s with
  | .done _ s' => advance s' u
  | .wait => hold s u .flush

/-- A write that every check lets through. -/
def sysWrite (u : UView) (n : Nat) (v : Word) (s : State) : State :=
  match n with
  | 0x025 => sysSeal u v s
  | 0x114 => sysRegion u v s
  | 0x30D => sysInvalidate u (invalidate u.ctx (if v.getLsbD 31 then none else some (invPage (ctxD s u.ctx) v))) s
  | 0x30E => sysInvalidate u (setRoot u.ctx false v) s
  | 0x30F => sysInvalidate u (setRoot u.ctx true v) s
  | 0x326 => if fenced s (agentOf u) 16 then hold s u .drain else sysStore u n v (advance s u)
  | n => sysStore u n v (advance s u)

/-- The cause of a write that a register's map forbids. -/
def sysRefuse (s : State) (u : UView) (n : Nat) (v : Word) : Option Nat :=
  let allowed := match sysWriter n with
    | some .any => true
    | some .priv => u.priv
    | some .mgmt => decide (u.ctx = 1)
    | _ => false
  if !allowed then some 0x04 else if v &&& sysReserved n ≠ 0 then some 0x03
  else if !sysValueOk s n v then some 0x05 else none

def execSyswr (d : BitVec 6) (n : BitVec 12) (x h : BitVec 2) (s : State) : Out :=
  issue (.syswr d n x h)
    { pipe := .gang, strand := x, srcs := [d], limits := (sysWriter n.toNat).isSome }
    (fun u acts s =>
      let v := gsrc s u d
      match sysRefuse s u n.toNat v with
      | some code => opFail (.syswr d n x h) code 1 acts u s
      | none => sysWrite u n.toNat v s) s

/-! ## Security commands start (R336) -/

/-- The controller has accepted a command: nothing runs, and the writer is of the management context. -/
def secEvent (op core : Nat) (s : State) : State :=
  if s.ctl.secBusy.isSome || (ctx? s 1).isNone then s else startSec op core 1 none s

def execSecUnlock (core : Nat) (s : State) : Out := .next (secEvent 1 core s)
def execSecAttest (core : Nat) (s : State) : Out := .next (secEvent 2 core s)
def execSecIdentity (core : Nat) (s : State) : Out := .next (secEvent 3 core s)

end Sys2Proof.Machine
end

