-- ==== Sys2Proof/Machine/Security.lean ====
section
/-!
DEFINITION. The end of a context (R338, R368), measurement registers (R366), and the security commands
(R335–R340, R377).
-/
namespace Sys2Proof.Machine

/-! ## Measurements (R339, R366) -/

/-- Measurement register Mi, and its extension count. -/
def measOf (s : State) (i : Nat) : Nat × Nat := sget (0, 0) s.ctl.meas i

/-- Mi := SHA-256(Mi ‖ digest), and its count rises. -/
def extendMeas (i digest : Nat) (s : State) : State :=
  let m := measOf s i
  let d := sha256 (natBe 32 m.1 ++ natBe 32 digest)
  { s with ctl := { s.ctl with meas := sset (0, 0) s.ctl.meas i (d, m.2 + 1) } }

/-! ## The end of a context (R338, R368) -/

/-- An Eaves page on every die is written to zero (R177). -/
def zeroEaves (page : Nat) (s : State) : State :=
  (List.range Config.dies).foldl (fun s d => zeroRange (eavesLoc d (page * 0x1000)) 0x1000 s) s

/-- The buffers of a context on a core are freed; with `wipe` their bytes are written to zero. -/
def dropBuffers (wipe : Bool) (ctx core : Nat) (s : State) : State :=
  (ccOf s ctx core).tags.foldl (fun s e =>
    if e.2.live then
      setOwner core e.2.base e.2.size 0 (if wipe then zeroRange (spLoc core e.2.base) e.2.size s else s)
    else s) s

/-- A processor's program of a context is abandoned, and starts of the context with it. -/
def dropXp (ctx : Nat) (x : Xp) : Xp :=
  let starts := x.starts.filter fun st => st.ctx ≠ ctx
  if x.ctx = ctx then { starts := starts } else { x with starts := starts }

/-- A core without a context's engine work and holds. -/
def dropCore (ctx : Nat) (mine : UnitRef → Bool) (c : CoreSt) : CoreSt :=
  { c with
    xp0 := dropXp ctx c.xp0
    xp1 := dropXp ctx c.xp1
    matrix := if c.matrix.owner = some ctx then {} else c.matrix
    saved := sset none c.saved ctx none
    holds := c.holds.filter fun h => match h.2 with
      | some (u, _, _) => !mine u
      | none => false }

/-- The collectives of a context that no engine will complete are answered with status 2, one reply to each
(R345; log entry 61). -/
def collsEnded (ctx : Nat) (s : State) : State :=
  (List.range Config.dies).foldl (fun s d => (dieOf s d).colls.foldl (fun s c =>
    if c.ctx = ctx then reply { ses := c.ses, die := d, ctx := ctx, tag := c.tag } 6 2 [] s else s) s) s

/-- THE END OF A CONTEXT: its work stops, accesses not yet performed are discarded, engines are
abandoned, its Eaves pages are written to zero, and its host is told why. With `wipe` (an unlock) its
scratchpad buffers and Purlin grant are written to zero too. -/
def endContext (wipe : Bool) (why ctx : Nat) (s : State) : State :=
  match ctx? s ctx with
  | none => s
  | some x =>
    let mine (u : UnitRef) : Bool := match u with
      | .grp gk _ => ((gang? s gk).map Gang.ctx) = some ctx
      | .inst id => ((inst? s id).map Inst.ctx) = some ctx
      | .xp core p => (xpOf s core p).ctx = ctx
    let s := collsEnded ctx (report s 0x42 ctx (natLe 4 why))
    let s := (List.range Config.cores).foldl (fun s c =>
      if s.cc.any fun e => e.1 = ccKey ctx c then dropBuffers wipe ctx c s else s) s
    let s := ((List.range 16).filter x.eaves.getLsbD).foldl (fun s p => zeroEaves p s) s
    let s := if wipe then (List.range Config.dies).foldl (fun s d =>
        zeroRange (purlinLoc d (x.purlinBase * 0x2000000)) (x.purlinSize * 0x2000000) s) s else s
    let nodes := ((sentries s.pool).filter fun e => e.2.ctx = ctx).map Prod.fst
    { s with
      gangs := s.gangs.filter fun e => (e.2.map Gang.ctx) ≠ some ctx
      insts := s.insts.filter fun e => (e.2.map Inst.ctx) ≠ some ctx
      queue := s.queue.filter fun e => e.ctx ≠ ctx
      sent := s.sent.filter fun e => e.ctx ≠ ctx
      sb := s.sb.filter fun e => e.ctx ≠ ctx
      gutter := s.gutter.filter fun e => e.ctx ≠ ctx
      homeq := s.homeq.filter fun e => e.ctx ≠ ctx
      tlb := s.tlb.filter fun e => e.ctx ≠ ctx
      walks := s.walks.filter fun e => e.ctx ≠ ctx
      pageRecs := s.pageRecs.filter fun e => e.ctx ≠ ctx
      pool := s.pool.filter fun e => (e.2.map Node.ctx) ≠ some ctx
      bars := s.bars.filter fun e => e.1 / 0x40000 ≠ ctx
      cohs := s.cohs.filter fun e => e.1 / 0x10000 % 0x10000 ≠ ctx
      cc := s.cc.filter fun e => e.1 / 1024 ≠ ctx
      cores := s.cores.map fun e => (e.1, dropCore ctx mine e.2)
      dies := s.dies.map fun e => (e.1, { e.2 with
        lastStart := e.2.lastStart.filter fun k => !nodes.contains (k.1 / 2)
        colls := e.2.colls.filter fun k => k.ctx ≠ ctx })
      ctxs := sset none s.ctxs ctx none
      ctl := { s.ctl with frames := s.ctl.frames.filter fun e => e.2 ≠ ctx }
      sessions := s.sessions.map fun e => (e.1, e.2.map fun y => if y.ctx = ctx then {} else y)
      cur := match s.cur with
        | some u => if mine u then none else some u
        | none => none }

/-- The live tenant contexts. -/
def tenants (s : State) : List Nat := (skeys s.ctxs).filter fun c => c ≠ 1

/-! ## Buffers of the controller's commands -/

/-- A word written for a command at a virtual address, in the view of a die; none where the address is no
multiple of 4, no page takes it, or the line is designated. -/
def putWord (die ctx : Nat) (addr : Dword) (w : Word) (msg : Option Nat) (s : State) : Option State :=
  if addr.toNat % 4 ≠ 0 || (regionAt s ctx addr.toNat).isSome || addr.toNat / 0x100000000000000 ≠ 0 then none
  else match walkNow die ctx addr.toNat 2 s with
    | .ok (pa, s') => some (originate die (placed pa (natLe 4 w.toNat)) { ctx := ctx, msg := msg } s')
    | .error _ => none

/-- Words written upward from an address: whether all were, and the state. -/
def putWords (die ctx : Nat) (msg : Option Nat) : List Word → Dword → State → Bool × State
  | [], _, s => (true, s)
  | w :: ws, addr, s => match putWord die ctx addr w msg s with
    | some s' => putWords die ctx msg ws (addr + 4) s'
    | none => (false, (putWords die ctx msg ws (addr + 4) s).2)

/-- Free words: `n` draws. -/
def freeWords (s : State) (n : Nat) : List Word := (List.range n).map fun i => Config.freeWord (s.fresh * 64 + i)

/-- A command's buffer of 1024 bytes holds open values where it can be written (log entry 40). -/
def spoiled (c : SecCmd) (s : State) : State :=
  (putWords (dieNo c.core) c.ctx none (freeWords s 256) c.addr { s with fresh := s.fresh + 5 }).2

/-- A report of 256 words goes to a command's buffer: status 0; or status 1 where it cannot be written,
and the buffer's bytes are then open (R339, R377; log entry 40). -/
def putReport (c : SecCmd) (bs : List Byte) (s : State) : Nat × State :=
  let r := putWords (dieNo c.core) c.ctx none (wordsOf 256 bs) c.addr s
  if r.1 then (0, r.2) else (1, spoiled c s)

/-! ## Unlock (R335, R337, R338) -/

/-- The status of a token, by its 128 words. -/
def tokenStatus (s : State) (t : List Word) : Nat :=
  let body := (t.take 32).flatMap fun w => natLe 4 w.toNat
  let sig := (t.drop 32).flatMap fun w => natLe 4 w.toNat
  if rWord t 0 ≠ 0x4B4C4E55 || rWord t 1 ≠ 1 then 2
  else if !zeroWords t 5 31 then 3
  else if s.ctl.lifecycle ≠ 2 then 4
  else if s.ctl.dbgu then 5
  else if pair (rWord t 2) (rWord t 3) ≠ Config.deviceId then 6
  else if (rWord t 4).toNat ≠ s.ctl.lifecycle.toNat then 7
  else if !rsaVerify Config.authorityModulus.toNat Config.authorityExponent.toNat (sha256 body) sig then 8
  else 0

/-- The steps of an accepted unlock, in order. -/
def unlocked (t : List Word) (s : State) : State :=
  let s := (tenants s).foldl (fun s c => endContext true 1 c s) s
  let s := extendMeas 7 (sha256 ((t.take 32).flatMap fun w => natLe 4 w.toNat)) s
  { s with ctl := { s.ctl with dbgu := true, port := true } }

def secUnlockWork (c : SecCmd) (s : State) : Nat × State :=
  match hostReader s (dieNo c.core) c.ctx 128 c.addr with
  | .error _ => (1, s)
  | .ok t =>
    let n := tokenStatus s t
    (n, if n = 0 then unlocked t s else s)

/-! ## Attestation and identity (R339, R377) -/

/-- Words as bytes. -/
def wordBytes (ws : List Word) : List Byte := ws.flatMap fun w => natLe 4 w.toNat

/-- Bytes 0x000 to 0x27F of an attestation report; the device identity key signs their digest. -/
def reportBytes (s : State) (nonce : List Word) : List Byte :=
  wordBytes [0x54525441, 1, lo32 Config.deviceId, hi32 Config.deviceId, lifecycleWord s, Config.stepping, 0, 0]
    ++ wordBytes nonce ++ ((List.range 16).flatMap fun i => natBe 32 (measOf s i).1)
    ++ ((List.range 16).flatMap fun i => natLe 4 (measOf s i).2)

def secAttestWork (c : SecCmd) (s : State) : Nat × State :=
  match hostReader s (dieNo c.core) c.ctx 8 (c.addr + 0x20) with
  | .error _ => (1, spoiled c s)
  | .ok nonce =>
    let body := reportBytes s nonce
    putReport c (body ++ rsaSign Config.deviceModulus Config.devicePrivate body) s

/-- Bytes 0x000 to 0x27F of the identity record. -/
def identityBytes : List Byte :=
  wordBytes [0x44544E49, 1, lo32 Config.deviceId, hi32 Config.deviceId, Config.deviceExponent]
    ++ List.replicate 0x2C 0#8 ++ natBe 384 Config.deviceModulus.toNat ++ List.replicate 0xC0 0#8

/-- The identity record, signed once by the vendor. -/
def identityRecord : List Byte := identityBytes ++ rsaSign Config.vendorModulus Config.vendorPrivate identityBytes

def secIdentityWork (c : SecCmd) (s : State) : Nat × State := putReport c identityRecord s

/-! ## SEC_COMMAND_DONE (R338, R340) -/

/-- What a command does. -/
def secWork (c : SecCmd) (s : State) : Nat × State :=
  if c.op = 1 then secUnlockWork c s else if c.op = 2 then secAttestWork c s else secIdentityWork c s

/-- BUSY clears once the command's writes are complete at module scope. -/
def secSettle (c : SecCmd) (status lo hi : Nat) (s : State) : State :=
  if s.pubs.any fun p => decide (lo ≤ p.id ∧ p.id < hi) then
    { s with ctl := { s.ctl with secBusy := some { c with worked := some (status, lo, hi) } } }
  else { s with ctl := { s.ctl with secBusy := none, secStatus := status } }

def execSecCommandDone (s : State) : Out :=
  .next (match s.ctl.secBusy with
    | none => s
    | some c => match c.worked with
      | some (n, lo, hi) => secSettle c n lo hi s
      | none =>
        let r := secWork c s
        secSettle c r.1 s.next r.2.next r.2)

end Sys2Proof.Machine
end

