-- ==== Sys2Proof/Machine/HostMem.lean ====
section
/-!
DEFINITION. Host memory commands (R344–R349), collectives (R351, R352), and messages that carry no
command (R343, R345).
-/
namespace Sys2Proof.Machine

/-! ## Addresses a host may reach (R346) -/

/-- Where a host access lands. -/
inductive HostSpot where
  /-- The global window: nothing but the range has been checked. -/
  | window
  | eaves (die off : Nat)
  | purlin (die off : Nat)
  | refused
  | busy
deriving DecidableEq, Repr

/-- A gang of any context stands on a die (R174). -/
def kernelOn (s : State) (die : Nat) : Bool := (sentries s.gangs).any fun e => dieNo e.2.core = die

/-- The aperture of `n` bytes at an address; the Purlin host window takes writes only. The Eaves windows of
successive dies follow one another. -/
def hostSpot (s : State) (ctx : Nat) (addr : Dword) (n : Nat) (write : Bool) : HostSpot :=
  let a := addr.toNat
  let top := a / 0x1000000000000
  let low := a % 0x1000000000000
  if a + n ≤ 0x100000000000000 then .window
  else if top = 0xFF03 then
    if low + n ≤ 0x80000
        && (List.range ((low + n - 1) / 0x1000 - low / 0x1000 + 1)).all fun i =>
          eavesHeld s ctx ((low + 0x1000 * i) % 0x10000) then
      .eaves (low / 0x10000) (low % 0x10000)
    else .refused
  else if top = 0xFF04 && write then
    let die := low / 0x10000000000
    let off := low % 0x10000000000
    let x := ctxD s ctx
    if die < 8 && off + n ≤ x.purlinSize * 0x2000000 then
      (if kernelOn s die then .busy else .purlin die (x.purlinBase * 0x2000000 + off))
    else .refused
  else .refused

/-! ## MEMWR (R347) -/

/-- The physical places of `n` bytes of the window, for access types `acc`, walking each page once; none
when a page is not mapped. -/
def hostPlaces (die ctx acc : Nat) : Nat → Nat → State → Option (List Nat × State)
  | 0, _, s => some ([], s)
  | k + 1, va, s => match walkNow die ctx va acc s with
    | .error _ => none
    | .ok (pa, s') => (hostPlaces die ctx acc k ((va / 0x10000 + 1) * 0x10000) s').map fun r =>
        ((List.range (0x10000 - va % 0x10000)).map (pa + ·) ++ r.1, r.2)

/-- Pages that `n` bytes at an address touch. -/
def pagesOf (va n : Nat) : Nat := (va + n - 1) / 0x10000 - va / 0x10000 + 1

/-- A line of a designated region lies in a range. -/
def touchesRegion (s : State) (ctx va n : Nat) : Bool :=
  (sentries (ctxD s ctx).regions).any fun r => overlaps r.2.base r.2.size va n

/-- A waiting reply joins the list under the number `s.next`. -/
def awaitReply (m : Hdr) (op : Nat) (f : HostWait → HostWait) (s : State) : State :=
  { taken s with hostWaits := s.hostWaits ++ [f { id := s.next, ses := m.ses, op := op, ctx := m.ctx, tag := m.tag }] }

def memwr (m : Hdr) (addr : Dword) (bytes : List Byte) (s : State) : State :=
  match hostSpot s m.ctx addr bytes.length true with
  | .refused => reply m 2 3 [] s
  | .busy => reply m 2 4 [] s
  | .eaves d off => reply m 2 0 [] (storeSpot (.eaves d off) bytes s)
  | .purlin d off => reply m 2 0 [] (storeSpot (.purlin d off) bytes s)
  | .window =>
    if touchesRegion s m.ctx addr.toNat bytes.length then reply m 2 3 [] s
    else match hostPlaces m.die m.ctx 2 (pagesOf addr.toNat bytes.length) addr.toNat s with
      | none => reply m 2 3 [] s
      | some (pas, s') =>
        let id := s'.next
        originate m.die (pas.zip bytes) { ctx := m.ctx, msg := some id } (awaitReply m 2 (fun h => h) s')

def execMemwr (m : Hdr) (addr : Dword) (bytes : List Byte) (s : State) : Out :=
  .next (if bytes = [] ∨ bytes.length > 65536 then reply m 2 1 [] s
    else inSession m 2 (memwr m addr bytes) s)

/-! ## MEMRD (R347) -/

/-- The bytes of a range of the window in the view of a die: the latest version on a designated line. -/
def hostBytes (s : State) (die ctx va : Nat) (pas : List Nat) (n : Nat) : List Byte :=
  ((List.range n).zip pas).map fun e =>
    if (regionAt s ctx (va + e.1)).isSome then
      (latestBytes s ctx (va + e.1)).getD ((va + e.1) % 64) 0
    else viewByte s (dataKey s ctx) (viewLoc die e.2)

def memrd (m : Hdr) (addr : Dword) (n : Nat) (s : State) : State :=
  match hostSpot s m.ctx addr n false with
  | .eaves d off =>
    if isBad s (eavesLoc d off) n then reply m 3 3 [] s else reply m 3 0 (readBytes s (eavesLoc d off) n) s
  | .window => match hostPlaces m.die m.ctx 1 (pagesOf addr.toNat n) addr.toNat s with
    | none => reply m 3 3 [] s
    | some (pas, s') =>
      if ((List.range n).zip pas).any fun e => latestBadAt s m.ctx (addr.toNat + e.1)
          || ((regionAt s m.ctx (addr.toNat + e.1)).isNone && isBad s (viewLoc m.die e.2) 1) then
        reply m 3 3 [] s'
      else reply m 3 0 (hostBytes s m.die m.ctx addr.toNat pas n) s'
  | _ => reply m 3 3 [] s

def execMemrd (m : Hdr) (addr : Dword) (n : Nat) (s : State) : Out :=
  .next (if n = 0 ∨ n > 65536 then reply m 3 1 [] s else inSession m 3 (memrd m addr n) s)

/-! ## FLUSH (R348) -/

/-- A FLUSH is answered once the session's earlier writes are complete: a write that every die has taken
has reached its tier (R218). -/
def hostFlush (m : Hdr) (addr : Dword) (n : Nat) (s : State) : State :=
  if n = 0 then reply m 4 0 [] s
  else match hostSpot s m.ctx addr n false with
    | .eaves _ _ => answerHost (awaitReply m 4 (fun h => h) s)
    | .window => match hostPlaces m.die m.ctx 1 (pagesOf addr.toNat n) addr.toNat s with
      | none => reply m 4 3 [] s
      | some (_, s') => answerHost (awaitReply m 4 (fun h => h) s')
    | _ => reply m 4 3 [] s

def execHostFlush (m : Hdr) (addr : Dword) (n : Nat) (s : State) : Out :=
  .next (inSession m 4 (hostFlush m addr n) s)

/-! ## Collectives (R351, R352) -/

def collOp (r : List Word) : Nat := bits (rWord r 0) 28 4
def collGroup (r : List Word) : Nat := bits (rWord r 0) 20 8
def collCount (r : List Word) : Nat := (rWord r 5).toNat

/-- The form of a record. -/
def collOk (r : List Word) : Bool :=
  r.length = 8 && collOp r ≤ 3 && collGroup r ≤ 15 && bits (rWord r 0) 0 16 = 0
    && decide (1 ≤ collCount r ∧ collCount r ≤ 0x1000000)

/-- COLL: the collective joins the queue of its die's engine. -/
def execColl (m : Hdr) (rec : List Word) (s : State) : Out :=
  .next (if !collOk rec then reply m 6 1 [] s
    else inSession m 6 (fun s => updDie s m.die fun d =>
      { d with colls := d.colls ++ [{ ctx := m.ctx, ses := m.ses, tag := m.tag, rcd := rec }] }) s)

/-- A group of a context: its epoch and members, the module's own rank first; before anything is known of
it, the module alone, with rank 0. -/
def groupOf (s : State) (ctx g : Nat) : Nat × List (Nat × Bool) :=
  match sget (0, []) (ctxD s ctx).groups g with
  | (e, []) => (e, [(0, true)])
  | x => x

/-- One step of the fold (R142, R145). -/
def collStep (op : Nat) (a b : Word) : Word :=
  match op with
  | 2 => w32 (fMinMax f32 true a.toNat b.toNat).1
  | 3 => a + b
  | _ => w32 (fAdd f32 (unpack f32 a.toNat) (unpack f32 b.toNat)).1

/-- A value divided by a count, rounded once. -/
def divCount (a : Word) (n : Nat) : Word :=
  match unpack f32 a.toNat with
  | .nan _ => w32 f32.nanBits
  | .inf neg => w32 (f32.signed neg f32.infBits)
  | .fin neg m e => w32 (pack f32 false neg (m * 2 ^ 32 / n) (e - 32) (decide (m * 2 ^ 32 % n ≠ 0))).1

/-- The result over the members' data, in ascending rank. -/
def collResult (op count : Nat) (data : List (List Word)) : List Word :=
  (List.range count).map fun j =>
    let xs := data.map fun d => d.getD j 0
    let x := (xs.drop 1).foldl (collStep op) (xs.headD 0)
    if op = 1 then divCount x data.length else x

/-- Insertion of a member's data by rank. -/
def insertRank (x : Nat × List Word) : List (Nat × List Word) → List (Nat × List Word)
  | [] => [x]
  | y :: l => if x.1 < y.1 then x :: y :: l else y :: insertRank x l

/-- The other members' data fit the group: each rank once, none the module's own or failed, every member
known to be present among them, each with the record's count. -/
def peersOk (members : List (Nat × Bool)) (count : Nat) (peers : List (Nat × List Word)) : Bool :=
  let own := (members.headD (0, true)).1
  decide ((peers.map Prod.fst).Nodup) && peers.all (fun p => p.1 ≠ own && !members.contains (p.1, false) && p.2.length = count)
    && (members.drop 1).all fun q => !q.2 || peers.any fun p => p.1 = q.1

/-- The module's own data: SRC lies in the global window. -/
def collSource (s : State) (die ctx count : Nat) (src : Dword) : Except RStop (List Word) :=
  if src.toNat + 4 * count ≤ 0x100000000000000 then hostReader s die ctx count src
  else .error (.bad (addrCause 0x08 src 0))

/-- COLL_COMPLETE: the oldest collective of a die's engine completes under one epoch, with the data that
its peers bring; its reply and its signal wait for its writes (R232). -/
def execCollComplete (die : Nat) (peers : List (Nat × List Word)) (s : State) : Out :=
  .next (match (dieOf s die).colls with
    | [] => s
    | c :: rest =>
      let mem := (groupOf s c.ctx (collGroup c.rcd)).2
      if !peersOk mem (collCount c.rcd) peers then s
      else
        let m : Hdr := { ses := c.ses, die := die, ctx := c.ctx, tag := c.tag }
        let s := updDie s die fun d => { d with colls := rest }
        let shrank := if c.shrank then 256 else 0
        match collSource s die c.ctx (collCount c.rcd) (rPair c.rcd 1) with
        | .error _ => reply m 6 (3 + shrank) [] s
        | .ok own =>
          let data := peers.foldl (fun l p => insertRank p l) [((mem.headD (0, true)).1, own)]
          let id := s.next
          let s' := awaitReply m 6 (fun h => { h with
            status := shrank, tl := some (bits (rWord c.rcd 0) 16 4, rPair c.rcd 6) }) s
          match putWords die c.ctx (some id) (collResult (collOp c.rcd) (collCount c.rcd) (data.map Prod.snd))
              (rPair c.rcd 3) s' with
          | (true, t) => answerHost t
          | (false, _) => reply m 6 (3 + shrank) [] s)

/-- COLL_MEMBER_FAIL: the member leaves a hole, the epoch rises, and queued collectives of the group start
again from their sources. -/
def execCollMemberFail (ctx group rank : Nat) (s : State) : Out :=
  .next (
    let g := groupOf s ctx group
    if (ctx? s ctx).isNone || group > 15 || g.2.contains (rank, false) || (g.2.headD (0, true)).1 = rank then s
    else
      let g' := (g.1 + 1, (g.2.filter fun q => q.1 ≠ rank) ++ [(rank, false)])
      let s := updCtx s ctx fun x => { x with groups := sset (0, []) x.groups group g' }
      let mark (c : Coll) : Coll := if c.ctx = ctx ∧ collGroup c.rcd = group then { c with shrank := true } else c
      { s with dies := s.dies.map fun d => (d.1, { d.2 with colls := d.2.colls.map mark }) })

/-! ## Messages that are no command (R343, R345) -/

/-- UNRELIABLE_PACKET_DROP. -/
def execUnreliablePacketDrop (s : State) : Out :=
  .next { s with ctl := { s.ctl with drops := s.ctl.drops + 1 } }

/-- The OPs of commands (R346, R357, R365, R368), and of a host's answers to the module's messages (R350). -/
def opAssigned (op : Nat) : Bool :=
  decide (1 ≤ op ∧ op ≤ 6) || decide (0x10 ≤ op ∧ op ≤ 0x14) || decide (0x18 ≤ op ∧ op ≤ 0x1B)
    || decide (0xC0 ≤ op ∧ op ≤ 0xC2)

/-- A header of four words is malformed before a payload of `n` bytes: a nonzero reserved field, an
unassigned OP, or a LEN that is not `n` or above 0x3_0000. -/
def headerBad (h : List Word) (n : Nat) : Bool :=
  bits (rWord h 0) 19 5 ≠ 0 || !opAssigned (bits (rWord h 0) 24 8) || (rWord h 2).toNat ≠ n || decide (n > 0x30000)

/-- The header of a message, as its reply needs it. -/
def headerOf (ses : Nat) (h : List Word) : Hdr :=
  { ses := ses, die := bits (rWord h 0) 16 3, ctx := bits (rWord h 0) 0 16, tag := rWord h 1 }

/-- MALFORMED_MESSAGE: a message whose header is malformed is answered with status 1, and nothing else
changes; a message that is well formed is a command, which runs under its own step. -/
def execMalformedMessage (ses : Nat) (m : RawMsg) (s : State) : Out :=
  .next (if headerBad m.header m.payload then reply (headerOf ses m.header) (bits (rWord m.header 0) 24 7) 1 [] s
    else s)

end Sys2Proof.Machine
end

