-- ==== Sys2Proof/Machine/Loading.lean ====
section
/-!
DEFINITION. Code objects (R355–R362), Parber modules and the Flashing cache (R363, R364).
-/
namespace Sys2Proof.Machine

/-! ## The object (R355) -/

structure ObjHdr where
  magic : Nat
  w1 : Word
  stamp : Word
  codeOff : Nat
  codeLen : Nat
  dataOff : Nat
  dataLen : Nat
  imgOff : Nat
  nimg : Nat
  nreg : Nat
  regOff : Nat
  symOff : Nat
  nsym : Nat
  relOff : Nat
  nrel : Nat
  strOff : Nat
  total : Nat
deriving DecidableEq, Repr

def objHdr (bs : List Byte) : ObjHdr :=
  let n (i : Nat) : Nat := (bWord bs i).toNat
  { magic := n 0, w1 := bWord bs 1, stamp := bWord bs 2, codeOff := n 3, codeLen := n 4, dataOff := n 5, dataLen := n 6
    imgOff := n 7, nimg := n 8 / 0x10000, nreg := n 8 % 0x10000, regOff := n 9, symOff := n 10, nsym := n 11
    relOff := n 12, nrel := n 13, strOff := n 14, total := n 15 }

def ObjHdr.legacy (h : ObjHdr) : Bool := h.w1.getLsbD 16

/-- A symbol entry. -/
structure SymEnt where
  name : Nat
  w1 : Word
  value : Nat
deriving DecidableEq, Repr

def SymEnt.kind (e : SymEnt) : Nat := bits e.w1 24 4
def SymEnt.glob (e : SymEnt) : Bool := e.w1.getLsbD 31
def SymEnt.repl (e : SymEnt) : Bool := e.w1.getLsbD 30

def symEnt (bs : List Byte) (h : ObjHdr) (i : Nat) : SymEnt :=
  let b := bs.drop (h.symOff + 16 * i)
  { name := (bWord b 0).toNat, w1 := bWord b 1, value := (bWord b 2).toNat }

def symEnts (bs : List Byte) (h : ObjHdr) : List SymEnt := (List.range h.nsym).map (symEnt bs h)

/-- The bytes of a NUL-terminated name, at most 255 before the NUL. -/
def nameAt (bs : List Byte) (off : Nat) : Option (List Byte) :=
  let b := bs.drop off
  let x := b.takeWhile (· ≠ 0)
  if x.length ≤ 255 ∧ x.length < b.length then some x else none

/-- A relocation entry. -/
structure RelEnt where
  site : Nat
  w1 : Word
  addend : Word
deriving DecidableEq, Repr

def RelEnt.kind (e : RelEnt) : Nat := bits e.w1 28 4
def RelEnt.sec (e : RelEnt) : Bool := e.w1.getLsbD 27
def RelEnt.sym (e : RelEnt) : Nat := bits e.w1 0 24

def relEnts (bs : List Byte) (h : ObjHdr) : List RelEnt :=
  (List.range h.nrel).map fun i =>
    let b := bs.drop (h.relOff + 12 * i)
    { site := (bWord b 0).toNat, w1 := bWord b 1, addend := bWord b 2 }

/-- The offsets and lengths of the images: each starts at the next multiple of 16 after the one before. -/
def imageSpans (bs : List Byte) : Nat → Nat → List (Nat × Nat)
  | 0, _ => []
  | n + 1, off =>
    let len := (imgHdr (bs.drop off)).total
    (off, len) :: imageSpans bs n ((off + len + 15) / 16 * 16)

/-- The code section's words. -/
def objCode (bs : List Byte) (h : ObjHdr) : List Word := wordsOf h.codeLen (bs.drop h.codeOff)

/-- The data section's bytes. -/
def objData (bs : List Byte) (h : ObjHdr) : List Byte := (bs.drop h.dataOff).take h.dataLen

/-! ## Step 1: the form of an object (R355, R356) -/

/-- The end of the string table: after the last name that a symbol uses. -/
def strEnd (bs : List Byte) (h : ObjHdr) : Nat :=
  lmax ((symEnts bs h).map fun e => h.strOff + e.name + ((nameAt bs (h.strOff + e.name)).map fun x => x.length + 1).getD 0)

def objTables (bs : List Byte) (h : ObjHdr) : List (Nat × Nat) :=
  [(0, 64), (h.codeOff, 4 * h.codeLen), (h.dataOff, h.dataLen), (h.regOff, 16 * h.nreg), (h.symOff, 16 * h.nsym),
   (h.relOff, 12 * h.nrel), (h.strOff, strEnd bs h - h.strOff)] ++ imageSpans bs h.nimg h.imgOff

def headerOk (bs : List Byte) (h : ObjHdr) : Bool :=
  64 ≤ bs.length && h.magic = 0x4F43584A && bits h.w1 0 16 = 1 && bits h.w1 17 15 = 0 && h.total = bs.length
    && h.nimg ≤ 64 && h.nreg ≤ 64
    && ([h.codeOff, h.dataOff, h.imgOff, h.regOff, h.symOff, h.relOff, h.strOff].all fun x => x % 16 = 0)
    && 16 * h.nsym ≤ h.total && 12 * h.nrel ≤ h.total
    && (objTables bs h).all (fun t => t.1 + t.2 ≤ h.total) && disjointSpans (objTables bs h)

/-- A symbol's fields. DESIGN CHOICE (log entry 110): a VALUE past the end of its section is malformed, and that of an
image is its ordinal. -/
def symOk (bs : List Byte) (h : ObjHdr) (e : SymEnt) : Bool :=
  bits e.w1 28 2 = 0 && bits e.w1 0 24 = 0 && (nameAt bs (h.strOff + e.name)).isSome && (match e.kind with
    | 0 => decide (e.value ≤ h.codeLen)
    | 4 => decide (e.value ≤ h.codeLen)
    | 1 => decide (e.value + 16 ≤ h.dataLen)
    | 2 => decide (e.value ≤ h.dataLen)
    | 3 => decide (e.value < h.nimg)
    | 5 => e.value = 0
    | _ => false)

/-- The names that an object defines for others. -/
def globalNames (bs : List Byte) (h : ObjHdr) : List (List Byte) :=
  ((symEnts bs h).filter fun e => e.glob && e.kind ≠ 5).filterMap fun e => nameAt bs (h.strOff + e.name)

/-- A relocation's kind suits the kind of its symbol. -/
def suitsSym (kind symKind : Nat) : Bool :=
  match kind with
  | 0 => symKind ≠ 3
  | 1 => symKind ≠ 3
  | 2 => symKind ≠ 3
  | 3 => symKind = 0 || symKind = 4
  | _ => symKind = 3

/-- A relocation's fields, and its site; an import's kind shows when it is resolved. -/
def relOk (h : ObjHdr) (code : List Word) (syms : List SymEnt) (e : RelEnt) : Bool :=
  bits e.w1 24 3 = 0 && e.kind ≤ 4 && (match syms[e.sym]? with
    | none => false
    | some y => y.kind = 5 || suitsSym e.kind y.kind)
    && (match e.kind with
      | 2 => e.sec && e.site % 8 = 0 && e.site + 8 ≤ h.dataLen
      | k => !e.sec && e.site < h.codeLen && (let w := code.getD e.site 0
          if k ≤ 1 then wordW w else if k = 3 then wordB w else wordEnter w))

/-- STEP 1. -/
def objectOk (bs : List Byte) (h : ObjHdr) : Bool :=
  headerOk bs h && (symEnts bs h).all (symOk bs h) && decide ((globalNames bs h).Nodup)
    && (let code := objCode bs h
        let syms := symEnts bs h
        (relEnts bs h).all (relOk h code syms))

/-! ## Step 2: kernel headers (R75) -/

/-- A kernel header's form. DESIGN CHOICE (log entry 105): status 17 is also the answer to a body that passes
the end of the code section, and to a bucket whose first word does. -/
def kernelOk (h : ObjHdr) (data : List Byte) (e : SymEnt) : Bool :=
  let b := data.drop e.value
  let f := bWord b 2
  let nb := bits f 12 4
  e.value % 16 = 0 && bits f 16 16 = 0 && bits f 10 2 = 0 && bits f 6 2 = 0 && bWord b 3 = 0 && nb ≤ 8
    && decide (1 ≤ bits f 0 6 ∧ bits f 0 6 ≤ 60) && e.value + 16 + 36 * nb ≤ h.dataLen
    && (bWord b 0).toNat + (bWord b 1).toNat ≤ h.codeLen
    && (List.range nb).all fun i => (bWord (b.drop (16 + 36 * i)) 0).toNat < h.codeLen

/-! ## Step 3: placing (log entry 30) -/

/-- Frames of 64 KiB that loads and version heaps leave. -/
def framesLeft (s : State) : Nat :=
  (Config.nearBytes - ((sentries s.ctxs).map fun c => c.2.vheap * 64).foldl (· + ·) 0) / 0x10000 - s.ctl.frames.length

/-- The lowest frame at or above `n` that no load has taken. -/
def freeFrame : List (Nat × Nat) → Nat → Nat
  | [], n => n
  | (k, _) :: l, n => if k = n then freeFrame l (n + 1) else if k < n then freeFrame l n else n

/-- A frame is taken for a context, and reads as zero. -/
def takeFrame (ctx : Nat) (s : State) : Option (Nat × State) :=
  if framesLeft s = 0 then none
  else
    let f := freeFrame s.ctl.frames 1
    let lo := viewLoc 0 (f * 0x10000)
    let old := (s.mem.filter fun e => decide (lo ≤ e.1 ∧ e.1 < lo + 0x10000)).map fun e => (f * 0x10000 + (e.1 - lo), 0#8)
    let s := { s with ctl := { s.ctl with frames := sset 0 s.ctl.frames f ctx } }
    some (f, if old = [] then s else originate 0 old {} s)

/-- Writes of the loader: table entries, which no key encrypts, and sections. -/
def putEntry (msg : Option Nat) (at_ e : Nat) (s : State) : State := originate 0 (placed at_ (natLe 8 e)) { msg := msg } s

/-- A page is mapped below a table: missing tables are made. `flags` are those of the leaf. -/
def mapBelow (ctx va flags : Nat) (msg : Option Nat) : Nat → Nat → State → Option (Nat × State)
  | 0, _, _ => none
  | n + 1, table, s =>
    let lb := levelBits (3 - n)
    let at_ := table + 8 * (va / 2 ^ lb.1 % lb.2)
    let e := leNat (readBytes s (viewLoc 0 at_) 8)
    if e.testBit 0 then
      (if n = 0 || e.testBit 1 then none else mapBelow ctx va flags msg n (e / 0x1000 % 2 ^ 40 * 0x1000) s)
    else match takeFrame ctx s with
      | none => none
      | some (f, s) =>
        let pa := f * 0x10000
        if n = 0 then some (f, putEntry msg at_ (pa + flags) s)
        else mapBelow ctx va flags msg n pa (putEntry msg at_ (pa + 1) s)

/-- The context has a root table. -/
def rooted (ctx : Nat) (s : State) : Option State :=
  if (ctxD s ctx).ptRoot ≠ 0 then some s
  else (takeFrame ctx s).map fun r => updCtx r.2 ctx fun x => { x with ptRoot := BitVec.ofNat 64 (r.1 * 0x10000) }

/-- Pages mapped one after another, each to a frame of its own: the frames, in order. -/
def mapPages (ctx flags : Nat) (msg : Option Nat) : List Nat → State → Option (List Nat × State)
  | [], s => some ([], s)
  | p :: ps, s => match mapBelow ctx (p * 0x10000) flags msg 4 (ctxD s ctx).ptRoot.toNat s with
    | none => none
    | some (f, s) => (mapPages ctx flags msg ps s).map fun r => (f :: r.1, r.2)

/-- A page is free for a load: no object has it, and nothing is mapped there. -/
def pageFree (s : State) (ctx page : Nat) : Bool :=
  !((ctxD s ctx).objs.any fun o => o.pages.contains page) && (match walkTable s 0 ctx (page * 0x10000) 0 with
    | .absent _ => true
    | _ => false)

/-- The first of some places where `n` pages in a row are free, below a limit. -/
def freePages (s : State) (ctx n start limit : Nat) : Option (List Nat) :=
  let starts := start :: ((ctxD s ctx).objs.flatMap fun o => o.pages.map (· + 1)) ++ (List.range 64).map fun i => start + 512 * i
  (((lsort starts).filter fun a => decide (start ≤ a ∧ a + n ≤ limit)).map fun a => (List.range n).map (a + ·)).find?
    fun ps => ps.all (pageFree s ctx)

/-- Where an object goes: the pages of its code, below 16 GiB, and of its data. -/
def placement (s : State) (ctx : Nat) (h : ObjHdr) : Option (List Nat × List Nat) :=
  match freePages s ctx (max 1 ((4 * h.codeLen + 0xFFFF) / 0x10000)) 0x8000 0x40000,
      freePages s ctx (max 1 ((h.dataLen + 0xFFFF) / 0x10000)) 0x40000 0x10000000000 with
  | some c, some d => some (c, d)
  | _, _ => none

/-! ## Steps 4 and 5: symbols and relocations (R356, R361) -/

/-- A symbol as its object gives it: an address, or an image's table index. -/
def symOf (bs : List Byte) (h : ObjHdr) (codeAt dataAt : Nat) (images : List Nat) (e : SymEnt) : Sym :=
  { name := (nameAt bs (h.strOff + e.name)).getD [], kind := e.kind, glob := e.glob, repl := e.repl
    addr := BitVec.ofNat 64 (match e.kind with
      | 0 => codeAt + 4 * e.value
      | 4 => codeAt + 4 * e.value
      | 3 => images.getD e.value 0
      | 5 => 0
      | _ => dataAt + e.value) }

/-- What a symbol resolves to, with the handle of another object that it comes from. -/
def resolveSym (x : Context) (y : Sym) : Option (Sym × Option Nat) :=
  if y.kind ≠ 5 then some (y, none)
  else (x.serving.find? fun d => d.name = y.name).map fun d => (d.sym, some d.handle)

def resolveAll (x : Context) : List Sym → Option (List (Sym × Option Nat))
  | [] => some []
  | y :: ys => match resolveSym x y, resolveAll x ys with
    | some r, some rs => some (r :: rs)
    | _, _ => none

/-- Bits `lo` to `lo + n - 1` of a word replaced. -/
def setBits (w : Word) (lo n v : Nat) : Word :=
  w - w32 (w.toNat / 2 ^ lo % 2 ^ n * 2 ^ lo) + w32 (v % 2 ^ n * 2 ^ lo)

/-- The sections as relocations change them, or a status. -/
def relocate (codeAt : Nat) (rs : List (Sym × Option Nat)) : List RelEnt → List Word → List Byte → Except Nat (List Word × List Byte)
  | [], code, data => .ok (code, data)
  | e :: es, code, data => match rs[e.sym]? with
    | none => .error 16
    | some (y, _) =>
      if !suitsSym e.kind y.kind then .error 16
      else
        let a : Int := y.addr.toNat + e.addend.toInt
        let w := code.getD e.site 0
        match e.kind with
        | 0 => relocate codeAt rs es (lset code e.site (setBits w 1 16 (a % 0x10000).toNat)) data
        | 1 => relocate codeAt rs es (lset code e.site (setBits w 1 16 (a / 0x10000 % 0x10000).toNat)) data
        | 2 => relocate codeAt rs es code (data.take e.site ++ natLe 8 (a % (2 ^ 64 : Int)).toNat ++ data.drop (e.site + 8))
        | 3 =>
          let off : Int := y.addr.toNat / 4 + e.addend.toInt - (codeAt / 4 + e.site : Nat)
          if off < -262144 ∨ 262143 < off then .error 20
          else relocate codeAt rs es (lset code e.site (setBits w 0 19 (off % 0x80000).toNat)) data
        | _ => relocate codeAt rs es (lset code e.site (setBits w 17 6 y.addr.toNat)) data

/-! ## Steps 6 to 9 -/

/-- The lowest free image-table indices. -/
def freeImages (x : Context) : List Nat := (List.range 64).filter fun i => (sget none x.images i).isNone

/-- The lowest free region indices. -/
def freeRegions (x : Context) : List Nat := (List.range 64).filter fun i => (sget none x.regions i).isNone

/-- Images are sealed under their indices, or a status of R54. -/
def sealAll (ctx : Nat) : List (List Byte × Nat) → State → Except Nat State
  | [], s => .ok s
  | (bs, idx) :: l, s => match sealStatusOf (ctxD s ctx) (w32 idx) bs with
    | (0, im) => sealAll ctx l (updCtx s ctx fun x => { x with images := sset none x.images idx (some im) })
    | (n, _) => .error n

/-- Region records are designated, or a status of R183. DESIGN CHOICE (log entry 106): a record's wait bound
is its word 3 modulo 2^20. -/
def designateAll (ctx : Nat) : List (List Byte × Nat) → State → Except Nat State
  | [], s => .ok s
  | (b, idx) :: l, s =>
    let base := (bWord b 0).toNat + (bWord b 1).toNat * 0x100000000
    let size := (bWord b 2).toNat
    match (if idx > 63 then 1 else designateStatus s 0 ctx idx base size) with
    | 0 => designateAll ctx l (designate 0 ctx idx base size ((bWord b 3).toNat % 0x100000) s)
    | n => .error n

/-- Bytes written into pages that have frames of their own. -/
def putSection (ctx : Nat) (msg : Option Nat) : List Nat → List Byte → State → State
  | [], _, s => s
  | f :: fs, bs, s => putSection ctx msg fs (bs.drop 0x10000)
      (if bs.take 0x10000 = [] then s else originate 0 (placed (f * 0x10000) (bs.take 0x10000)) { ctx := ctx, msg := msg } s)

/-- A global definition may become serving (R361). -/
def mayServe (x : Context) (name : List Byte) : Bool :=
  match x.serving.find? fun d => d.name = name with
  | some d => d.sym.repl
  | none => true

/-- A load's answer: a status with its detail, or the state, the handle and the reply's payload. -/
abbrev Loaded := Except (Nat × Nat) (State × Nat × List Byte)

/-- STEPS 2 TO 9 of R359 for an object of the form that step 1 requires; `msg` numbers its writes. -/
def loadSteps (ctx : Nat) (msg : Option Nat) (bs : List Byte) (h : ObjHdr) (s : State) : Loaded :=
  let x := ctxD s ctx
  let syms := symEnts bs h
  if !(syms.filter fun e => e.kind = 1).all (kernelOk h (objData bs h)) then .error (17, 0) else
  match rooted ctx s with
  | none => .error (18, 0)
  | some s => match placement s ctx h with
    | none => .error (18, 0)
    | some (cp, dp) => match mapPages ctx 0x17 msg cp s with
      | none => .error (18, 0)
      | some (cf, s) => match mapPages ctx 0x0F msg dp s with
        | none => .error (18, 0)
        | some (df, s) =>
          let codeAt := cp.headD 0 * 0x10000
          let dataAt := dp.headD 0 * 0x10000
          let idxs := (freeImages x ++ List.replicate 64 64).take h.nimg
          let mine := syms.map (symOf bs h codeAt dataAt idxs)
          match resolveAll x mine with
          | none => .error (19, 0)
          | some rs => match relocate codeAt rs (relEnts bs h) (objCode bs h) (objData bs h) with
            | .error n => .error (n, 0)
            | .ok (code, data) =>
              let imgs := (imageSpans bs h.nimg h.imgOff).map fun t => (bs.drop t.1).take t.2
              match sealAll ctx (imgs.zip idxs) s with
              | .error n => .error (22, n)
              | .ok s =>
                let s := putSection ctx msg df data (putSection ctx msg cf (wordBytes code) s)
                let ridx := (freeRegions x ++ List.replicate 64 64).take h.nreg
                match designateAll ctx (((List.range h.nreg).map fun i => bs.drop (h.regOff + 16 * i)).zip ridx) s with
                | .error n => .error (23, n)
                | .ok s =>
                  let globals := mine.filter fun y => y.glob && y.kind ≠ 5
                  if !globals.all fun y => mayServe x y.name then .error (21, 0)
                  else
                    let handle := x.nextHandle
                    let o : Obj := { handle := handle, code := codeAt, codeLen := h.codeLen, data := dataAt
                                     dataLen := h.dataLen, images := idxs, regions := ridx, syms := mine
                                     uses := rs.filterMap Prod.snd, legacy := h.legacy, stamp := h.stamp
                                     pages := cp ++ dp }
                    let serve := globals.map fun y => ({ name := y.name, handle := handle, sym := y } : Serving)
                    .ok (updCtx s ctx fun x => { x with
                        objs := x.objs ++ [o], nextHandle := handle + 1
                        serving := (x.serving.filter fun d => !globals.any fun y => y.name = d.name) ++ serve },
                      handle, natLe 4 handle ++ mine.flatMap fun y => natLe 8 y.addr.toNat)

/-- A LOAD of a whole object; `msg` numbers its writes. -/
def loadObject (ctx : Nat) (msg : Option Nat) (bs : List Byte) (s : State) : Loaded :=
  if objectOk bs (objHdr bs) then loadSteps ctx msg bs (objHdr bs) s else .error (16, 0)

/-- The command's reply: at once where it is refused, else once its writes are complete. -/
def finishLoad (m : Hdr) (op digest : Nat) (bs : List Byte) (s : State) : State :=
  let id := s.next
  match loadObject m.ctx (some id) bs (taken s) with
  | .error (n, d) => reply m op (d * 256 + n) [] s
  | .ok (s', handle, pay) =>
    let w : HostWait := { id := id, ses := m.ses, op := op, ctx := m.ctx, tag := m.tag, payload := pay, handle := handle
                          digest := digest }
    answerHost { s' with hostWaits := s'.hostWaits ++ [w] }

/-! ## Pieces (R358) -/

def sessionOf (s : State) (ses : Nat) : Session := (sget none s.sessions ses).getD {}

def setSession (ses : Nat) (f : Session → Session) (s : State) : State :=
  { s with sessions := sset none s.sessions ses (some (f (sessionOf s ses))) }

/-- A management command of the context is still being carried out (R357). -/
def mgmtBusy (s : State) (ctx : Nat) : Bool :=
  s.hostWaits.any fun h => decide (h.ctx = ctx ∧ 0x10 ≤ h.op ∧ h.op ≤ 0x14)

/-- A piece of an object: answered at once, or with the whole object's result `done`; where the whole has to
`wait`, nothing happens yet. -/
def pieces (m : Hdr) (op : Nat) (piece : Word) (bytes : List Byte) (wait : List Byte → Bool)
    (done : List Byte → State → State) (s : State) : State :=
  if mgmtBusy s m.ctx then s
  else
    let x := sessionOf s m.ses
    let off := bits piece 0 31
    let drop (s : State) : State := setSession m.ses (fun x => { x with load := [], holding := none }) s
    if off ≠ 0 && (x.holding ≠ some op || off ≠ x.load.length) then reply m op 1 [] (drop s)
    else
      let whole := (if off = 0 then [] else x.load) ++ bytes
      if whole.length > 0x7FFFFFFF then reply m op 5 [] (drop s)
      else if piece.getLsbD 31 then (if wait whole then s else done whole (drop s))
      else reply m op 0 [] (setSession m.ses (fun x => { x with load := whole, holding := some op }) s)

/-- A write to a line of a region that an object designates has not reached every view yet: the load waits
for it (R183; log entry 107). -/
def spansBusy (s : State) (ctx : Nat) (bs : List Byte) : Bool :=
  let h := objHdr bs
  objectOk bs h && (List.range h.nreg).any fun i =>
    let b := bs.drop (h.regOff + 16 * i)
    spanBusy s 0 ctx ((bWord b 0).toNat + (bWord b 1).toNat * 0x100000000) (bWord b 2).toNat

/-- LOAD. -/
def execLoadObj (m : Hdr) (piece : Word) (bytes : List Byte) (s : State) : Out :=
  .next (inSession m 0x10 (fun s => pieces m 0x10 piece bytes (spansBusy s m.ctx) (finishLoad m 0x10 0) s) s)

/-! ## Parber (R363, R364) -/

/-- The details of status 24 for a module's bytes, 0 for a module that translates. -/
def parberBad (bs : List Byte) : Nat :=
  if bs.length < 32 || bWord bs 0 ≠ 0x52425250 then 1
  else if bWord bs 1 ≠ 1 then 2
  else [0, 1, 3, 4].getD (Config.parberStatus bs % 4) 0

/-- The translated object. -/
def translation (digest : Nat) : List Byte :=
  (List.range (Config.translatedLength digest)).map (Config.translated digest)

/-- The key of a Flashing entry: module, running translator, stepping. -/
def flashKey (digest : Nat) (f : Flash) : Bool :=
  decide (f.digest = digest ∧ f.version = Config.translatorVersion ∧ f.stepping = Config.stepping)

/-- The Flashing entry of a module whose content matches. -/
def flashOf (s : State) (digest : Nat) : Option Flash := s.ctl.flashing.find? fun f => flashKey digest f && !f.corrupt

/-- Entries that `keep` does not hold are discarded, and their blocks erased (log entry 66). -/
def discardFlash (keep : Flash → Bool) (c : Controller) : Controller :=
  { c with
    flashing := c.flashing.filter keep
    erases := ((c.flashing.filter fun f => !keep f).flatMap Flash.blocks).foldl
      (fun m b => sset 0 m b (sget 0 m b + 1)) c.erases }

/-- Blocks that no entry holds and that are not retired. -/
def freeBlocks (c : Controller) : List Nat :=
  (List.range Config.flashBlocks).filter fun b =>
    !(c.flashing.any fun f => f.blocks.contains b) && decide (sget 0 c.erases b < Config.blockErasures)

/-- The `n` blocks with the lowest erase counts. -/
def leastErased (c : Controller) : Nat → List Nat → List Nat
  | 0, _ => []
  | n + 1, l => match (lmin (l.map (sget 0 c.erases))).bind fun k => l.find? fun b => sget 0 c.erases b = k with
    | some b => b :: leastErased c n (l.filter (· ≠ b))
    | none => []

/-- The entry to be evicted: of another translator version first, then the least recently used. -/
def flashVictim (c : Controller) : Option Flash :=
  let l := c.flashing.filter Flash.committed
  let old := l.filter fun f => f.version ≠ Config.translatorVersion
  let l := if old = [] then l else old
  (lmin (l.map Flash.used)).bind fun u => l.find? fun f => f.used = u

/-- Entries are evicted until `need` blocks are free. -/
def makeRoom (need : Nat) : Nat → Controller → Controller
  | 0, c => c
  | n + 1, c =>
    if need ≤ (freeBlocks c).length then c
    else match flashVictim c with
      | none => c
      | some v => makeRoom need n (discardFlash (fun f => f ≠ v) c)

/-- An entry is stored, where enough blocks can be had. -/
def storeFlash (f : Flash) (s : State) : State :=
  let need := max 1 (ceilDiv f.bytes.length Config.flashBlockBytes)
  let c := makeRoom need s.ctl.flashing.length s.ctl
  let free := freeBlocks c
  { s with ctl := if need ≤ free.length then
      { c with flashing := c.flashing ++ [{ f with blocks := leastErased c need free, used := s.next }] } else c }

/-- An entry has been used. -/
def touchFlash (digest : Nat) (s : State) : State :=
  { s with ctl := { s.ctl with
      flashing := s.ctl.flashing.map fun f => if flashKey digest f then { f with used := s.next } else f } }

/-- A translated module is loaded, and its entry stored, still without its commit record. -/
def loadTranslated (m : Hdr) (bs : List Byte) (digest : Nat) (s : State) : State :=
  if parberBad bs ≠ 0 then reply m 0x11 (parberBad bs * 256 + 24) [] s
  else
    let f : Flash := { digest := digest, version := Config.translatorVersion, stepping := Config.stepping
                       bytes := translation digest, committed := false }
    finishLoad m 0x11 digest f.bytes (match loadObject m.ctx none f.bytes s with
      | .ok _ => storeFlash f s
      | .error _ => s)

/-- LOADP: a hit loads the cached object; a key that is being translated is waited for; an entry whose content
does not match is discarded, and the module translated again. -/
def finishLoadp (m : Hdr) (bs : List Byte) (s : State) : State :=
  let digest := sha256 bs
  match flashOf s digest with
  | some f => touchFlash digest (finishLoad m 0x11 0 f.bytes s)
  | none => loadTranslated m bs digest { s with ctl := discardFlash (fun f => !flashKey digest f) s.ctl }

/-- A module's load waits: another load is translating its key (R364), or its object waits for a region. -/
def loadpWaits (s : State) (ctx : Nat) (bs : List Byte) : Bool :=
  match flashOf s (sha256 bs) with
  | some f => !f.committed || spansBusy s ctx f.bytes
  | none => parberBad bs = 0 && spansBusy s ctx (translation (sha256 bs))

def execLoadp (m : Hdr) (piece : Word) (bytes : List Byte) (s : State) : Out :=
  .next (inSession m 0x11 (fun s =>
    pieces m 0x11 piece bytes (loadpWaits s m.ctx) (finishLoadp m) s) s)

/-- CACHEINV: every entry, or those of one module. -/
def execCacheinv (m : Hdr) (key : List Byte) (s : State) : Out :=
  .next (if key.length ≠ 32 then reply m 0x14 1 [] s
    else inSession m 0x14 (fun s =>
      if mgmtBusy s m.ctx then s
      else reply m 0x14 0 [] { s with ctl := discardFlash (fun f => beNat key ≠ 0 && f.digest ≠ beNat key) s.ctl }) s)

/-! ## UNLOAD (R362) -/

/-- A byte address lies in an object's code. -/
def inCode (o : Obj) (a : Nat) : Bool := decide (o.code ≤ a ∧ a < o.code + 4 * o.codeLen)

/-- A gang, or an instance, of the context runs an object's code. -/
def runsCode (s : State) (ctx : Nat) (o : Obj) : Bool :=
  (sentries s.gangs).any (fun e => e.2.ctx = ctx && (inCode o (4 * e.2.entry) || inCode o (4 * e.2.idemPc)
      || (match e.2.region with
        | some r => inCode o (4 * r.exitPc)
        | none => (sentries e.2.groups).any fun r => inCode o (4 * r.2.pc))))
    || (sentries s.insts).any fun e => e.2.ctx = ctx && inCode o (4 * e.2.pc)

def unloadRefused (s : State) (ctx : Nat) (o : Obj) : Bool :=
  let x := ctxD s ctx
  x.objs.any (fun p => p.handle ≠ o.handle && p.uses.contains o.handle)
    || (sentries s.pool).any (fun e => e.2.ctx = ctx && (let k := (rPair e.2.rcd 0).toNat
        inCode o k || decide (o.data ≤ k ∧ k < o.data + o.dataLen)))
    || runsCode s ctx o || inCode o (4 * x.trapEntry.toNat)

/-- A page that a load mapped is unmapped, and its frame freed. -/
def unmapPage (ctx page : Nat) (msg : Option Nat) (s : State) : State :=
  match walkTable s 0 ctx (page * 0x10000) 0 with
  | .leaf pa _ _ _ _ at_ _ _ =>
    let s := putEntry msg at_ 0 s
    { s with ctl := { s.ctl with frames := sset 0 s.ctl.frames (pa / 0x10000) 0 } }
  | _ => s

/-- Releases of an object's regions, with FORCE: the first refusal, or the state. -/
def releaseAllRegions (ctx : Nat) : List Nat → State → Except Nat State
  | [], s => .ok s
  | i :: is, s => match releaseStatus s ctx i true with
    | 0 => releaseAllRegions ctx is (release 0 ctx i s)
    | n => .error n

/-- The images are unsealed: the first refusal, or the state. -/
def unsealAll (ctx : Nat) : List Nat → State → Except Nat State
  | [], s => .ok s
  | i :: is, s => match unsealStatus s ctx (w32 i) with
    | 0 => unsealAll ctx is (updCtx s ctx fun x => { x with images := sset none x.images i none })
    | n => .error n

def unloadObj (m : Hdr) (o : Obj) (s : State) : State :=
  match unsealAll m.ctx o.images s with
  | .error n => reply m 0x12 (n * 256 + 22) [] s
  | .ok s1 => match releaseAllRegions m.ctx o.regions s1 with
    | .error n => reply m 0x12 (n * 256 + 23) [] s
    | .ok s2 =>
      let id := s2.next
      let s2 := awaitReply m 0x12 (fun h => h) s2
      let s2 := o.pages.foldl (fun s p => invalidate m.ctx (some p) (unmapPage m.ctx p (some id) s)) s2
      answerHost (updCtx s2 m.ctx fun x => { x with
        objs := x.objs.filter fun p => p.handle ≠ o.handle
        serving := x.serving.filter fun d => d.handle ≠ o.handle })

def execUnload (m : Hdr) (handle : Word) (s : State) : Out :=
  .next (inSession m 0x12 (fun s =>
    if mgmtBusy s m.ctx then s
    else match (ctxD s m.ctx).objs.find? fun o => o.handle = handle.toNat with
      | none => reply m 0x12 25 [] s
      | some o => if unloadRefused s m.ctx o then reply m 0x12 25 [] s else unloadObj m o s) s)

/-! ## HANDLER (R361) -/

/-- The word address that a serving code label or kernel names. -/
def handlerEntry (s : State) (ctx : Nat) (d : Serving) : Option Nat :=
  match d.sym.kind, (ctxD s ctx).objs.find? fun o => o.handle = d.handle with
  | 0, _ => some (d.sym.addr.toNat / 4)
  | 1, some o => match hostWord s 0 ctx d.sym.addr with
    | .ok w => some (o.code / 4 + w.toNat)
    | .error _ => none
  | _, _ => none

def execHandlerName (m : Hdr) (name : List Byte) (s : State) : Out :=
  .next (inSession m 0x13 (fun s =>
    if mgmtBusy s m.ctx then s
    else match ((ctxD s m.ctx).serving.find? fun d => d.name = name).bind fun d =>
        (handlerEntry s m.ctx d).map fun e => (d, e) with
      | none => reply m 0x13 26 [] s
      | some (d, e) =>
        let stamp := (((ctxD s m.ctx).objs.find? fun o => o.handle = d.handle).map Obj.stamp).getD 0
        reply m 0x13 0 (natLe 4 e) (updCtx s m.ctx fun x => { x with
          trapEntry := w32 e, trapValid := true, handlerHinted := stamp = Config.stepping })) s)

end Sys2Proof.Machine
end

