-- ==== Sys2Proof/Machine/Controller.lean ====
section
/-!
DEFINITION. The module controller: power and firmware (R365, R366), the lifecycle and the debug port (R338,
R367), contexts and HEALTH (R368), operating points (R369), errors, fencing and undervolting (R370–R373).
-/
namespace Sys2Proof.Machine

def updCtl (s : State) (f : Controller → Controller) : State := { s with ctl := f s.ctl }

/-! ## Power (R364, R365) -/

/-- Power is gone: fuses and flash remain (lifecycle, Flashing, the fence map), and so do the messages
already sent and the model's own fields. -/
def powerOff (s : State) : State :=
  let fenced (e : Nat × CoreSt) : Option (Nat × CoreSt) := if e.2.fenced then some (e.1, { fenced := true }) else none
  { State.reset with
    cores := s.cores.filterMap fenced, outbox := s.outbox, clk := s.clk, usec := s.usec, next := s.next
    agenda := s.agenda, defers := s.defers, turn := s.turn, fresh := s.fresh, shadow := s.shadow
    ctl := { off := true, lifecycle := s.ctl.lifecycle, flashing := s.ctl.flashing, erases := s.ctl.erases } }

/-- POWER_LOSS. -/
def execPowerLoss (s : State) : Out := .next (powerOff s)

/-- POWER_UP: the dies are held in reset; Flashing entries without a commit record are discarded. -/
def execPowerUp (s : State) : Out :=
  .next (if s.ctl.off then
      updCtl s fun c => { (discardFlash Flash.committed c) with off := false, up := false }
    else s)

/-! ## Firmware (R365, R366) -/

/-- The first failing check of an image, or 0. -/
def fwStatus (s : State) (bad : Bool) (image : List Byte) : Nat :=
  if bad || !Config.fwHeaderOk image then 16
  else if !Config.fwSigned image then 17
  else if (Config.fwVersion image).toNat < Config.minSecurityVersion.toNat then 18
  else if s.ctl.lifecycle = 0 ∨ s.ctl.lifecycle = 4 then 19
  else 0

/-- Cores fenced, ascending. -/
def fencedCores (s : State) : List Nat := (s.cores.filter fun c => c.2.fenced).map Prod.fst

/-- An accepted image: M0, M1 and M2 are extended, the dies leave reset, and the management context exists,
with a key of its own and a heap of 1 048 576 lines (DESIGN CHOICE, log entry 109). -/
def boot (image : List Byte) (s : State) : State :=
  let s := extendMeas 2 (Config.fenceMapDigest (fencedCores s)).toNat
    (extendMeas 1 Config.calibrationDigest.toNat (extendMeas 0 (sha256 image) s))
  let s := updCtl s fun c => { c with
    up := true, resetAt := s.usec, mgmtKeys := Config.fwKeys image, retention := Config.retention }
  taken { s with ctxs := sset none s.ctxs 1 (some { vheap := 1048576, key := s.next }) }

/-- The last message of an image: it is checked, and discarded when refused. -/
def fwLast (m : Hdr) (bad : Bool) (image : List Byte) (s : State) : State :=
  let s := updCtl s fun c => { c with fw := [], fwNext := 0, fwBad := false }
  match fwStatus s bad image with
  | 0 => reply m 0x18 0 [] (boot image s)
  | n => reply m 0x18 n [] s

/-- FWLOAD. -/
def execFwload (m : Hdr) (piece : Word) (bytes : List Byte) (s : State) : Out :=
  .next (
    if s.ctl.off then s
    else if bytes.length > 0x2FFFC then reply m 0x18 1 [] s
    else if s.ctl.up then reply m 0x18 5 [] s
    else if m.ctx ≠ 0 then reply m 0x18 2 [] s
    else
      let bad := s.ctl.fwBad || decide (bits piece 0 31 ≠ s.ctl.fwNext)
      let image := s.ctl.fw ++ bytes
      if piece.getLsbD 31 then fwLast m bad image s
      else reply m 0x18 0 [] (updCtl s fun c => { c with fw := image, fwNext := c.fwNext + bytes.length, fwBad := bad }))

/-! ## Lifecycle and debug port (R338, R367) -/

/-- The debug port is open. -/
def portOpen (s : State) : Bool :=
  !s.ctl.off && s.ctl.lifecycle ≠ 4 && (s.ctl.lifecycle ≠ 2 || s.ctl.port)

/-- LIFECYCLE_ADVANCE: the fused STATE goes one of the allowed steps. -/
def execLifecycleAdvance (st : BitVec 3) (s : State) : Out :=
  .next (if portOpen s && (st = 4 || (s.ctl.lifecycle.toNat < 3 && st = s.ctl.lifecycle + 1)) then
      updCtl s fun c => { c with lifecycle := st }
    else s)

/-- A unit that the debug port may stop: it runs or waits on its core, and no cause has stopped it. -/
def debuggable (s : State) (u : UView) : Bool :=
  u.lanes ≠ [] && (match waitOf s u with
    | some ⟨.stopped _, _⟩ => false
    | _ => true)
    && (match u.kind with
      | .grp _ => match u.gk.bind (gang? s) with
        | some g => g.place = .resident && !g.dead
        | none => false
      | .inst id => match inst? s id with
        | some i => i.set.isSome && !i.stopped
        | none => false)

/-- DEBUG_PORT_REQUEST: a breakpoint (0x3B, with its number) or a single step (0x3C) at a unit's word. -/
def execDebugPortRequest (u : UnitRef) (step : Bool) (bp : BitVec 32) (s : State) : Out :=
  .next (if !portOpen s then s
    else match viewOf s u with
      | none => s
      | some v =>
        if debuggable s v then
          let c : Cause := { code := if step then 0x3C else 0x3B, d0 := if step then 0 else bp
                             source := (Config.freeWord (s.fresh * 64)).toNat % 9 }
          drawn (raise c (waitLanes s v) v s)
        else s)

/-! ## Contexts (R368) -/

/-- Messages held for a context go out on a session. -/
def releaseHeld (ctx ses : Nat) (s : State) : State :=
  { s with outbox := s.outbox ++ (s.held.filter fun x => x.ctx = ctx).map fun x => { x with ses := ses }
           held := s.held.filter fun x => x.ctx ≠ ctx }

/-- A session is bound to a context. -/
def bind (m : Hdr) (ctx : Nat) (s : State) : State :=
  releaseHeld ctx m.ses (setSession m.ses (fun _ => { ctx := ctx }) s)

/-- The near tier holds one more version heap of `lines` lines. -/
def heapFits (s : State) (lines : Nat) : Bool :=
  decide (((sentries s.ctxs).foldl (fun a c => a + c.2.vheap * 64) 0) + s.ctl.frames.length * 0x10000 + lines * 64
    ≤ Config.nearBytes)

/-- A tenant context is created, with a key of its own. -/
def openTenant (m : Hdr) (eaves : BitVec 16) (lines : Nat) (s : State) : State :=
  let n := s.ctl.nextCtx
  let x : Context := { eaves := eaves, vheap := lines, key := s.next }
  let s := taken { s with ctxs := sset none s.ctxs n (some x), ctl := { s.ctl with nextCtx := n + 1 } }
  reply m 0x19 0 (natLe 4 n) (bind m n s)

/-- OPEN of a tenant context. -/
def tryTenant (m : Hdr) (w1 w2 : Word) (s : State) : State :=
  let lines := if w2 = 0 then 1048576 else w2.toNat
  if bits w1 16 16 ≠ 0 then reply m 0x19 1 [] s
  else if s.ctl.lifecycle = 3 ∨ s.ctl.lifecycle = 4 then reply m 0x19 2 [] s
  else if (sentries s.ctxs).any fun c => (c.2.eaves &&& w1.setWidth 16) ≠ 0 then reply m 0x19 5 [] s
  else if !heapFits s lines || s.ctl.nextCtx > 0xFFFF then reply m 0x19 5 [] s
  else openTenant m (w1.setWidth 16) lines s

/-- OPEN of the management context: the session's key digest is in the image's list. -/
def tryManagement (m : Hdr) (w1 : Word) (psk : List Byte) (s : State) : State :=
  if w1 = 0 && s.ctl.mgmtKeys.contains (sha256 psk) then reply m 0x19 0 (natLe 4 1) (bind m 1 s)
  else reply m 0x19 2 [] s

/-- OPEN. -/
def execOpenCtx (m : Hdr) (payload : List Word) (psk : List Byte) (s : State) : Out :=
  .next (
    if !s.ctl.up || m.ctx ≠ 0 || (sessionOf s m.ses).ctx ≠ 0 then reply m 0x19 2 [] s
    else match payload with
      | [w0, w1] => if w0 = 0 then tryTenant m w1 0 s else if w0 = 1 then tryManagement m w1 psk s else reply m 0x19 1 [] s
      | [w0, w1, w2] => if w0 = 0 then tryTenant m w1 w2 s else reply m 0x19 1 [] s
      | _ => reply m 0x19 1 [] s)

/-- END. -/
def execEndCtx (m : Hdr) (s : State) : Out :=
  .next (inSession m 0x1A (fun s =>
    if m.ctx = 1 then reply m 0x1A 2 [] s else reply m 0x1A 0 [] (endContext false 2 m.ctx s)) s)

/-- The answer to HEALTH: SYS.POWER and SYS.CAPACITY. -/
def healthReply (m : Hdr) (s : State) : State :=
  drawn (reply m 0x1B 0 (natLe 4 (powerWord s).toNat ++ natLe 4 (capacityWord s).toNat) s)

/-- HEALTH: before firmware, with CTX 0 on any session. -/
def execHealthQ (m : Hdr) (s : State) : Out :=
  .next (if s.ctl.up then inSession m 0x1B (healthReply m) s
    else if m.ctx = 0 then healthReply m s
    else reply m 0x1B 2 [] s)

/-! ## Operating points (R369) -/

/-- OPP_LOWER: the point goes down one step, unless a change is under way or it is the lowest. -/
def execOppLower (s : State) : Out :=
  .next (if s.ctl.off then s
    else updCtl s fun c =>
      let c := { c with oppAbsent := some s.usec }
      if c.oppChanging || c.opp ≥ 2 then c else { c with opp := c.opp + 1, oppChanging := true, oppSince := s.usec })

/-- OPP_RAISE: the condition has been absent for 100 ms; time moves there. -/
def execOppRaise (s : State) : Out :=
  .next (match s.ctl.oppAbsent with
    | none => s
    | some t =>
      if s.ctl.off || s.ctl.oppChanging || s.ctl.opp = 0 then s
      else
        let s := usecTo (t + 100000) s
        updCtl s fun c => { c with opp := c.opp - 1, oppChanging := true, oppSince := s.usec })

/-- OPP_CHANGE_COMPLETE: 20 µs have passed since the change began. -/
def execOppChangeComplete (s : State) : Out :=
  .next (if s.ctl.oppChanging then updCtl (usecTo (s.ctl.oppSince + 20) s) fun c => { c with oppChanging := false } else s)

/-- Detail word 0 of cause 0x3D (R371). -/
def machineCheck (source core : Nat) : Word := w32 (source + core % 1024 * 256)

/-- OVER_LIMIT_SHUTDOWN: every context receives 0x3D, and the module powers down. -/
def execOverLimitShutdown (rail : Bool) (core : Nat) (s : State) : Out :=
  .next (if s.ctl.off || (!rail && s.ctl.opp ≠ 2) then s
    else powerOff ((skeys s.ctxs).foldl (fun s c =>
      raiseDetached (homeCore s c) c { code := 0x3D, d0 := machineCheck (if rail then 3 else 2) core } false false 0 false s) s))

/-! ## Detection and fencing (R370–R372) -/

/-- SCRUB_VISIT: a line of 256 bytes is read; corrected errors are counted and written back. -/
def execScrubVisit (purlin : Bool) (unit addr : Nat) (s : State) : Out :=
  let loc := (if purlin then purlinLoc unit (addr / 256 * 256) else spLoc unit (addr / 256 * 256)) / 4
  let here (e : Nat × Nat) : Bool := decide (loc ≤ e.1 ∧ e.1 < loc + 64 ∧ e.2 = 1)
  let array := if purlin then 1024 + unit else unit
  .next (if (if purlin then unit < Config.dies && addr < 0x80000000 else unit < Config.cores && addr < Config.spBytes) then
      { s with
        bad := s.bad.filter fun e => !here e
        ctl := { s.ctl with
          errors := sset 0 s.ctl.errors array (sget 0 s.ctl.errors array + (s.bad.filter here).length) } }
    else s)

/-- Contexts with a gang on a core. -/
def contextsOn (s : State) (core : Nat) : List Nat :=
  lsort (((sentries s.gangs).filter fun e => e.2.core = core).map fun e => e.2.ctx)

/-- A core is fenced (R372): its gangs' contexts stop with source 4, and it admits nothing further. -/
def fenceCore (core : Nat) (s : State) : State :=
  let s := (contextsOn s core).foldl (fun s c => faultContext c { code := 0x3D, d0 := machineCheck 4 core } s) s
  updCore s core fun c => { c with fenced := true }

/-- CONTROL_PARITY_ERROR. -/
def execControlParityError (core : Nat) (s : State) : Out :=
  .next (if s.ctl.up && core < Config.cores then
      fenceCore core ((contextsOn s core).foldl (fun s c =>
        raiseDetached core c { code := 0x3D, d0 := machineCheck 1 core
                               source := (Config.freeWord (s.fresh * 64)).toNat % 9 } false false 0 false s) (drawn s))
    else s)

/-! ## Undervolting (R373) -/

/-- RAIL_UNDERVOLT: never again before the next power-up once an excess has withdrawn it. -/
def execRailUndervolt (core : Nat) (s : State) : Out :=
  .next (if s.ctl.off || core ≥ Config.cores || (coreOf s core).noUndervolt then s
    else updCore s core fun c => { c with undervolt := true })

/-- ERROR_RATE_THRESHOLD: undervolting is withdrawn within 1 ms, and the watch of 10 s starts once the rail
is at nominal. -/
def execErrorRateThreshold (core : Nat) (s : State) : Out :=
  .next (if s.ctl.off || core ≥ Config.cores || (coreOf s core).watch.isSome then s
    else updCore s core fun c => { c with
      watch := some (if c.undervolt then s.usec + 1000 else s.usec), undervolt := false, noUndervolt := true })

/-- ERROR_RATE_BELOW_THRESHOLD: the watch ends without a flag. -/
def execErrorRateBelowThreshold (core : Nat) (s : State) : Out :=
  .next (updCore s core fun c => { c with watch := none })

/-- PREDICTIVE_FAILURE_TIMEOUT: 10 s of excess at nominal voltage; the flag is raised and the core fenced. -/
def execPredictiveFailureTimeout (core : Nat) (s : State) : Out :=
  .next (match (coreOf s core).watch with
    | none => s
    | some t =>
      fenceCore core (updCore (usecTo (t + 10000000) s) core fun c =>
        { c with pf := true, watch := none }))

end Sys2Proof.Machine
end

