-- ==== Sys2Proof/Machine/Float.lean ====
section
/-!
DEFINITION. The float instructions, lane pipe 0x40–0x5F (R150–R156).
-/
namespace Sys2Proof.Machine

/-- The bits of a 16- or 32-bit operand (R137). -/
def opBits (f : Fmt) (x : Word) : Nat := if f.fb = 23 then x.toNat else x.toNat % 0x10000

def fval (f : Fmt) (x : Word) : FVal := unpack f (opBits f x)

def asWord (r : FRes) : Word × FFlags := (w32 r.1, r.2)

/-- Binary shape of R150 in a format. -/
def float2 (i : Instr) (f : Fmt) (o : O3) (op : FVal → FVal → FRes) (s : State) : Out :=
  floats i (need3 .lane o) o.d (some (.float f)) (fun rd => asWord (op (fval f (rd o.a)) (fval f (rd o.b)))) s

/-- FFMA: D is the addend. -/
def float3 (i : Instr) (f : Fmt) (o : O3) (s : State) : Out :=
  floats i (needT .lane o) o.d (some (.float f))
    (fun rd => asWord (fFma f (fval f (rd o.a)) (fval f (rd o.b)) (fval f (rd o.d)))) s

/-- FMIN and FMAX. -/
def floatMM (i : Instr) (f : Fmt) (isMax : Bool) (o : O3) (s : State) : Out :=
  floats i (need3 .lane o) o.d (some (.float f))
    (fun rd => asWord (fMinMax f isMax (opBits f (rd o.a)) (opBits f (rd o.b)))) s

/-- The compares of R152. -/
def floatCmp (i : Instr) (o : O3) (quietInvalid : Bool) (rel : FVal → FVal → Bool) (s : State) : Out :=
  floats i (need3 .lane o) o.d none
    (fun rd =>
      let a := fval f32 (rd o.a)
      let b := fval f32 (rd o.b)
      (boolWord (rel a b),
        if quietInvalid then (if a.isNan || b.isNan then 1 else 0) else snanFlag [a, b])) s

/-- The format that SEL6 selects (R150). -/
def selFmt (e : BitVec 6) : Fmt := if e = 0#6 then f32 else if e = 1#6 then f16 else bf16

/-- Unary shape of R150: SEL6 stands in the B field. -/
def floatUn (i : Instr) (o : O3) (checked : Bool) (op : Fmt → Nat → FRes) (s : State) : Out :=
  floats i (needI .lane o) o.d (if checked then some (.float (selFmt o.b)) else none)
    (fun rd => asWord (op (selFmt o.b) (opBits (selFmt o.b) (rd o.a)))) s

def execFaddF32 (o : O3) (s : State) : Out := float2 (.faddF32 o) f32 o (fAdd f32) s
def execFsubF32 (o : O3) (s : State) : Out := float2 (.fsubF32 o) f32 o (fSub f32) s
def execFmulF32 (o : O3) (s : State) : Out := float2 (.fmulF32 o) f32 o (fMul f32) s
def execFfmaF32 (o : O3) (s : State) : Out := float3 (.ffmaF32 o) f32 o s
def execFminF32 (o : O3) (s : State) : Out := floatMM (.fminF32 o) f32 false o s
def execFmaxF32 (o : O3) (s : State) : Out := floatMM (.fmaxF32 o) f32 true o s
def execFaddF16 (o : O3) (s : State) : Out := float2 (.faddF16 o) f16 o (fAdd f16) s
def execFsubF16 (o : O3) (s : State) : Out := float2 (.fsubF16 o) f16 o (fSub f16) s
def execFmulF16 (o : O3) (s : State) : Out := float2 (.fmulF16 o) f16 o (fMul f16) s
def execFfmaF16 (o : O3) (s : State) : Out := float3 (.ffmaF16 o) f16 o s
def execFminF16 (o : O3) (s : State) : Out := floatMM (.fminF16 o) f16 false o s
def execFmaxF16 (o : O3) (s : State) : Out := floatMM (.fmaxF16 o) f16 true o s
def execFaddBf16 (o : O3) (s : State) : Out := float2 (.faddBf16 o) bf16 o (fAdd bf16) s
def execFsubBf16 (o : O3) (s : State) : Out := float2 (.fsubBf16 o) bf16 o (fSub bf16) s
def execFmulBf16 (o : O3) (s : State) : Out := float2 (.fmulBf16 o) bf16 o (fMul bf16) s
def execFfmaBf16 (o : O3) (s : State) : Out := float3 (.ffmaBf16 o) bf16 o s
def execFminBf16 (o : O3) (s : State) : Out := floatMM (.fminBf16 o) bf16 false o s
def execFmaxBf16 (o : O3) (s : State) : Out := floatMM (.fmaxBf16 o) bf16 true o s
def execFcmpEq (o : O3) (s : State) : Out := floatCmp (.fcmpEq o) o false fEq s
def execFcmpLt (o : O3) (s : State) : Out := floatCmp (.fcmpLt o) o true fLt s
def execFcmpLe (o : O3) (s : State) : Out := floatCmp (.fcmpLe o) o true (fun a b => fLt a b || fEq a b) s
def execFcmpUn (o : O3) (s : State) : Out := floatCmp (.fcmpUn o) o false (fun a b => a.isNan || b.isNan) s

/-- FSCALE (R153): B is a signed power of two. -/
def execFscale (o : O3) (s : State) : Out :=
  floats (.fscale o) (need3 .lane o) o.d (some (.float f32))
    (fun rd => asWord (fScale f32 (rd o.a).toNat (rd o.b).toInt)) s

/-- FABS and FNEG change the sign bit alone and signal nothing (R144, R154). -/
def execFabs (o : O3) (s : State) : Out :=
  floatUn (.fabs o) o false (fun f x => (x % f.signBit, 0)) s
def execFneg (o : O3) (s : State) : Out :=
  floatUn (.fneg o) o false (fun f x => ((x + f.signBit) % (2 * f.signBit), 0)) s
def execFrcp (o : O3) (s : State) : Out := floatUn (.frcp o) o true (fun f x => fRcp f (unpack f x)) s
def execFrsq (o : O3) (s : State) : Out := floatUn (.frsq o) o true (fun f x => fRsq f (unpack f x)) s
def execFsqrt (o : O3) (s : State) : Out := floatUn (.fsqrt o) o true (fun f x => fSqrt f (unpack f x)) s
def execFexp2 (o : O3) (s : State) : Out := floatUn (.fexp2 o) o true (fun f x => fExp2 f (unpack f x)) s
def execFlog2 (o : O3) (s : State) : Out := floatUn (.flog2 o) o true (fun f x => fLog2 f (unpack f x)) s

/-- The conversions of R155 by code. -/
def convert (code : Nat) (a : Word) : Word × FFlags :=
  let rtz := code % 2 = 1
  if code < 0x02 then asWord (fCvt f16 rtz (fval f32 a))
  else if code < 0x04 then asWord (fCvt bf16 rtz (fval f32 a))
  else if code = 0x04 then asWord (fCvt f32 false (fval f16 a))
  else if code = 0x05 then asWord (fCvt f32 false (fval bf16 a))
  else if code < 0x08 then asWord (fCvt bf16 rtz (fval f16 a))
  else if code < 0x0A then asWord (fCvt f16 rtz (fval bf16 a))
  else if code < 0x12 then
    let r := fToInt rtz (-0x80000000) 0x7FFFFFFF (fval f32 a)
    (BitVec.ofInt 32 r.1, r.2)
  else if code < 0x14 then
    let r := fToInt rtz 0 0xFFFFFFFF (fval f32 a)
    (BitVec.ofInt 32 r.1, r.2)
  else if code < 0x1A then asWord (fFromInt rtz a.toInt)
  else asWord (fFromInt rtz a.toNat)

/-- The kind of a conversion's result. -/
def convertFmt (code : Nat) : ResFmt :=
  if code < 0x02 then .float f16
  else if code < 0x04 then .float bf16
  else if code < 0x06 then .float f32
  else if code < 0x08 then .float bf16
  else if code < 0x0A then .float f16
  else if code < 0x12 then .int true
  else if code < 0x14 then .int false
  else .float f32

def execFcvt (o : O3) (s : State) : Out :=
  floats (.fcvt o) (needI .lane o) o.d (some (convertFmt o.b.toNat)) (fun rd => convert o.b.toNat (rd o.a)) s

def execFclass (o : O3) (s : State) : Out := floatUn (.fclass o) o false (fun f x => (fClass f x, 0)) s

end Sys2Proof.Machine
end

