-- ==== Sys2Proof/Machine/IntAlu.lean ====
section
/-!
DEFINITION. Integer, logic, shift, bit-field, compare and move instructions, opcodes 0x00–0x3E of
both pipes (R86–R101).
-/
namespace Sys2Proof.Machine

/-! ## The functions -/

/-- An exact integer clamped to a range (R91). -/
def clampI (lo hi x : Int) : Int := if x < lo then lo else if hi < x then hi else x

/-- An integer as a 32-bit word, two's complement. -/
def wordI (x : Int) : Word := BitVec.ofInt 32 x

def satS32 (x : Int) : Word := wordI (clampI (-0x80000000) 0x7FFFFFFF x)
def satN32 (x : Int) : Word := wordI (clampI 0 0xFFFFFFFF x)
def satS16 (x : Int) : Word := wordI (clampI (-0x8000) 0x7FFF x)
def satN16 (x : Int) : Word := wordI (clampI 0 0xFFFF x)

/-- Bits 15:0 of an operand (R89). -/
def low16 (x : Word) : Half := x.extractLsb' 0 16
def sext16 (x : Half) : Word := x.signExtend 32
def zext16 (x : Half) : Word := x.setWidth 32

/-- Shifts with a count in a word (R96). -/
def shlW (a n : Word) : Word := if n.toNat ≥ 32 then 0 else a <<< n.toNat
def shrW (a n : Word) : Word := if n.toNat ≥ 32 then 0 else a >>> n.toNat
def sarW (a n : Word) : Word := if n.toNat ≥ 32 then a.sshiftRight 31 else a.sshiftRight n.toNat
def rotW (a n : Word) : Word := a.rotateLeft (n.toNat % 32)

/-- The field of R97: position, width, mask. -/
def fieldPos (b : Word) : Nat := b.toNat % 32
def fieldWidth (b : Word) : Nat := min (b.toNat / 256 % 64) (32 - fieldPos b)
def fieldMask (b : Word) : Word := w32 ((2 ^ fieldWidth b - 1) * 2 ^ fieldPos b)
def bfxN (a b : Word) : Word := (a &&& fieldMask b) >>> fieldPos b
def bfxS (a b : Word) : Word :=
  let w := fieldWidth b
  let x := (bfxN a b).toNat
  if w = 0 then 0 else if x ≥ 2 ^ (w - 1) then w32 (x + 0x100000000 - 2 ^ w) else w32 x
def bfiW (d a b : Word) : Word := (d &&& ~~~ fieldMask b) ||| ((a <<< fieldPos b) &&& fieldMask b)

/-- The number of one bits among the lowest `n` (R98). -/
def onesBelow (x : Word) : Nat → Nat
  | 0 => 0
  | n + 1 => onesBelow x n + (if x.getLsbD n then 1 else 0)
def popcW (x : Word) : Word := w32 (onesBelow x 32)

/-- The number of zero bits above the highest one bit among the lowest `n`. -/
def zerosFrom (x : Word) : Nat → Nat
  | 0 => 0
  | n + 1 => if x.getLsbD n then 0 else zerosFrom x n + 1
def clzW (x : Word) : Word := w32 (zerosFrom x 32)
def brevW (x : Word) : Word := x.reverse

def absW (a : Word) : Word := if a.msb then 0 - a else a
def absSatW (a : Word) : Word := if a = 0x80000000#32 then 0x7FFFFFFF#32 else absW a
def mulhS (a b : Word) : Word := (BitVec.ofInt 64 (a.toInt * b.toInt)).extractLsb' 32 32
def mulhN (a b : Word) : Word := (BitVec.ofNat 64 (a.toNat * b.toNat)).extractLsb' 32 32

/-! ## The instructions -/

def execIaddA (p : Pipe) (o : O3) (s : State) : Out := binary (.iaddA p o) p o (· + ·) s
def execIaddI (p : Pipe) (o : O3) (s : State) : Out := immediate (.iaddI p o) p o (· + ·) s
def execIsubA (p : Pipe) (o : O3) (s : State) : Out := binary (.isubA p o) p o (· - ·) s
def execIsubI (p : Pipe) (o : O3) (s : State) : Out := immediate (.isubI p o) p o (· - ·) s
def execImulA (p : Pipe) (o : O3) (s : State) : Out := binary (.imulA p o) p o (· * ·) s
def execImulI (p : Pipe) (o : O3) (s : State) : Out := immediate (.imulI p o) p o (· * ·) s
def execImulhS32 (p : Pipe) (o : O3) (s : State) : Out := binary (.imulhS32 p o) p o mulhS s
def execImulhN32 (p : Pipe) (o : O3) (s : State) : Out := binary (.imulhN32 p o) p o mulhN s
def execImad (p : Pipe) (o : O3) (s : State) : Out := ternary (.imad p o) p o (fun d a b => a * b + d) s
def execIaddSatS32 (p : Pipe) (o : O3) (s : State) : Out :=
  binary (.iaddSatS32 p o) p o (fun a b => satS32 (a.toInt + b.toInt)) s
def execIaddSatN32 (p : Pipe) (o : O3) (s : State) : Out :=
  binary (.iaddSatN32 p o) p o (fun a b => satN32 ((a.toNat : Int) + b.toNat)) s
def execIsubSatS32 (p : Pipe) (o : O3) (s : State) : Out :=
  binary (.isubSatS32 p o) p o (fun a b => satS32 (a.toInt - b.toInt)) s
def execIsubSatN32 (p : Pipe) (o : O3) (s : State) : Out :=
  binary (.isubSatN32 p o) p o (fun a b => satN32 ((a.toNat : Int) - b.toNat)) s
def execIminS32 (p : Pipe) (o : O3) (s : State) : Out :=
  binary (.iminS32 p o) p o (fun a b => if b.slt a then b else a) s
def execIminN32 (p : Pipe) (o : O3) (s : State) : Out :=
  binary (.iminN32 p o) p o (fun a b => if b.ult a then b else a) s
def execImaxS32 (p : Pipe) (o : O3) (s : State) : Out :=
  binary (.imaxS32 p o) p o (fun a b => if a.slt b then b else a) s
def execImaxN32 (p : Pipe) (o : O3) (s : State) : Out :=
  binary (.imaxN32 p o) p o (fun a b => if a.ult b then b else a) s
def execIabs (p : Pipe) (o : O2) (s : State) : Out := unary (.iabs p o) p o absW s
def execIabsSat (p : Pipe) (o : O2) (s : State) : Out := unary (.iabsSat p o) p o absSatW s
def execAndA (p : Pipe) (o : O3) (s : State) : Out := binary (.andA p o) p o (· &&& ·) s
def execOrB (p : Pipe) (o : O3) (s : State) : Out := binary (.orB p o) p o (· ||| ·) s
def execXorB (p : Pipe) (o : O3) (s : State) : Out := binary (.xorB p o) p o (· ^^^ ·) s
def execAndn (p : Pipe) (o : O3) (s : State) : Out := binary (.andn p o) p o (fun a b => a &&& ~~~ b) s
def execAndI (p : Pipe) (o : O3) (s : State) : Out := immediate (.andI p o) p o (· &&& ·) s
def execShlA (p : Pipe) (o : O3) (s : State) : Out := binary (.shlA p o) p o shlW s
def execShlI (p : Pipe) (o : O3) (s : State) : Out := shiftImm (.shlI p o) p o shlW s
def execShrA (p : Pipe) (o : O3) (s : State) : Out := binary (.shrA p o) p o shrW s
def execShrI (p : Pipe) (o : O3) (s : State) : Out := shiftImm (.shrI p o) p o shrW s
def execSarA (p : Pipe) (o : O3) (s : State) : Out := binary (.sarA p o) p o sarW s
def execSarI (p : Pipe) (o : O3) (s : State) : Out := shiftImm (.sarI p o) p o sarW s
def execRotA (p : Pipe) (o : O3) (s : State) : Out := binary (.rotA p o) p o rotW s
def execRotI (p : Pipe) (o : O3) (s : State) : Out := shiftImm (.rotI p o) p o rotW s
def execBfxN32 (p : Pipe) (o : O3) (s : State) : Out := binary (.bfxN32 p o) p o bfxN s
def execBfxS32 (p : Pipe) (o : O3) (s : State) : Out := binary (.bfxS32 p o) p o bfxS s
def execBfi (p : Pipe) (o : O3) (s : State) : Out := ternary (.bfi p o) p o bfiW s
def execPopc (p : Pipe) (o : O2) (s : State) : Out := unary (.popc p o) p o popcW s
def execClz (p : Pipe) (o : O2) (s : State) : Out := unary (.clz p o) p o clzW s
def execBrev (p : Pipe) (o : O2) (s : State) : Out := unary (.brev p o) p o brevW s
def execMov (p : Pipe) (o : O2) (s : State) : Out := unary (.mov p o) p o id s

/-- LEA (R94): D and D + 1 take the 64-bit sum; the low half shifts into the latches, and older
entries that record D or D + 1 take NONE. -/
def execLea (p : Pipe) (o : O3n) (s : State) : Out :=
  issue (.lea p o)
    { pipe := p, strand := o.s, dst := some o.d, pairD := true, limits := o.a.toNat < 59
      srcs := [o.a, o.a + 1, o.b] }
    (fun u acts s =>
      let sum (rd : BitVec 6 → Word) : Dword := pair (rd o.a) (rd (o.a + 1)) + (rd o.b).signExtend 64
      let s' := setLatches s u p (dropReg (latches s u p) (o.d.toNat + 1))
      match p with
      | .lane =>
        let rs := acts.map fun l => (l, sum fun x => vsrc s u x l)
        let s' := setVregs s' u (o.d.toNat + 1) (rs.map fun e => (e.1, hi32 e.2))
        advance (laneResult o.d false (rs.map fun e => (e.1, lo32 e.2)) u s') u
      | .gang =>
        let x := sum fun x => gsrc s u x
        advance (gangResult o.d false (lo32 x) u (setGreg s' u (o.d.toNat + 1) (hi32 x))) u) s

def execIcmpEq (p : Pipe) (o : O3) (s : State) : Out :=
  binary (.icmpEq p o) p o (fun a b => boolWord (a == b)) s
def execIcmpNe (p : Pipe) (o : O3) (s : State) : Out :=
  binary (.icmpNe p o) p o (fun a b => boolWord (a != b)) s
def execIcmpLtS32 (p : Pipe) (o : O3) (s : State) : Out :=
  binary (.icmpLtS32 p o) p o (fun a b => boolWord (a.slt b)) s
def execIcmpLeS32 (p : Pipe) (o : O3) (s : State) : Out :=
  binary (.icmpLeS32 p o) p o (fun a b => boolWord (a.sle b)) s
def execIcmpGtS32 (p : Pipe) (o : O3) (s : State) : Out :=
  binary (.icmpGtS32 p o) p o (fun a b => boolWord (b.slt a)) s
def execIcmpGeS32 (p : Pipe) (o : O3) (s : State) : Out :=
  binary (.icmpGeS32 p o) p o (fun a b => boolWord (b.sle a)) s
def execIcmpLtN32 (p : Pipe) (o : O3) (s : State) : Out :=
  binary (.icmpLtN32 p o) p o (fun a b => boolWord (a.ult b)) s
def execIcmpLeN32 (p : Pipe) (o : O3) (s : State) : Out :=
  binary (.icmpLeN32 p o) p o (fun a b => boolWord (a.ule b)) s
def execIcmpGtN32 (p : Pipe) (o : O3) (s : State) : Out :=
  binary (.icmpGtN32 p o) p o (fun a b => boolWord (b.ult a)) s
def execIcmpGeN32 (p : Pipe) (o : O3) (s : State) : Out :=
  binary (.icmpGeN32 p o) p o (fun a b => boolWord (b.ule a)) s
def execSel (p : Pipe) (o : O3) (s : State) : Out :=
  ternary (.sel p o) p o (fun d a b => if d ≠ 0 then a else b) s

def execIaddSatS16 (p : Pipe) (o : O3) (s : State) : Out :=
  binary (.iaddSatS16 p o) p o (fun a b => satS16 ((low16 a).toInt + (low16 b).toInt)) s
def execIaddSatN16 (p : Pipe) (o : O3) (s : State) : Out :=
  binary (.iaddSatN16 p o) p o (fun a b => satN16 (((low16 a).toNat : Int) + (low16 b).toNat)) s
def execIsubSatS16 (p : Pipe) (o : O3) (s : State) : Out :=
  binary (.isubSatS16 p o) p o (fun a b => satS16 ((low16 a).toInt - (low16 b).toInt)) s
def execIsubSatN16 (p : Pipe) (o : O3) (s : State) : Out :=
  binary (.isubSatN16 p o) p o (fun a b => satN16 (((low16 a).toNat : Int) - (low16 b).toNat)) s
def execIaddS16 (p : Pipe) (o : O3) (s : State) : Out :=
  binary (.iaddS16 p o) p o (fun a b => sext16 (low16 a + low16 b)) s
def execIaddN16 (p : Pipe) (o : O3) (s : State) : Out :=
  binary (.iaddN16 p o) p o (fun a b => zext16 (low16 a + low16 b)) s
def execIsubS16 (p : Pipe) (o : O3) (s : State) : Out :=
  binary (.isubS16 p o) p o (fun a b => sext16 (low16 a - low16 b)) s
def execIsubN16 (p : Pipe) (o : O3) (s : State) : Out :=
  binary (.isubN16 p o) p o (fun a b => zext16 (low16 a - low16 b)) s
def execImulS16 (p : Pipe) (o : O3) (s : State) : Out :=
  binary (.imulS16 p o) p o (fun a b => sext16 (low16 a * low16 b)) s
def execImulN16 (p : Pipe) (o : O3) (s : State) : Out :=
  binary (.imulN16 p o) p o (fun a b => zext16 (low16 a * low16 b)) s
def execImulSat (p : Pipe) (o : O3) (s : State) : Out :=
  binary (.imulSat p o) p o (fun a b => satS32 (a.toInt * b.toInt)) s

/-- MOVL and MOVH (R58, R101): strand 0, the register written. -/
def execMovl (p : Pipe) (d : BitVec 6) (m : BitVec 16) (s : State) : Out :=
  computes (.movl p d m) { pipe := p, dst := some d } d (fun _ => m.setWidth 32) s
def execMovh (p : Pipe) (d : BitVec 6) (m : BitVec 16) (s : State) : Out :=
  computes (.movh p d m) { pipe := p, dst := some d, srcs := [d] } d
    (fun rd => m ++ (rd d).extractLsb' 0 16) s

end Sys2Proof.Machine
end

