-- ==== Sys2Proof/Machine/Packed.lean ====
section
/-!
DEFINITION. Packed sparse records: PKST and PKLD (R210–R213).
-/
namespace Sys2Proof.Machine

/-- Where a packed instruction stands after some of its accesses. -/
inductive Pk (α : Type) where
  | done (x : α) (s : State)
  /-- A cause, with the writes performed so far. -/
  | fail (c : Cause) (s : State)
  /-- An access must wait, or misses translation: the instruction runs again from its start. -/
  | wait (w : WaitOn)
  | miss (page acc : Nat)
  /-- The Gutter is full: the writes made so far stand, and the instruction runs again from its start. -/
  | full (s : State)

def Pk.bind {α β : Type} (p : Pk α) (f : α → State → Pk β) : Pk β :=
  match p with
  | .done x s => f x s
  | .fail c s => .fail c s
  | .wait w => .wait w
  | .miss page acc => .miss page acc
  | .full s => .full s

/-- One read of `n` bytes in a SPACE, as a load of the gang sees it (R222). -/
def pkRead (a : Agent) (space : Nat) (addr : Dword) (n : Nat) (s : State) : Pk Nat :=
  match spaceSpot s a space addr n 1 with
  | .ok p => .done (leNat (spotBytes s a.core a.ctx a.gk p n)) s
  | .bad c => .fail c s
  | .wait w => .wait w
  | .miss page acc => .miss page acc

/-- One write of `n` bytes: into the store buffer, or at its place; with `gutter` a translation fault goes to the
Gutter (R200), for the lanes given. -/
def pkWrite (a : Agent) (gutter : Option (List Nat)) (space : Nat) (addr : Dword) (n v : Nat) (s : State) : Pk Unit :=
  let x : Access := { lane := 0, addr := addr, op := .store n (w32 v) }
  match spaceSpot s a space addr n 2 with
  | .ok p => .done () (performStores a [(x, p)] s)
  | .bad c => .fail c s
  | .wait w => .wait w
  | .miss page acc => match gutter with
    | none => .miss page acc
    | some lanes =>
      if gutterUse s a.core + 1 > Config.gutterEntries then .full s else .done () (gutterPush a x lanes s)

/-- A number of `n` words written in turn. -/
def pkWords (a : Agent) (space : Nat) (addr : Dword) : List Nat → State → Pk Unit
  | [], s => .done () s
  | v :: l, s => (pkWrite a none space addr 4 v s).bind fun _ s => pkWords a space (addr + 4) l s

/-- The checks of R211 on one descriptor: `rec` for the record's. -/
def pkDescOk (d : Desc) (rec : Bool) : Bool :=
  dValid d && dRank d = 1 && dScale d = 0 && dBlk d = 0 && [0, 1, 2, 5, 6].contains (dFmt d)
    && (if rec then dSpace d = 0 && dPerm d = 0 && decide (1 ≤ dExt d 0 ∧ dExt d 0 ≤ 0xFFFE)
          && (dBase d).toNat % 4 = 0
        else dExt d 0 % 32 = 0 && decide (32 ≤ dExt d 0 ∧ dExt d 0 ≤ 4096))

/-- Cause 0x18 when R211 is broken: `a` and `b` are the descriptors of gA and gB, `ra` says that gA's
is the record. -/
def pkCheck (na nb : Nat) (a b : Desc) (ra : Bool) : Option Cause :=
  if !pkDescOk a ra then some { code := 0x18, d0 := w32 na }
  else if !pkDescOk b (!ra) then some { code := 0x18, d0 := w32 nb }
  else if dFmt a ≠ dFmt b then some { code := 0x18, d0 := w32 (if ra then na else nb) }
  else none

/-! ## PKST (R212) -/

/-- Elements `i` upward of the dense tensor: the count of held values and the mask so far. -/
def packFrom (a : Agent) (dense rec : Desc) (n c w : Nat) : Nat → Nat → Nat → Nat → State → Pk (Nat × Nat)
  | 0, _, k, mask, s => .done (k, mask) s
  | m + 1, i, k, mask, s =>
    (pkRead a (dSpace dense) (elemAddr dense [i]) w s).bind fun e s =>
      if e = 0 then packFrom a dense rec n c w m (i + 1) k mask s
      else if k = c then .fail { code := 0x16, d0 := w32 i } s
      else (pkWrite a none 0 (dBase rec + BitVec.ofNat 64 (8 + n / 8 + k * w)) w e s).bind fun _ s =>
        packFrom a dense rec n c w m (i + 1) (k + 1) (mask + 2 ^ i) s

/-- The words of a mask of `n` bits. -/
def maskWords (n mask : Nat) : List Nat := (List.range (n / 32)).map fun i => mask / 2 ^ (32 * i) % 2 ^ 32

def packRun (a : Agent) (dense rec : Desc) (s : State) : Pk Word :=
  let n := dExt dense 0
  let w := fmtWidth (dFmt dense) / 8
  let h := dBase rec
  (pkWords a 0 h [0xFFFF0000 + n, dFmt rec] s).bind fun _ s =>
    (packFrom a dense rec n (dExt rec 0) w n 0 0 0 s).bind fun km s =>
      (pkWords a 0 (h + 8) (maskWords n km.2) s).bind fun _ s =>
        (pkWords a 0 h [km.1 * 0x10000 + n] s).bind fun _ s => .done (w32 km.1) s

/-! ## PKLD (R213) -/

/-- `n` words read in turn, as one number. -/
def pkReadWords (a : Agent) : Nat → Dword → State → Pk Nat
  | 0, _, s => .done 0 s
  | m + 1, addr, s => (pkRead a 0 addr 4 s).bind fun x s =>
      (pkReadWords a m (addr + 4) s).bind fun y s => .done (x + 2 ^ 32 * y) s

/-- How many of the low `n` bits are 1. -/
def countBits (n mask : Nat) : Nat := ((List.range n).filter fun i => mask.testBit i).length

/-- The first failed check of R213, in its order. -/
def unpackCheck (header fmt mask n c denseFmt : Nat) : Option Nat :=
  let count := header / 0x10000
  if count = 0xFFFF then some 1
  else if header % 0x10000 ≠ n then some 2
  else if fmt ≠ denseFmt then some 3
  else if countBits n mask ≠ count then some 4
  else if count > c then some 5
  else none

/-- Elements `i` upward written, the next value slot where the mask holds one. -/
def unpackFrom (a : Agent) (lanes : List Nat) (dense rec : Desc) (n w mask : Nat) : Nat → Nat → Nat → State → Pk Unit
  | 0, _, _, s => .done () s
  | m + 1, i, k, s =>
    let held := mask.testBit i
    (if held then pkRead a 0 (dBase rec + BitVec.ofNat 64 (8 + n / 8 + k * w)) w s else .done 0 s).bind fun e s =>
      (pkWrite a (some lanes) (dSpace dense) (elemAddr dense [i]) w e s).bind fun _ s =>
        unpackFrom a lanes dense rec n w mask m (i + 1) (if held then k + 1 else k) s

def unpackRun (lanes : List Nat) (a : Agent) (rec dense : Desc) (s : State) : Pk Word :=
  let n := dExt dense 0
  (pkRead a 0 (dBase rec) 4 s).bind fun header s =>
    (pkRead a 0 (dBase rec + 4) 4 s).bind fun fmt s =>
      (pkReadWords a (n / 32) (dBase rec + 8) s).bind fun mask s =>
        match unpackCheck header fmt mask n (dExt rec 0) (dFmt dense) with
        | some k => .fail { code := 0x17, d0 := w32 k } s
        | none => (unpackFrom a lanes dense rec n (fmtWidth (dFmt dense) / 8) mask n 0 0 s).bind fun _ s =>
            .done (w32 (header / 0x10000)) s

/-! ## The instructions -/

/-- A packed instruction waits for its gang's queue and Gutter entries, then runs whole. Where the Gutter has no
room for all that it writes, it waits for the entries so far, and runs again (R200, R213). -/
def packed (i : Instr) (o : O3) (recA : Bool) (run : List Nat → Agent → Desc → Desc → State → Pk Word) (s : State) : Out :=
  issue i { pipe := .gang, strand := o.s, dst := some o.d, w := o.w, srcs := [o.a, o.b] }
    (fun u acts s =>
      let a := agentOf u
      let x := gsrc s u o.a
      let y := gsrc s u o.b
      if x.toNat ≥ 128 || y.toNat ≥ 128 then gangFail { code := 0x05, d0 := wordOf i } acts u s
      else
        let dx := descOf s u.ctx u.core x.toNat
        let dy := descOf s u.ctx u.core y.toNat
        match pkCheck x.toNat y.toNat dx dy recA with
        | some c => gangFail c acts u s
        | none =>
          if queued s u.qids then hold s u .drain
          else match s.gutter.find? fun e => decide (e.core = a.core ∧ e.ctx = a.ctx ∧ e.gk = a.gk) with
            | some e => hold s u (.gutter (some (e.addr.toNat / 64)))
            | none => match run acts a dx dy s with
              | .done v s => advance (gangResult o.d o.w v u s) u
              | .fail c s => gangFail c acts u s
              | .wait w => hold (wanting u.ctx w s) u w
              | .full s => hold s u (.gutter none)
              | .miss page acc => holdPages [({ lane := 0, addr := 0, op := .load 4 false }, page, acc)] u s) s

def execPkst (o : O3) (s : State) : Out := packed (.pkst o) o false (fun _ => packRun) s
def execPkld (o : O3) (s : State) : Out := packed (.pkld o) o true unpackRun s

end Sys2Proof.Machine
end

