-- ==== Sys2Proof/Machine/Dispatch.lean ====
section
/-!
DEFINITION. The dispatch: one arm per constructor of `Instr`, each a direct call of its meaning.
-/
namespace Sys2Proof.Machine

def exec (i : Instr) (s : State) : Host.Outcome State Fault Refusal :=
  match i with
  | .iaddA p o => Sys2Proof.Machine.execIaddA p o s
  | .iaddI p o => Sys2Proof.Machine.execIaddI p o s
  | .isubA p o => Sys2Proof.Machine.execIsubA p o s
  | .isubI p o => Sys2Proof.Machine.execIsubI p o s
  | .imulA p o => Sys2Proof.Machine.execImulA p o s
  | .imulI p o => Sys2Proof.Machine.execImulI p o s
  | .imulhS32 p o => Sys2Proof.Machine.execImulhS32 p o s
  | .imulhN32 p o => Sys2Proof.Machine.execImulhN32 p o s
  | .imad p o => Sys2Proof.Machine.execImad p o s
  | .iaddSatS32 p o => Sys2Proof.Machine.execIaddSatS32 p o s
  | .iaddSatN32 p o => Sys2Proof.Machine.execIaddSatN32 p o s
  | .isubSatS32 p o => Sys2Proof.Machine.execIsubSatS32 p o s
  | .isubSatN32 p o => Sys2Proof.Machine.execIsubSatN32 p o s
  | .iminS32 p o => Sys2Proof.Machine.execIminS32 p o s
  | .iminN32 p o => Sys2Proof.Machine.execIminN32 p o s
  | .imaxS32 p o => Sys2Proof.Machine.execImaxS32 p o s
  | .imaxN32 p o => Sys2Proof.Machine.execImaxN32 p o s
  | .iabs p o => Sys2Proof.Machine.execIabs p o s
  | .iabsSat p o => Sys2Proof.Machine.execIabsSat p o s
  | .andA p o => Sys2Proof.Machine.execAndA p o s
  | .orB p o => Sys2Proof.Machine.execOrB p o s
  | .xorB p o => Sys2Proof.Machine.execXorB p o s
  | .andn p o => Sys2Proof.Machine.execAndn p o s
  | .andI p o => Sys2Proof.Machine.execAndI p o s
  | .shlA p o => Sys2Proof.Machine.execShlA p o s
  | .shlI p o => Sys2Proof.Machine.execShlI p o s
  | .shrA p o => Sys2Proof.Machine.execShrA p o s
  | .shrI p o => Sys2Proof.Machine.execShrI p o s
  | .sarA p o => Sys2Proof.Machine.execSarA p o s
  | .sarI p o => Sys2Proof.Machine.execSarI p o s
  | .rotA p o => Sys2Proof.Machine.execRotA p o s
  | .rotI p o => Sys2Proof.Machine.execRotI p o s
  | .bfxN32 p o => Sys2Proof.Machine.execBfxN32 p o s
  | .bfxS32 p o => Sys2Proof.Machine.execBfxS32 p o s
  | .bfi p o => Sys2Proof.Machine.execBfi p o s
  | .popc p o => Sys2Proof.Machine.execPopc p o s
  | .clz p o => Sys2Proof.Machine.execClz p o s
  | .brev p o => Sys2Proof.Machine.execBrev p o s
  | .mov p o => Sys2Proof.Machine.execMov p o s
  | .lea p o => Sys2Proof.Machine.execLea p o s
  | .icmpEq p o => Sys2Proof.Machine.execIcmpEq p o s
  | .icmpNe p o => Sys2Proof.Machine.execIcmpNe p o s
  | .icmpLtS32 p o => Sys2Proof.Machine.execIcmpLtS32 p o s
  | .icmpLeS32 p o => Sys2Proof.Machine.execIcmpLeS32 p o s
  | .icmpGtS32 p o => Sys2Proof.Machine.execIcmpGtS32 p o s
  | .icmpGeS32 p o => Sys2Proof.Machine.execIcmpGeS32 p o s
  | .icmpLtN32 p o => Sys2Proof.Machine.execIcmpLtN32 p o s
  | .icmpLeN32 p o => Sys2Proof.Machine.execIcmpLeN32 p o s
  | .sel p o => Sys2Proof.Machine.execSel p o s
  | .icmpGtN32 p o => Sys2Proof.Machine.execIcmpGtN32 p o s
  | .icmpGeN32 p o => Sys2Proof.Machine.execIcmpGeN32 p o s
  | .iaddSatS16 p o => Sys2Proof.Machine.execIaddSatS16 p o s
  | .iaddSatN16 p o => Sys2Proof.Machine.execIaddSatN16 p o s
  | .isubSatS16 p o => Sys2Proof.Machine.execIsubSatS16 p o s
  | .isubSatN16 p o => Sys2Proof.Machine.execIsubSatN16 p o s
  | .iaddS16 p o => Sys2Proof.Machine.execIaddS16 p o s
  | .iaddN16 p o => Sys2Proof.Machine.execIaddN16 p o s
  | .isubS16 p o => Sys2Proof.Machine.execIsubS16 p o s
  | .isubN16 p o => Sys2Proof.Machine.execIsubN16 p o s
  | .imulS16 p o => Sys2Proof.Machine.execImulS16 p o s
  | .imulN16 p o => Sys2Proof.Machine.execImulN16 p o s
  | .imulSat p o => Sys2Proof.Machine.execImulSat p o s
  | .movl p d m => Sys2Proof.Machine.execMovl p d m s
  | .movh p d m => Sys2Proof.Machine.execMovh p d m s
  | .faddF32 o => Sys2Proof.Machine.execFaddF32 o s
  | .fsubF32 o => Sys2Proof.Machine.execFsubF32 o s
  | .fmulF32 o => Sys2Proof.Machine.execFmulF32 o s
  | .ffmaF32 o => Sys2Proof.Machine.execFfmaF32 o s
  | .fminF32 o => Sys2Proof.Machine.execFminF32 o s
  | .fmaxF32 o => Sys2Proof.Machine.execFmaxF32 o s
  | .faddF16 o => Sys2Proof.Machine.execFaddF16 o s
  | .fsubF16 o => Sys2Proof.Machine.execFsubF16 o s
  | .fmulF16 o => Sys2Proof.Machine.execFmulF16 o s
  | .ffmaF16 o => Sys2Proof.Machine.execFfmaF16 o s
  | .fminF16 o => Sys2Proof.Machine.execFminF16 o s
  | .fmaxF16 o => Sys2Proof.Machine.execFmaxF16 o s
  | .faddBf16 o => Sys2Proof.Machine.execFaddBf16 o s
  | .fsubBf16 o => Sys2Proof.Machine.execFsubBf16 o s
  | .fmulBf16 o => Sys2Proof.Machine.execFmulBf16 o s
  | .ffmaBf16 o => Sys2Proof.Machine.execFfmaBf16 o s
  | .fminBf16 o => Sys2Proof.Machine.execFminBf16 o s
  | .fmaxBf16 o => Sys2Proof.Machine.execFmaxBf16 o s
  | .fcmpEq o => Sys2Proof.Machine.execFcmpEq o s
  | .fcmpLt o => Sys2Proof.Machine.execFcmpLt o s
  | .fcmpLe o => Sys2Proof.Machine.execFcmpLe o s
  | .fcmpUn o => Sys2Proof.Machine.execFcmpUn o s
  | .fscale o => Sys2Proof.Machine.execFscale o s
  | .fabs o => Sys2Proof.Machine.execFabs o s
  | .fneg o => Sys2Proof.Machine.execFneg o s
  | .frcp o => Sys2Proof.Machine.execFrcp o s
  | .frsq o => Sys2Proof.Machine.execFrsq o s
  | .fsqrt o => Sys2Proof.Machine.execFsqrt o s
  | .fexp2 o => Sys2Proof.Machine.execFexp2 o s
  | .flog2 o => Sys2Proof.Machine.execFlog2 o s
  | .fcvt o => Sys2Proof.Machine.execFcvt o s
  | .fclass o => Sys2Proof.Machine.execFclass o s
  | .byteq o => Sys2Proof.Machine.execByteq o s
  | .bfind o => Sys2Proof.Machine.execBfind o s
  | .bperm o => Sys2Proof.Machine.execBperm o s
  | .crcC o => Sys2Proof.Machine.execCrcC o s
  | .hmix o => Sys2Proof.Machine.execHmix o s
  | .dfaStep4 o => Sys2Proof.Machine.execDfaStep4 o s
  | .rngSeed o => Sys2Proof.Machine.execRngSeed o s
  | .rngNext o => Sys2Proof.Machine.execRngNext o s
  | .prune o => Sys2Proof.Machine.execPrune o s
  | .ballot o => Sys2Proof.Machine.execBallot o s
  | .shflIdx o => Sys2Proof.Machine.execShflIdx o s
  | .shflXor o => Sys2Proof.Machine.execShflXor o s
  | .shflUp o => Sys2Proof.Machine.execShflUp o s
  | .shflDown o => Sys2Proof.Machine.execShflDown o s
  | .xred o e => Sys2Proof.Machine.execXred o e s
  | .xscan o x e => Sys2Proof.Machine.execXscan o x e s
  | .isect o => Sys2Proof.Machine.execIsect o s
  | .matchL o => Sys2Proof.Machine.execMatchL o s
  | .bcast o => Sys2Proof.Machine.execBcast o s
  | .bnext o => Sys2Proof.Machine.execBnext o s
  | .setblk o => Sys2Proof.Machine.execSetblk o s
  | .ldS16A o => Sys2Proof.Machine.execLdS16A o s
  | .ldS16I o => Sys2Proof.Machine.execLdS16I o s
  | .ldN16A o => Sys2Proof.Machine.execLdN16A o s
  | .ldN16I o => Sys2Proof.Machine.execLdN16I o s
  | .ldB32A o => Sys2Proof.Machine.execLdB32A o s
  | .ldB32I o => Sys2Proof.Machine.execLdB32I o s
  | .stB32A o => Sys2Proof.Machine.execStB32A o s
  | .stB32I o => Sys2Proof.Machine.execStB32I o s
  | .stN16A o => Sys2Proof.Machine.execStN16A o s
  | .stN16I o => Sys2Proof.Machine.execStN16I o s
  | .ldc o => Sys2Proof.Machine.execLdc o s
  | .stc o => Sys2Proof.Machine.execStc o s
  | .atomAdd o => Sys2Proof.Machine.execAtomAdd o s
  | .atomAnd o => Sys2Proof.Machine.execAtomAnd o s
  | .atomOr o => Sys2Proof.Machine.execAtomOr o s
  | .atomXor o => Sys2Proof.Machine.execAtomXor o s
  | .atomMinS32 o => Sys2Proof.Machine.execAtomMinS32 o s
  | .atomMaxS32 o => Sys2Proof.Machine.execAtomMaxS32 o s
  | .atomMinN32 o => Sys2Proof.Machine.execAtomMinN32 o s
  | .atomMaxN32 o => Sys2Proof.Machine.execAtomMaxN32 o s
  | .atomXchg o => Sys2Proof.Machine.execAtomXchg o s
  | .atomCas o => Sys2Proof.Machine.execAtomCas o s
  | .redMAdd o => Sys2Proof.Machine.execRedMAdd o s
  | .redMAddF32 o => Sys2Proof.Machine.execRedMAddF32 o s
  | .redMMinS32 o => Sys2Proof.Machine.execRedMMinS32 o s
  | .redMMaxS32 o => Sys2Proof.Machine.execRedMMaxS32 o s
  | .redMMinN32 o => Sys2Proof.Machine.execRedMMinN32 o s
  | .redMMaxN32 o => Sys2Proof.Machine.execRedMMaxN32 o s
  | .ldv o => Sys2Proof.Machine.execLdv o s
  | .stv o => Sys2Proof.Machine.execStv o s
  | .vlatest o => Sys2Proof.Machine.execVlatest o s
  | .ldgA o => Sys2Proof.Machine.execLdgA o s
  | .ldgI o => Sys2Proof.Machine.execLdgI o s
  | .stgA o => Sys2Proof.Machine.execStgA o s
  | .stgI o => Sys2Proof.Machine.execStgI o s
  | .vpin o => Sys2Proof.Machine.execVpin o s
  | .vunpin o => Sys2Proof.Machine.execVunpin o s
  | .vfloor o => Sys2Proof.Machine.execVfloor o s
  | .spalloc o => Sys2Proof.Machine.execSpalloc o s
  | .sprenew o => Sys2Proof.Machine.execSprenew o s
  | .sprenewZ o => Sys2Proof.Machine.execSprenewZ o s
  | .spfree o => Sys2Proof.Machine.execSpfree o s
  | .spinfo o => Sys2Proof.Machine.execSpinfo o s
  | .pkst o => Sys2Proof.Machine.execPkst o s
  | .pkld o => Sys2Proof.Machine.execPkld o s
  | .fence o => Sys2Proof.Machine.execFence o s
  | .flush o => Sys2Proof.Machine.execFlush o s
  | .tdLoad o => Sys2Proof.Machine.execTdLoad o s
  | .tdSet o => Sys2Proof.Machine.execTdSet o s
  | .mload o => Sys2Proof.Machine.execMload o s
  | .mswap sx h => Sys2Proof.Machine.execMswap sx h s
  | .mstream o => Sys2Proof.Machine.execMstream o s
  | .mzero o => Sys2Proof.Machine.execMzero o s
  | .mdrain o e => Sys2Proof.Machine.execMdrain o e s
  | .mdrainXp o => Sys2Proof.Machine.execMdrainXp o s
  | .mtile o => Sys2Proof.Machine.execMtile o s
  | .mstat o => Sys2Proof.Machine.execMstat o s
  | .bra f => Sys2Proof.Machine.execBra f s
  | .brcAny q pol f => Sys2Proof.Machine.execBrcAny q pol f s
  | .brcAll q pol f => Sys2Proof.Machine.execBrcAll q pol f s
  | .call f => Sys2Proof.Machine.execCall f s
  | .ret o => Sys2Proof.Machine.execRet o s
  | .regang sx => Sys2Proof.Machine.execRegang sx s
  | .exitG sx => Sys2Proof.Machine.execExitG sx s
  | .nop sx => Sys2Proof.Machine.execNop sx s
  | .yield sx => Sys2Proof.Machine.execYield sx s
  | .autoEnter ix f => Sys2Proof.Machine.execAutoEnter ix f s
  | .autoStep => Sys2Proof.Machine.execAutoStep s
  | .autoExit => Sys2Proof.Machine.execAutoExit s
  | .barInit o => Sys2Proof.Machine.execBarInit o s
  | .barArrive o => Sys2Proof.Machine.execBarArrive o s
  | .barWait o => Sys2Proof.Machine.execBarWait o s
  | .barArm o => Sys2Proof.Machine.execBarArm o s
  | .barTest o => Sys2Proof.Machine.execBarTest o s
  | .cohJoin o => Sys2Proof.Machine.execCohJoin o s
  | .cohLeave o => Sys2Proof.Machine.execCohLeave o s
  | .cohInfo o => Sys2Proof.Machine.execCohInfo o s
  | .nodePost o => Sys2Proof.Machine.execNodePost o s
  | .tlWait o => Sys2Proof.Machine.execTlWait o s
  | .tlRead o => Sys2Proof.Machine.execTlRead o s
  | .xpStart o => Sys2Proof.Machine.execXpStart o s
  | .xpStatus o => Sys2Proof.Machine.execXpStatus o s
  | .idem sx => Sys2Proof.Machine.execIdem sx s
  | .contOpen a sx => Sys2Proof.Machine.execContOpen a sx s
  | .contClose sx => Sys2Proof.Machine.execContClose sx s
  | .trap n sx => Sys2Proof.Machine.execTrap n sx s
  | .rett => Sys2Proof.Machine.execRett s
  | .sysrd d n sx w h => Sys2Proof.Machine.execSysrd d n sx w h s
  | .syswr d n sx h => Sys2Proof.Machine.execSyswr d n sx h s
  | .stepMark sx => Sys2Proof.Machine.execStepMark sx s
  | .movsGet d ix w h => Sys2Proof.Machine.execMovsGet d ix w h s
  | .movsPut ix a h => Sys2Proof.Machine.execMovsPut ix a h s
  | .xpNop => Sys2Proof.Machine.execXpNop s
  | .xpHalt => Sys2Proof.Machine.execXpHalt s
  | .xpMovi d hs m => Sys2Proof.Machine.execXpMovi d hs m s
  | .xpLdx d l o => Sys2Proof.Machine.execXpLdx d l o s
  | .xpAddReg o => Sys2Proof.Machine.execXpAddReg o s
  | .xpAddImm o => Sys2Proof.Machine.execXpAddImm o s
  | .xpSubReg o => Sys2Proof.Machine.execXpSubReg o s
  | .xpSubImm o => Sys2Proof.Machine.execXpSubImm o s
  | .xpMulReg o => Sys2Proof.Machine.execXpMulReg o s
  | .xpMulImm o => Sys2Proof.Machine.execXpMulImm o s
  | .xpShlReg o => Sys2Proof.Machine.execXpShlReg o s
  | .xpShlImm o => Sys2Proof.Machine.execXpShlImm o s
  | .xpShrReg o => Sys2Proof.Machine.execXpShrReg o s
  | .xpShrImm o => Sys2Proof.Machine.execXpShrImm o s
  | .xpAndReg o => Sys2Proof.Machine.execXpAndReg o s
  | .xpAndImm o => Sys2Proof.Machine.execXpAndImm o s
  | .xpOrReg o => Sys2Proof.Machine.execXpOrReg o s
  | .xpOrImm o => Sys2Proof.Machine.execXpOrImm o s
  | .xpCmpEqReg o => Sys2Proof.Machine.execXpCmpEqReg o s
  | .xpCmpEqImm o => Sys2Proof.Machine.execXpCmpEqImm o s
  | .xpCmpNeReg o => Sys2Proof.Machine.execXpCmpNeReg o s
  | .xpCmpNeImm o => Sys2Proof.Machine.execXpCmpNeImm o s
  | .xpCmpLtReg o => Sys2Proof.Machine.execXpCmpLtReg o s
  | .xpCmpLtImm o => Sys2Proof.Machine.execXpCmpLtImm o s
  | .xpCmpLtuReg o => Sys2Proof.Machine.execXpCmpLtuReg o s
  | .xpCmpLtuImm o => Sys2Proof.Machine.execXpCmpLtuImm o s
  | .xpBr f => Sys2Proof.Machine.execXpBr f s
  | .xpBz a f => Sys2Proof.Machine.execXpBz a f s
  | .xpBnz a f => Sys2Proof.Machine.execXpBnz a f s
  | .xpLoopReg a f => Sys2Proof.Machine.execXpLoopReg a f s
  | .xpLoopImm a m f => Sys2Proof.Machine.execXpLoopImm a m f s
  | .xpEndl => Sys2Proof.Machine.execXpEndl s
  | .xpCurSet k n => Sys2Proof.Machine.execXpCurSet k n s
  | .xpCurStepReg k d a => Sys2Proof.Machine.execXpCurStepReg k d a s
  | .xpCurStepImm k d m => Sys2Proof.Machine.execXpCurStepImm k d m s
  | .xpCurAt k d w a => Sys2Proof.Machine.execXpCurAt k d w a s
  | .xpMove d sx nb st b => Sys2Proof.Machine.execXpMove d sx nb st b s
  | .xpMoveA d nb st b => Sys2Proof.Machine.execXpMoveA d nb st b s
  | .xpMovePk d nb st b => Sys2Proof.Machine.execXpMovePk d nb st b s
  | .xpVpub d sx nb st b v => Sys2Proof.Machine.execXpVpub d sx nb st b v s
  | .xpFollow sx a r z => Sys2Proof.Machine.execXpFollow sx a r z s
  | .xpPsel sx q l k => Sys2Proof.Machine.execXpPsel sx q l k s
  | .xpArrive n => Sys2Proof.Machine.execXpArrive n s
  | .xpWaitb a n => Sys2Proof.Machine.execXpWaitb a n s
  | .xpTlsig k l => Sys2Proof.Machine.execXpTlsig k l s
  | .xpMoveG k d sx l st b => Sys2Proof.Machine.execXpMoveG k d sx l st b s
  | .autoSeal ctx core v => Sys2Proof.Machine.execAutoSeal ctx core v s
  | .autoUnseal ctx v => Sys2Proof.Machine.execAutoUnseal ctx v s
  | .vregDesignate ctx core v => Sys2Proof.Machine.execVregDesignate ctx core v s
  | .vregRelease ctx core v => Sys2Proof.Machine.execVregRelease ctx core v s
  | .secUnlock core => Sys2Proof.Machine.execSecUnlock core s
  | .secAttest core => Sys2Proof.Machine.execSecAttest core s
  | .secIdentity core => Sys2Proof.Machine.execSecIdentity core s
  | .secCommandDone => Sys2Proof.Machine.execSecCommandDone s
  | .tlbInvPage ctx v => Sys2Proof.Machine.execTlbInvPage ctx v s
  | .tlbInvAll ctx v => Sys2Proof.Machine.execTlbInvAll ctx v s
  | .tlbInvComplete ctx => Sys2Proof.Machine.execTlbInvComplete ctx s
  | .ptRootWrite ctx high v => Sys2Proof.Machine.execPtRootWrite ctx high v s
  | .quiesceRequest ctx => Sys2Proof.Machine.execQuiesceRequest ctx s
  | .quiesceRelease ctx => Sys2Proof.Machine.execQuiesceRelease ctx s
  | .waitBoundWrite ctx v => Sys2Proof.Machine.execWaitBoundWrite ctx v s
  | .runBoundWrite ctx v => Sys2Proof.Machine.execRunBoundWrite ctx v s
  | .vdirDataRead ctx => Sys2Proof.Machine.execVdirDataRead ctx s
  | .submit m recs => Sys2Proof.Machine.execSubmit m recs s
  | .memwr m addr bytes => Sys2Proof.Machine.execMemwr m addr bytes s
  | .memrd m addr len => Sys2Proof.Machine.execMemrd m addr len s
  | .hostFlush m addr len => Sys2Proof.Machine.execHostFlush m addr len s
  | .hostQuiesceRequest m => Sys2Proof.Machine.execHostQuiesceRequest m s
  | .hostQuiesceRelease m => Sys2Proof.Machine.execHostQuiesceRelease m s
  | .coll m rec => Sys2Proof.Machine.execColl m rec s
  | .collComplete die peers => Sys2Proof.Machine.execCollComplete die peers s
  | .collMemberFail ctx group rank => Sys2Proof.Machine.execCollMemberFail ctx group rank s
  | .loadObj m piece bytes => Sys2Proof.Machine.execLoadObj m piece bytes s
  | .loadp m piece bytes => Sys2Proof.Machine.execLoadp m piece bytes s
  | .unload m handle => Sys2Proof.Machine.execUnload m handle s
  | .handlerName m name => Sys2Proof.Machine.execHandlerName m name s
  | .cacheinv m key => Sys2Proof.Machine.execCacheinv m key s
  | .fwload m piece bytes => Sys2Proof.Machine.execFwload m piece bytes s
  | .openCtx m payload psk => Sys2Proof.Machine.execOpenCtx m payload psk s
  | .endCtx m => Sys2Proof.Machine.execEndCtx m s
  | .healthQ m => Sys2Proof.Machine.execHealthQ m s
  | .pageServiceAnswer rec resolved => Sys2Proof.Machine.execPageServiceAnswer rec resolved s
  | .unreliablePacketDrop => Sys2Proof.Machine.execUnreliablePacketDrop s
  | .issueQueuePerform id lane => Sys2Proof.Machine.execIssueQueuePerform id lane s
  | .storeBufferApply id => Sys2Proof.Machine.execStoreBufferApply id s
  | .applyQueueTake die id => Sys2Proof.Machine.execApplyQueueTake die id s
  | .homeUpdateArrival id => Sys2Proof.Machine.execHomeUpdateArrival id s
  | .gutterReplay id => Sys2Proof.Machine.execGutterReplay id s
  | .translationWalkComplete die ctx page => Sys2Proof.Machine.execTranslationWalkComplete die ctx page s
  | .barArrivalCounted id => Sys2Proof.Machine.execBarArrivalCounted id s
  | .cohJoinTimeout u => Sys2Proof.Machine.execCohJoinTimeout u s
  | .barWaitBoundExpire u => Sys2Proof.Machine.execBarWaitBoundExpire u s
  | .tlWaitBoundExpire u => Sys2Proof.Machine.execTlWaitBoundExpire u s
  | .versionWaitBoundExpire u => Sys2Proof.Machine.execVersionWaitBoundExpire u s
  | .vpubPublish core xp cmd => Sys2Proof.Machine.execVpubPublish core xp cmd s
  | .copyProgramBegin core xp => Sys2Proof.Machine.execCopyProgramBegin core xp s
  | .copyWriteComplete core xp cmd dst => Sys2Proof.Machine.execCopyWriteComplete core xp cmd dst s
  | .copyCommandComplete core xp cmd => Sys2Proof.Machine.execCopyCommandComplete core xp cmd s
  | .copyWaitBoundExpire core xp => Sys2Proof.Machine.execCopyWaitBoundExpire core xp s
  | .followMtileIssue core xp slot => Sys2Proof.Machine.execFollowMtileIssue core xp slot s
  | .matrixCommandExecute core => Sys2Proof.Machine.execMatrixCommandExecute core s
  | .drainPortBoundExpire core => Sys2Proof.Machine.execDrainPortBoundExpire core s
  | .matrixStateSave core => Sys2Proof.Machine.execMatrixStateSave core s
  | .matrixStateRestore core => Sys2Proof.Machine.execMatrixStateRestore core s
  | .purlinRefreshStart die => Sys2Proof.Machine.execPurlinRefreshStart die s
  | .purlinRefreshEnd die => Sys2Proof.Machine.execPurlinRefreshEnd die s
  | .holdLapse u p => Sys2Proof.Machine.execHoldLapse u p s
  | .yieldExpire u => Sys2Proof.Machine.execYieldExpire u s
  | .ageLimitReached u => Sys2Proof.Machine.execAgeLimitReached u s
  | .deferredCauseDelivery gk => Sys2Proof.Machine.execDeferredCauseDelivery gk s
  | .handlerInstanceStart core => Sys2Proof.Machine.execHandlerInstanceStart core s
  | .runBoundWatchdog u => Sys2Proof.Machine.execRunBoundWatchdog u s
  | .admitUnit node cores => Sys2Proof.Machine.execAdmitUnit node cores s
  | .admissionSkipTimeout node => Sys2Proof.Machine.execAdmissionSkipTimeout node s
  | .gangSaveComplete gk => Sys2Proof.Machine.execGangSaveComplete gk s
  | .gangReadmit gk => Sys2Proof.Machine.execGangReadmit gk s
  | .readmitBoundSwap ctx core => Sys2Proof.Machine.execReadmitBoundSwap ctx core s
  | .sweeperRenew ctx core idx => Sys2Proof.Machine.execSweeperRenew ctx core idx s
  | .bufferRestoreStart ctx core idx => Sys2Proof.Machine.execBufferRestoreStart ctx core idx s
  | .bufferRestoreComplete ctx core idx => Sys2Proof.Machine.execBufferRestoreComplete ctx core idx s
  | .quiesceCutComplete ctx => Sys2Proof.Machine.execQuiesceCutComplete ctx s
  | .quiesceBoundExpire ctx => Sys2Proof.Machine.execQuiesceBoundExpire ctx s
  | .nodeComplete node => Sys2Proof.Machine.execNodeComplete node s
  | .scrubVisit purlin unit addr => Sys2Proof.Machine.execScrubVisit purlin unit addr s
  | .controlParityError core => Sys2Proof.Machine.execControlParityError core s
  | .errorRateThreshold core => Sys2Proof.Machine.execErrorRateThreshold core s
  | .predictiveFailureTimeout core => Sys2Proof.Machine.execPredictiveFailureTimeout core s
  | .oppLower => Sys2Proof.Machine.execOppLower s
  | .oppRaise => Sys2Proof.Machine.execOppRaise s
  | .oppChangeComplete => Sys2Proof.Machine.execOppChangeComplete s
  | .overLimitShutdown rail core => Sys2Proof.Machine.execOverLimitShutdown rail core s
  | .powerUp => Sys2Proof.Machine.execPowerUp s
  | .lifecycleAdvance st => Sys2Proof.Machine.execLifecycleAdvance st s
  | .bufferExpiry ctx core idx => Sys2Proof.Machine.execBufferExpiry ctx core idx s
  | .renewalComplete ctx core idx => Sys2Proof.Machine.execRenewalComplete ctx core idx s
  | .ridgeLinkError gk lanes target pc => Sys2Proof.Machine.execRidgeLinkError gk lanes target pc s
  | .powerLoss => Sys2Proof.Machine.execPowerLoss s
  | .debugPortRequest u step bp => Sys2Proof.Machine.execDebugPortRequest u step bp s
  | .malformedMessage ses m => Sys2Proof.Machine.execMalformedMessage ses m s
  | .railUndervolt core => Sys2Proof.Machine.execRailUndervolt core s
  | .errorRateBelowThreshold core => Sys2Proof.Machine.execErrorRateBelowThreshold core s

end Sys2Proof.Machine
end

