-- ==== Sys2Proof/Machine/Internal.lean ====
section
/-!
DEFINITION. What the module does of its own accord: the internal steps that may be taken now, for the
default schedule. A step that is not enabled changes nothing, so this list decides only how soon each is
taken, never what it does.
-/
namespace Sys2Proof.Machine

/-- The steps of the opcode table that the module takes by itself. -/
inductive Ev where
  | perform (id lane : Nat)
  | counted (id : Nat)
  | sbApply (id : Nat)
  | take (die id : Nat)
  | home (id : Nat)
  | gutter (id : Nat)
  | walk (die ctx page : Nat)
  | invDone (ctx : Nat)
  | cohTimeout (u : UnitRef)
  | barExpire (u : UnitRef)
  | tlExpire (u : UnitRef)
  | verExpire (u : UnitRef)
  | publish (core p cmd : Nat)
  | begin (core p : Nat)
  | land (core p cmd : Nat)
  | cmdDone (core p cmd : Nat)
  | copyExpire (core p : Nat)
  | follow (core p slot : Nat)
  | matrix (core : Nat)
  | drainExpire (core : Nat)
  | matrixSave (core : Nat)
  | matrixRestore (core : Nat)
  | deferred (gk : Nat)
  | instStart (core : Nat)
  | watchdog (u : UnitRef)
  | enter (node : Nat) (cores : List Nat)
  | skip (node : Nat)
  | saved (gk : Nat)
  | readmit (gk : Nat)
  | swap (ctx core : Nat)
  | sweep (ctx core idx : Nat)
  | restore (ctx core idx : Nat)
  | restored (ctx core idx : Nat)
  | renewed (ctx core idx : Nat)
  | cut (ctx : Nat)
  | cutExpire (ctx : Nat)
  | node (key : Nat)
  | secDone
  | oppDone
  | failing (core : Nat)
deriving DecidableEq, Repr

/-- The meaning of each. -/
def runEv (e : Ev) (s : State) : Out :=
  match e with
  | .perform id lane => execIssueQueuePerform id lane s
  | .counted id => execBarArrivalCounted id s
  | .sbApply id => execStoreBufferApply id s
  | .take die id => execApplyQueueTake die id s
  | .home id => execHomeUpdateArrival id s
  | .gutter id => execGutterReplay id s
  | .walk die ctx page => execTranslationWalkComplete die ctx page s
  | .invDone ctx => execTlbInvComplete ctx s
  | .cohTimeout u => execCohJoinTimeout u s
  | .barExpire u => execBarWaitBoundExpire u s
  | .tlExpire u => execTlWaitBoundExpire u s
  | .verExpire u => execVersionWaitBoundExpire u s
  | .publish core p cmd => execVpubPublish core p cmd s
  | .begin core p => execCopyProgramBegin core p s
  | .land core p cmd => execCopyWriteComplete core p cmd 0 s
  | .cmdDone core p cmd => execCopyCommandComplete core p cmd s
  | .copyExpire core p => execCopyWaitBoundExpire core p s
  | .follow core p slot => execFollowMtileIssue core p slot s
  | .matrix core => execMatrixCommandExecute core s
  | .drainExpire core => execDrainPortBoundExpire core s
  | .matrixSave core => execMatrixStateSave core s
  | .matrixRestore core => execMatrixStateRestore core s
  | .deferred gk => execDeferredCauseDelivery gk s
  | .instStart core => execHandlerInstanceStart core s
  | .watchdog u => execRunBoundWatchdog u s
  | .enter key cores => execAdmitUnit key cores s
  | .skip key => execAdmissionSkipTimeout key s
  | .saved gk => execGangSaveComplete gk s
  | .readmit gk => execGangReadmit gk s
  | .swap ctx core => execReadmitBoundSwap ctx core s
  | .sweep ctx core idx => execSweeperRenew ctx core idx s
  | .restore ctx core idx => execBufferRestoreStart ctx core idx s
  | .restored ctx core idx => execBufferRestoreComplete ctx core idx s
  | .renewed ctx core idx => execRenewalComplete ctx core idx s
  | .cut ctx => execQuiesceCutComplete ctx s
  | .cutExpire ctx => execQuiesceBoundExpire ctx s
  | .node key => execNodeComplete key s
  | .secDone => execSecCommandDone s
  | .oppDone => execOppChangeComplete s
  | .failing core => execPredictiveFailureTimeout core s

/-- The row of the opcode table that each is. -/
noncomputable def Ev.instr (e : Ev) : Instr :=
  match e with
  | .perform id lane => .issueQueuePerform id lane
  | .counted id => .barArrivalCounted id
  | .sbApply id => .storeBufferApply id
  | .take die id => .applyQueueTake die id
  | .home id => .homeUpdateArrival id
  | .gutter id => .gutterReplay id
  | .walk die ctx page => .translationWalkComplete die ctx page
  | .invDone ctx => .tlbInvComplete ctx
  | .cohTimeout u => .cohJoinTimeout u
  | .barExpire u => .barWaitBoundExpire u
  | .tlExpire u => .tlWaitBoundExpire u
  | .verExpire u => .versionWaitBoundExpire u
  | .publish core p cmd => .vpubPublish core p cmd
  | .begin core p => .copyProgramBegin core p
  | .land core p cmd => .copyWriteComplete core p cmd 0
  | .cmdDone core p cmd => .copyCommandComplete core p cmd
  | .copyExpire core p => .copyWaitBoundExpire core p
  | .follow core p slot => .followMtileIssue core p slot
  | .matrix core => .matrixCommandExecute core
  | .drainExpire core => .drainPortBoundExpire core
  | .matrixSave core => .matrixStateSave core
  | .matrixRestore core => .matrixStateRestore core
  | .deferred gk => .deferredCauseDelivery gk
  | .instStart core => .handlerInstanceStart core
  | .watchdog u => .runBoundWatchdog u
  | .enter key cores => .admitUnit key cores
  | .skip key => .admissionSkipTimeout key
  | .saved gk => .gangSaveComplete gk
  | .readmit gk => .gangReadmit gk
  | .swap ctx core => .readmitBoundSwap ctx core
  | .sweep ctx core idx => .sweeperRenew ctx core idx
  | .restore ctx core idx => .bufferRestoreStart ctx core idx
  | .restored ctx core idx => .bufferRestoreComplete ctx core idx
  | .renewed ctx core idx => .renewalComplete ctx core idx
  | .cut ctx => .quiesceCutComplete ctx
  | .cutExpire ctx => .quiesceBoundExpire ctx
  | .node key => .nodeComplete key
  | .secDone => .secCommandDone
  | .oppDone => .oppChangeComplete
  | .failing core => .predictiveFailureTimeout core

theorem runEv_eq_exec (e : Ev) (s : State) : runEv e s = exec e.instr s := by cases e <;> rfl

/-! ## The steps that may be taken now -/

/-- Queues, buffers and walks (R220–R227, R200, R322). -/
def orderEvs (s : State) : List Ev :=
  s.queue.flatMap (fun e => match e.op with
    | .arrive _ => [Ev.counted e.id]
    | _ => (entryLanes e).map (Ev.perform e.id))
    ++ s.sb.map (fun e => .sbApply e.id) ++ s.pubs.map (fun w => .take w.into w.id)
    ++ s.homeq.map (fun h => .home h.id) ++ s.gutter.map (fun e => .gutter e.id)
    ++ s.walks.map fun w => .walk w.die w.ctx w.page

/-- A wait whose bound has passed (R27, R125, R131, R188). -/
def waitEvs (s : State) (ctx : Nat) : List Ev :=
  let x := ctxD s ctx
  let due (since bound : Nat) : Bool := bound ≠ 0 && decide (since + bound ≤ s.usec)
  (waits s ctx).flatMap fun e => match e.2.on with
    | .cohort _ => if due e.2.since (barBound x) then [.cohTimeout e.1] else []
    | .bar _ _ => if due e.2.since (barBound x) then [.barExpire e.1] else []
    | .tl _ _ => if due e.2.since (tlBound x) then [.tlExpire e.1] else []
    | .version rows _ => if rows.any fun r => due e.2.since (regionBound s ctx r.2.1) then [.verExpire e.1] else []
    | .staged line => if due e.2.since (regionBound s ctx (line * 64)) then [.verExpire e.1] else []
    | _ => []

/-- The units whose queued STV has met a staged line for as long as they may (R192). -/
def stvEvs (s : State) : List Ev :=
  (s.queue.filterMap fun e => (stagedStv s e.unit).bind fun x =>
    if x.1.id = e.id ∧ x.2.2.2 ≤ s.usec then some e.unit else none).map .verExpire

/-- A context's own steps (R324, R331). -/
def ctxEvs (s : State) : List Ev :=
  (sentries s.ctxs).flatMap fun e =>
    waitEvs s e.1 ++ (if invBusy s e.1 then [.invDone e.1] else [])
      ++ (if e.2.qState = 1 then
            Ev.cut e.1 :: (if e.2.qBound ≠ 0 ∧ e.2.qSince + e.2.qBound * 1000 ≤ s.usec then [.cutExpire e.1] else [])
          else [])

/-- The watchdog is due for a run that started at `since` (R320). -/
def runDue (s : State) (ctx since : Nat) : Bool :=
  let b := (ctxD s ctx).runBound
  b ≠ 0 && decide (since + b * 1000 < s.usec)

/-- The steps of gangs and instances (R309, R311, R320, R326, R329, R330). -/
def gangEvs (s : State) : List Ev :=
  (sentries s.gangs).flatMap (fun e =>
      (if (pendingReady s e.2).isSome then [Ev.deferred e.1] else [])
        ++ (match e.2.place with
          | .saving _ => [.saved e.1]
          | .evicted _ since =>
            let b := (ctxD s e.2.ctx).readmit
            Ev.readmit e.1 :: (if b ≠ 0 ∧ since + b < s.usec then [.swap e.2.ctx e.2.core] else [])
          | .resident => if watchable s e.1 e.2 && runDue s e.2.ctx e.2.since then [.watchdog (.grp e.1 0)] else []))
    ++ (sentries s.insts).flatMap fun e => match e.2.set with
        | none => [Ev.instStart e.2.core]
        | some _ => if runDue s e.2.ctx e.2.since then [.watchdog (.inst e.1)] else []

/-- The steps of a copy processor (R243–R264). -/
def copyEvs (s : State) (core p : Nat) : List Ev :=
  let x := xpOf s core p
  let bound := match x.wait with
    | some ⟨.bar _ _, _⟩ => barBound (ctxD s x.ctx)
    | some ⟨.matrix, _⟩ => tlBound (ctxD s x.ctx)
    | some ⟨.staged line, _⟩ => regionBound s x.ctx (line * 64)
    | _ => 0
  let due : Bool := bound ≠ 0 && decide ((x.wait.map Wait.since).getD 0 + bound ≤ s.usec)
  let unread : Bool := x.starts.any fun st => st.complete && st.words = [] && st.bad.isNone
  (if (x.state = .idle ∧ x.starts ≠ []) ∨ unread then [Ev.begin core p] else [])
    ++ x.cmds.flatMap (fun c => if c.words ≠ [] then [Ev.land core p c.id]
        else if c.lines ≠ [] then [.publish core p c.id] else [.cmdDone core p c.id])
    ++ (List.range x.follows.length).map (Ev.follow core p)
    ++ (if due then [.copyExpire core p, .verExpire (.xp core p)] else [])

/-- The steps of a core's engines: the owner's state leaves a loaded engine only for another context that
waits for it (R268, R277, R326, R373). -/
def coreEvs (s : State) (e : Nat × CoreSt) : List Ev :=
  let m := e.2.matrix
  let wanted : Bool := match m.owner with
    | none => false
    | some c => (sentries s.ctxs).any (fun x => x.1 ≠ c && (waits s x.1).any fun w => w.2.on = .matrix
        && ((viewOf s w.1).map UView.core) = some e.1)
        || [e.2.xp0, e.2.xp1].any (fun x => x.ctx ≠ c && x.follows ≠ [])
        || (sentries e.2.saved).any fun x => residentHere s x.1 e.1
  copyEvs s e.1 0 ++ copyEvs s e.1 1
    ++ (if m.queue ≠ [] then [Ev.matrix e.1] else [])
    ++ (match m.held with
      | some t => if tlBound (ctxD s (m.owner.getD 0)) ≠ 0 ∧ t + tlBound (ctxD s (m.owner.getD 0)) ≤ s.usec then
          [.drainExpire e.1] else []
      | none => [])
    ++ (if wanted && !residentHere s (m.owner.getD 0) e.1 then [.matrixSave e.1] else [])
    ++ (if m.owner.isNone && (restorable s e.1).isSome then [.matrixRestore e.1] else [])
    ++ (match e.2.watch with
      | some t => if t + 10000000 ≤ s.usec then [.failing e.1] else []
      | none => [])

/-- The steps of scratchpad buffers (R172, R327, R328). -/
def bufferEvs (s : State) : List Ev :=
  s.cc.flatMap fun e =>
    let ctx := e.1 / 1024
    let core := e.1 % 1024
    e.2.tags.flatMap fun t =>
      let rem := (t.2.expiry + 0x100000000 - fadeTick s) % 0x100000000
      (if t.2.rewrite.isSome then [Ev.renewed ctx core t.1] else [])
        ++ (if t.2.saved && (t.2.todo ≠ [] || (t.2.restoring.isNone && t.2.wanted)) then
            [.restore ctx core t.1] else [])
        ++ (if t.2.restoring.isSome && t.2.todo = [] then [.restored ctx core t.1] else [])
        ++ (if t.2.kept && rem ≤ sweepMark (ctxD s ctx).budget t.2 then [.sweep ctx core t.1] else [])

/-- Distinct cores of a cluster for the next unit of a node, by rank: for each, the lowest that has room. -/
def coresIn (s : State) (key : Nat) (n : Node) (cl : Nat) : Option (List Nat) :=
  (unitNeeds n).foldl (fun plan need => match plan with
    | none => none
    | some cs => (((clusterOf cl).filter fun c => !cs.contains c && coreOpen s key n c
        && decide (need ≤ (freeSlots s c).length)).head?).map fun c => cs ++ [c]) (some [])

/-- Where a node's next unit could go: its home die first. -/
def coresFor (s : State) (key : Nat) (n : Node) : List Nat :=
  let dies := (n.die :: (diesOf s n).filter (· ≠ n.die)).filter (mayAdmit s key n)
  ((dies.flatMap fun d => (List.range 16).map fun i => d * 16 + i).findSome? (coresIn s key n)).getD []

/-- The steps of the ready pool (R293, R295). -/
def poolEvs (s : State) : List Ev :=
  (sentries s.pool).flatMap fun e =>
    (if pendingUnit e.2 then [Ev.enter e.1 (coresFor s e.1 e.2)] else [])
      ++ (match e.2.skippedSince with
        | some t => if t + 64 ≤ s.usec then [.skip e.1] else []
        | none => [])
      ++ (if e.2.phase = .draining then [.node e.1] else [])

/-- Every internal step that the default schedule may take. -/
def evs (s : State) : List Ev :=
  orderEvs s ++ stvEvs s ++ ctxEvs s ++ gangEvs s ++ s.cores.flatMap (coreEvs s) ++ bufferEvs s ++ poolEvs s
    ++ (if s.ctl.secBusy.isSome then [.secDone] else []) ++ (if s.ctl.oppChanging then [.oppDone] else [])

end Sys2Proof.Machine
end

