-- ==== Sys2Proof/Machine/RunWord.lean ====
section
/-!
DEFINITION. One word of a unit, or of a copy processor: fetched, decoded and run.
-/
namespace Sys2Proof.Machine

/-! ## Units -/

/-- The issuing unit fetches its word, decodes it and runs it (R53, R56, R71, R321). -/
def runUnit (s : State) : Out :=
  match unitView s with
  | none => .fault .noUnit
  | some u => match fetch s u with
    | .miss page => .next (hold (requestWalk u.core u.ctx page 4 (.unit u.ref) s) u (.page page))
    | .bad c => .next (raiseOn c (actingLanes s u 0) u s)
    | .word w => match decodeCompute w with
      | .ok i => exec i s
      | .error r => .next (illegalWord w r u s)

/-! ## Copy processors (R246, R251) -/

/-- A copy word runs when it decodes; any other word faults with 0x28. -/
noncomputable def runCopyWord (core p : Nat) (w : Word) (s : State) : Out :=
  match decodeXp w with
  | .ok i => exec i s
  | .error _ => .next (xpIllegal core p s)

def xdo (ok : Bool) (o : Out) : Option Out := if ok then some o else none

/-- The meaning of a copy word that is not MOVE.G, straight from its bits: as `decodeXpOp` and `exec`. -/
def copyOp (w : Word) (s : State) (op : Nat) : Option Out :=
  match op with
  | 0x00 =>
      xdo (w.extractLsb' 0 26 == 0#26) (execXpNop s)
  | 0x01 =>
      xdo (w.extractLsb' 0 26 == 0#26) (execXpHalt s)
  | 0x02 =>
      xdo (w.extractLsb' 16 5 == 0#5) (execXpMovi (w.extractLsb' 22 4) (w.getLsbD 21) (w.extractLsb' 0 16) s)
  | 0x03 =>
      xdo (w.extractLsb' 16 3 == 0#3) (execXpLdx (w.extractLsb' 22 4) (w.extractLsb' 19 3) (w.extractLsb' 0 16) s)
  | 0x04 =>
      if w.getLsbD 17 then some (execXpAddImm (rCrI w) s) else xdo (w.extractLsb' 0 13 == 0#13) (execXpAddReg (rCrR w) s)
  | 0x05 =>
      if w.getLsbD 17 then some (execXpSubImm (rCrI w) s) else xdo (w.extractLsb' 0 13 == 0#13) (execXpSubReg (rCrR w) s)
  | 0x06 =>
      if w.getLsbD 17 then some (execXpMulImm (rCrI w) s) else xdo (w.extractLsb' 0 13 == 0#13) (execXpMulReg (rCrR w) s)
  | 0x07 =>
      if w.getLsbD 17 then xdo (shiftImmOk (fI17 w)) (execXpShlImm (rCrI w) s) else xdo (w.extractLsb' 0 13 == 0#13) (execXpShlReg (rCrR w) s)
  | 0x08 =>
      if w.getLsbD 17 then xdo (shiftImmOk (fI17 w)) (execXpShrImm (rCrI w) s) else xdo (w.extractLsb' 0 13 == 0#13) (execXpShrReg (rCrR w) s)
  | 0x09 =>
      if w.getLsbD 17 then some (execXpAndImm (rCrI w) s) else xdo (w.extractLsb' 0 13 == 0#13) (execXpAndReg (rCrR w) s)
  | 0x0A =>
      if w.getLsbD 17 then some (execXpOrImm (rCrI w) s) else xdo (w.extractLsb' 0 13 == 0#13) (execXpOrReg (rCrR w) s)
  | 0x0C =>
      if w.getLsbD 17 then some (execXpCmpEqImm (rCrI w) s) else xdo (w.extractLsb' 0 13 == 0#13) (execXpCmpEqReg (rCrR w) s)
  | 0x0D =>
      if w.getLsbD 17 then some (execXpCmpNeImm (rCrI w) s) else xdo (w.extractLsb' 0 13 == 0#13) (execXpCmpNeReg (rCrR w) s)
  | 0x0E =>
      if w.getLsbD 17 then some (execXpCmpLtImm (rCrI w) s) else xdo (w.extractLsb' 0 13 == 0#13) (execXpCmpLtReg (rCrR w) s)
  | 0x0F =>
      if w.getLsbD 17 then some (execXpCmpLtuImm (rCrI w) s) else xdo (w.extractLsb' 0 13 == 0#13) (execXpCmpLtuReg (rCrR w) s)
  | 0x10 =>
      xdo (w.extractLsb' 16 10 == 0#10) (execXpBr (w.extractLsb' 0 16) s)
  | 0x11 =>
      xdo (w.extractLsb' 16 6 == 0#6) (execXpBz (w.extractLsb' 22 4) (w.extractLsb' 0 16) s)
  | 0x12 =>
      xdo (w.extractLsb' 16 6 == 0#6) (execXpBnz (w.extractLsb' 22 4) (w.extractLsb' 0 16) s)
  | 0x13 =>
      if w.getLsbD 21 then xdo (w.extractLsb' 0 10 != 0#10) (execXpLoopImm (w.extractLsb' 22 4) (w.extractLsb' 10 11) (w.extractLsb' 0 10) s)
      else xdo (w.extractLsb' 10 11 == 0#11 && w.extractLsb' 0 10 != 0#10) (execXpLoopReg (w.extractLsb' 22 4) (w.extractLsb' 0 10) s)
  | 0x14 =>
      xdo (w.extractLsb' 0 26 == 0#26) (execXpEndl s)
  | 0x15 =>
      xdo (w.extractLsb' 0 17 == 0#17) (execXpCurSet (w.extractLsb' 24 2) (w.extractLsb' 17 7) s)
  | 0x16 =>
      if w.getLsbD 20 then xdo (w.extractLsb' 16 4 == 0#4 && dimOk (fDim w)) (execXpCurStepImm (w.extractLsb' 24 2) (fDim w) (w.extractLsb' 0 16) s)
      else xdo (w.extractLsb' 0 16 == 0#16 && dimOk (fDim w)) (execXpCurStepReg (w.extractLsb' 24 2) (fDim w) (w.extractLsb' 16 4) s)
  | 0x17 =>
      xdo (w.extractLsb' 0 16 == 0#16 && dimOk (fDim w)) (execXpCurAt (w.extractLsb' 24 2) (fDim w) (w.getLsbD 20) (w.extractLsb' 16 4) s)
  | 0x18 =>
      xdo (w.extractLsb' 0 12 == 0#12 && barOk (fNb w) (fBar w)) (execXpMove (w.extractLsb' 24 2) (w.extractLsb' 22 2) (fNb w) (w.getLsbD 20) (fBar w) s)
  | 0x19 =>
      xdo (w.extractLsb' 0 12 == 0#12 && w.extractLsb' 22 2 == 0#2 && barOk (fNb w) (fBar w)) (execXpMoveA (w.extractLsb' 24 2) (fNb w) (w.getLsbD 20) (fBar w) s)
  | 0x1A =>
      xdo (w.extractLsb' 0 12 == 0#12 && w.extractLsb' 22 2 == 0#2 && barOk (fNb w) (fBar w)) (execXpMovePk (w.extractLsb' 24 2) (fNb w) (w.getLsbD 20) (fBar w) s)
  | 0x1B =>
      xdo (w.extractLsb' 0 8 == 0#8 && barOk (fNb w) (fBar w)) (execXpVpub (w.extractLsb' 24 2) (w.extractLsb' 22 2) (fNb w) (w.getLsbD 20) (fBar w) (w.extractLsb' 8 4) s)
  | 0x1C =>
      xdo (w.extractLsb' 0 3 == 0#3) (execXpFollow (w.extractLsb' 19 7) (w.extractLsb' 12 7) (w.extractLsb' 4 8) (w.getLsbD 3) s)
  | 0x1D =>
      xdo (w.extractLsb' 0 1 == 0#1) (execXpPsel (w.extractLsb' 19 7) (w.extractLsb' 12 7) (w.extractLsb' 9 3) (w.extractLsb' 1 8) s)
  | 0x1E =>
      xdo (w.extractLsb' 8 18 == 0#18) (execXpArrive (w.extractLsb' 0 8) s)
  | 0x1F =>
      xdo (w.extractLsb' 8 14 == 0#14) (execXpWaitb (w.extractLsb' 22 4) (w.extractLsb' 0 8) s)
  | 0x20 =>
      xdo (w.extractLsb' 0 19 == 0#19) (execXpTlsig (w.extractLsb' 22 4) (w.extractLsb' 19 3) s)
  | _ => none

/-- As `runCopyWord`, without building the instruction. -/
def runCopyBits (core p : Nat) (w : Word) (s : State) : Out :=
  let r := if w.extractLsb' 30 2 == 0x3#2 then
      some (execXpMoveG (w.extractLsb' 26 4) (w.extractLsb' 19 7) (w.extractLsb' 12 7) (w.extractLsb' 9 3)
        (w.getLsbD 8) (w.extractLsb' 0 8) s)
    else copyOp w s (w.extractLsb' 26 6).toNat
  match r with
  | some o => o
  | none => .next (xpIllegal core p s)

theorem copyOp_eq (w : Word) (s : State) (op : Nat) :
    copyOp w s op = (match decodeXpOp w op with
      | .ok i => some (exec i s)
      | .error _ => none) := by
  unfold copyOp
  split
  case h_33 =>
    have e : decodeXpOp w op = .error .copyIllegal := by
      unfold decodeXpOp
      split <;> first | contradiction | rfl
    rw [e]
  all_goals (simp only [decodeXpOp, xdo, xneed]; (repeat' split) <;>
    first | rfl | contradiction | (simp_all <;> subst_vars <;> rfl))

@[csimp] theorem runCopyWord_eq_bits : @runCopyWord = @runCopyBits := by
  funext core p w s
  unfold runCopyWord runCopyBits decodeXp
  by_cases h : (w.extractLsb' 30 2 == 0x3#2) = true
  · simp [h, exec]
  · simp only [h]
    rw [copyOp_eq]
    cases decodeXpOp w (w.extractLsb' 26 6).toNat <;> simp

/-- A copy processor fetches its word, decodes it and runs it. -/
def runCopy (core p : Nat) (s : State) : Out :=
  let x := xpOf s core p
  match xpFetch s core p x with
  | .bad code addr => .next (xpFault core p code addr none s)
  | .miss page addr => .next (xpHold core p .run (.page page) (requestWalk core x.ctx page 4 (.xp core p none addr) s))
  | .word w line => runCopyWord core p w { fillCache core p line s with cur := some (.xp core p) }

end Sys2Proof.Machine
end

