-- ==== Sys2Proof/Machine/Sched.lean ====
section
/-!
DEFINITION. What happens next: the issue logic of a pipe (R24, R66, R301), the default schedule, and the
acts of the agenda (log entry 20).
-/
namespace Sys2Proof.Machine

/-! ## Readiness (R22) -/

/-- The state after a unit tried its word. -/
def attempt (s : State) (ref : UnitRef) : State :=
  match runUnit { s with cur := some ref } with
  | .next t => t
  | _ => s

/-- A page of a context is being walked at a die, or is outstanding at the page service. -/
def pageBusy (s : State) (die ctx page : Nat) : Bool :=
  (s.walks ++ s.pageRecs).any fun w => decide (w.die = die ∧ w.ctx = ctx ∧ w.page = page)

/-- Trying the word of a unit that waits for `w` gets further: the wait changes, or a cause stops the
context. -/
def moves (s : State) (u : UView) (w : Wait) : Bool :=
  let t := attempt s u.ref
  ((viewOf t u.ref).bind (waitOf t)) ≠ some w || (ctxD t u.ctx).faulted

/-- A wait is over: the word, tried again, would not wait for the same thing. A yield ends with its
clocks; stops, retirement and empty votes end by other steps. -/
def waitOver (s : State) (u : UView) : Bool :=
  match waitOf s u with
  | none => true
  | some w => match w.on with
    | .stopped _ => false
    | .exiting => false
    | .fragments _ => false
    | .quiesced => false
    | .yield c => decide (c ≤ s.clk)
    | .page page => !pageBusy s (dieNo u.core) u.ctx page || moves s u w
    | _ => moves s u w

/-- A gang may issue: it is resident, neither stopped for good nor by a quiesce, in turn, and held by no load that
waits for its page (R18, R309, R326, R331). -/
def gangOpen (s : State) (gk : Nat) (g : Gang) : Bool :=
  g.place = .resident && !g.dead && g.live ≠ [] && !(ctxD s g.ctx).faulted && !heldByQuiesce s gk g && inTurn s g
    && !(s.queue.any fun e => e.held && (match e.unit with
      | .grp k _ => k = gk
      | _ => false))

/-- A unit may issue, waits apart; during an operating-point change nothing does (R369). -/
def unitOpen (s : State) (ref : UnitRef) : Bool :=
  !s.ctl.oppChanging && (match ref with
    | .grp gk _ => match gang? s gk with
      | some g => gangOpen s gk g
      | none => false
    | .inst id => match inst? s id with
      | some i => i.set.isSome && !i.stopped && !(ctxD s i.ctx).faulted && !(s.queue.any fun e => e.held && e.unit = ref)
      | none => false
    | .xp _ _ => false)

/-- The unit's next word goes to this pipe: 0 and 1 are the lane pipes, 2 the gang pipe. -/
def onPipe (s : State) (pipe : Nat) (u : UView) : Bool :=
  match fetch s u with
  | .word w => decide ((fPipe w = .gang) = (pipe = 2))
  | _ => true

/-- A held instruction goes to the pipe that is held (R66). -/
def heldElsewhere (s : State) (pipe : Nat) (u : UView) : Bool :=
  pipe ≠ 2 && (match holdOf s u.core u.ref .lane with
    | some (k, _, _) => decide (k ≠ pipe)
    | none => false)

/-- A UNIT IS READY, on whichever pipe its next word goes to. -/
def isReady (s : State) (ref : UnitRef) : Bool :=
  unitOpen s ref && (match viewOf s ref with
    | some u => waitOver s u
    | none => false)

/-- A unit is ready on a pipe. -/
def unitReady (s : State) (pipe : Nat) (ref : UnitRef) : Bool :=
  (match viewOf s ref with
    | some u => onPipe s pipe u && !heldElsewhere s pipe u
    | none => false) && isReady s ref

/-! ## The choice of a pipe (R301) -/

/-- A group ready to issue: its place in slot and slice order, its PRIO, its age, and its age limit. -/
structure Cand where
  ref : UnitRef
  key : Nat
  prio : Nat
  age : Nat
  limit : Nat
deriving DecidableEq, Repr

/-- (gang slot, half, lowest slice). -/
def groupKey (g : Gang) (r : Group) : Nat := (g.slot * 2 + g.half) * 8 + (lmin r.slices).getD 0

/-- Groups of a core that are ready on a pipe. -/
def readyGroups (s : State) (core pipe : Nat) : List Cand :=
  ((sentries s.gangs).filter fun e => e.2.core = core).flatMap fun e =>
    ((sentries e.2.groups).filter fun r => unitReady s pipe (.grp e.1 r.1)).map fun r =>
      { ref := .grp e.1 r.1, key := groupKey e.2 r.2, prio := e.2.prio, age := r.2.age, limit := ageLimitOf s e.2 }

/-- Instances of a core that are ready on a pipe, by register set. -/
def readyInsts (s : State) (core pipe : Nat) : List (Nat × UnitRef) :=
  ((sentries s.insts).filter fun e => e.2.core = core && unitReady s pipe (.inst e.1)).map fun e =>
    (e.2.set.getD 0, .inst e.1)

/-- Round robin: the first after `last` − 1, else the first of all. -/
def roundRobin (last : Nat) (l : List (Nat × UnitRef)) : Option (Nat × UnitRef) :=
  let first (l : List (Nat × UnitRef)) : Option (Nat × UnitRef) :=
    (lmin (l.map Prod.fst)).bind fun k => l.find? fun e => e.1 = k
  match first (l.filter fun e => e.1 ≥ last) with
  | some e => some e
  | none => first l

/-- The oldest group that has reached its age limit; ties go to the first in slot and slice order. -/
def oldest (l : List Cand) : Option Cand :=
  let aged := l.filter fun c => c.age ≥ c.limit
  let top := aged.filter fun c => c.age = lmax (aged.map Cand.age)
  (lmin (top.map Cand.key)).bind fun k => top.find? fun c => c.key = k

/-- Round robin in the highest PRIO level. -/
def byPrio (s : State) (core pipe : Nat) (l : List Cand) : Option Cand :=
  let p := lmax (l.map Cand.prio)
  let level := l.filter fun c => c.prio = p
  (roundRobin (sget 0 (coreOf s core).lastGroup (pipe * 8 + p)) (level.map fun c => (c.key, c.ref))).bind fun e =>
    level.find? fun c => c.ref = e.2

/-- The unit that holds a pipe, while it exists (R66). -/
def holder (s : State) (core pipe : Nat) : Option UnitRef :=
  match sget none (coreOf s core).holds pipe with
  | some (u, _, _) => (viewOf s u).map fun _ => u
  | none => none

/-- THE CHOICE: trap-priority work, the holder, groups at their age limit, the highest PRIO. While a unit
holds the pipe no other gang's instruction is issued there. -/
def choose (s : State) (core pipe : Nat) : Option UnitRef :=
  match roundRobin (sget 0 (coreOf s core).lastSet pipe) (readyInsts s core pipe) with
  | some e => some e.2
  | none => match holder s core pipe with
    | some u => if unitReady s pipe u then some u else none
    | none =>
      let l := readyGroups s core pipe
      match oldest l with
      | some c => some c.ref
      | none => (byPrio s core pipe l).map Cand.ref

/-! ## Issuing -/

/-- The pipe remembers what it issued last; trap-priority work ends a hold. -/
def remember (core pipe : Nat) (ref : UnitRef) (s : State) : State :=
  match ref with
  | .inst id =>
    let s := match sget none (coreOf s core).holds pipe with
      | some (u, _, _) => match viewOf s u with
        | some v => if u = ref then s else lapse core pipe v s
        | none => s
      | none => s
    updCore s core fun c => { c with
      lastSet := sset 0 c.lastSet pipe ((((inst? s id).bind Inst.set).getD 0) + 1) }
  | .grp gk gid => match (gang? s gk).bind fun g => (group? g gid).map fun r => (g, r) with
    | some (g, r) => updCore s core fun c => { c with
        lastGroup := sset 0 c.lastGroup (pipe * 8 + g.prio) (groupKey g r + 1) }
    | none => s
  | .xp _ _ => s

/-- A unit has got further than holding its word: it has issued it, been stopped, or gone. -/
def hasIssued (before after : State) (ref : UnitRef) : Bool :=
  match viewOf before ref, viewOf after ref with
  | some u, some v => decide (v.seq ≠ u.seq) || (match waitOf after v with
      | some ⟨.stopped _, _⟩ => true
      | _ => false)
  | _, none => true
  | none, _ => false

/-- A gang that has issued for the first time since it was admitted or readmitted: its batch may have started with
it (R18, R300, R330). -/
def noteIssue (ref : UnitRef) (before after : State) : State :=
  match ref with
  | .grp gk _ => match gang? before gk with
    | none => after
    | some g =>
      if g.idle && hasIssued before after ref then noteStart g (updGang after gk fun x => { x with idle := false }) else after
  | _ => after

/-- The word of a unit holds its pipe: W = 1 in format A (R66). -/
def wordHolds (w : Word) : Bool := fW w && !(wordW w || wordB w || wordEnter w)

/-- What the issue of a word does to holds: W = 1 makes or extends one, another word of the holder ends
it. -/
def noteHold (core pipe : Nat) (ref : UnitRef) (before after : State) : State :=
  match viewOf before ref, viewOf after ref with
  | some u, some v =>
    if v.seq ≤ u.seq then after
    else
      let mine : Option Nat := match sget none (coreOf before core).holds pipe with
        | some (x, _, start) => if x = ref then some start else none
        | none => none
      let holds : Bool := match fetch before u with
        | .word w => wordHolds w
        | _ => false
      if holds then
        updCore after core fun c => { c with holds := sset none c.holds pipe (some (ref, after.clk, mine.getD after.clk)) }
      else if mine.isSome then updCore after core fun c => { c with holds := sset none c.holds pipe none }
      else after
  | _, _ => after

/-- The gang of a unit that has a cause to take before its next instruction (R309, R310). -/
def pendingFor (s : State) (ref : UnitRef) : Option Nat :=
  match ref with
  | .grp gk gid => (gang? s gk).bind fun g => if (ripe s g).any fun p => (pendingGroups g p).contains gid then some gk else none
  | _ => none

/-- The state in which a chosen unit runs its word. -/
def prepare (core pipe : Nat) (ref : UnitRef) (s : State) : State :=
  { remember core pipe ref s with cur := some ref, chosen := s.chosen ++ [ref] }

/-- A chosen unit issues: a deferred cause first. -/
def issueUnit (core pipe : Nat) (ref : UnitRef) (s : State) : Out :=
  match pendingFor s ref with
  | some gk => execDeferredCauseDelivery gk s
  | none => match runUnit (prepare core pipe ref s) with
    | .next t => .next (noteIssue ref (prepare core pipe ref s) (noteHold core pipe ref (prepare core pipe ref s) t))
    | o => o

/-- A pipe of a core issues, if anything is ready. -/
def issueOn (core pipe : Nat) (s : State) : Out :=
  match choose s core pipe with
  | none => .next s
  | some ref => issueUnit core pipe ref s

/-! ## Copy processors -/

/-- The state after a processor tried its word. -/
def copyAttempt (s : State) (core p : Nat) : State :=
  match runCopy core p s with
  | .next t => t
  | _ => s

/-- A processor takes its next word: it runs, and does not wait for what it waited for. -/
def copyReady (s : State) (core p : Nat) : Bool :=
  let x := xpOf s core p
  !s.ctl.oppChanging && (decide (x.state = .run) || decide (x.state = .wait)) && (match x.wait with
    | none => true
    | some ⟨.page page, t⟩ => !pageBusy s (dieNo core) x.ctx page || (xpOf (copyAttempt s core p) core p).wait ≠ some ⟨.page page, t⟩
    | some w => (xpOf (copyAttempt s core p) core p).wait ≠ some w)

def copyOn (core p : Nat) (s : State) : Out := if copyReady s core p then runCopy core p s else .next s

/-! ## The default schedule -/

/-- A step of the default schedule. -/
inductive Pick where
  | unit (core pipe : Nat)
  | copy (core p : Nat)
  | ev (e : Ev)
  | tick
deriving DecidableEq, Repr

/-- Cores with gangs or instances. -/
def busyCores (s : State) : List Nat :=
  lsort ((sentries s.gangs).map (fun e => e.2.core) ++ (sentries s.insts).map fun e => e.2.core)

/-- Every pick of a round. -/
def picks (s : State) : List Pick :=
  (busyCores s).flatMap (fun c => [Pick.unit c 0, .unit c 1, .unit c 2])
    ++ s.cores.flatMap (fun e => (if copyReady s e.1 0 then [Pick.copy e.1 0] else [])
        ++ if copyReady s e.1 1 then [Pick.copy e.1 1] else [])
    ++ (evs s).map .ev

/-- In the clock that ends, every group that was ready and that no pipe chose grows older (R24). -/
def growOlder (s : State) : State :=
  (sentries s.gangs).foldl (fun t e => (sentries e.2.groups).foldl (fun t r =>
    if !s.chosen.contains (.grp e.1 r.1) && isReady s (.grp e.1 r.1) then
      updGroup t e.1 r.1 fun r => { r with age := min 4095 (r.age + 1) }
    else t) t) s

/-- One clock passes: ages rise, and holds lapse (R24, R66). -/
def tick (s : State) : State :=
  let t := { growOlder s with clk := s.clk + 1, chosen := [] }
  let t := t.cores.foldl (fun t e => lapseOn t e.1) t
  if t.clk % clocksPerUs t = 0 then passTime 1 t else t

def runPick (p : Pick) (s : State) : Out :=
  match p with
  | .unit core pipe => issueOn core pipe s
  | .copy core p => copyOn core p s
  | .ev e => runEv e s
  | .tick => .next (tick s)

/-- The default schedule takes every pick in turn, then a clock passes. -/
def runDefault (s : State) : Out :=
  match (picks s)[s.turn]? with
  | some p => runPick p { s with turn := s.turn + 1 }
  | none => runPick .tick { s with turn := 0 }

/-! ## Acts -/

/-- Rows of the table that are part of an instruction of a gang: the words themselves, and what SYSWR and
SYSRD do at some registers. None of them happens by itself. -/
def insideWord (i : Instr) : Bool :=
  match i with
  | .autoSeal _ _ _ => true
  | .autoUnseal _ _ => true
  | .vregDesignate _ _ _ => true
  | .vregRelease _ _ _ => true
  | .secUnlock _ => true
  | .secAttest _ => true
  | .secIdentity _ => true
  | .tlbInvPage _ _ => true
  | .tlbInvAll _ _ => true
  | .ptRootWrite _ _ _ => true
  | .quiesceRequest _ => true
  | .quiesceRelease _ => true
  | .waitBoundWrite _ _ => true
  | .runBoundWrite _ _ => true
  | .vdirDataRead _ => true
  | i => (encode i).isSome

/-- A memory word takes an error: a second one in a word, or a hard one, is uncorrectable (R319, R370). -/
def upset (loc : Nat) (hard : Bool) (s : State) : State :=
  let w := loc / 4
  { s with bad := sset 0 s.bad w (if hard || sget 0 s.bad w ≠ 0 then 2 else 1) }

/-- A register of a gang or of a handler's set, an accumulator row, a row of a plane (of the shadow plane from 128
on), or a word of a line's version takes an uncorrectable error. -/
def upsetReg (gk key : Nat) (s : State) : State :=
  updGang s gk fun g => if g.poison.contains key then g else { g with poison := g.poison ++ [key] }
def upsetInst (id key : Nat) (s : State) : State :=
  updInst s id fun i => { i with poison := distinct (i.poison ++ [key]) }
def upsetPlane (core k : Nat) (s : State) : State :=
  let hit (k : Nat) (q : Plane) : Plane := { q with bad := distinct (q.bad ++ [k]) }
  updCore s core fun c => { c with matrix :=
    if k < 128 then { c.matrix with active := hit k c.matrix.active }
    else { c.matrix with shadow := hit (k - 128) c.matrix.shadow } }
def upsetLine (ctx line num word : Nat) (s : State) : State :=
  updCtx s ctx fun x =>
    let l := sget {} x.lines line
    let hit (l : Line) : Line := { l with
      vers := l.vers.map fun v => if v.num = num then { v with bad := distinct (v.bad ++ [word]) } else v
      stagedBad := if (l.staged.map Prod.fst) = some num then distinct (l.stagedBad ++ [word]) else l.stagedBad }
    if num = 0 then { x with regions := x.regions.map fun r => (r.1, r.2.map fun v =>
      if v.base / 64 ≤ line ∧ line * 64 < v.base + v.size then { v with bad := distinct (v.bad ++ [line * 16 + word]) } else v) }
    else { x with lines := sset {} x.lines line (hit l) }
def upsetRow (core row : Nat) (s : State) : State :=
  updCore s core fun c => if c.matrix.poison.contains row then c
    else { c with matrix := { c.matrix with poison := c.matrix.poison ++ [row] } }

/-- A Flashing entry's content changes (R364). -/
def upsetFlash (digest : Nat) (s : State) : State :=
  { s with ctl := { s.ctl with
      flashing := s.ctl.flashing.map fun f => if f.digest = digest then { f with corrupt := true } else f } }

/-- One act. -/
def runAct (a : Act) (s : State) : Out :=
  match a with
  | .event i => if insideWord i then .next s else exec i s
  | .issue core pipe => issueOn core pipe s
  | .copy core p => copyOn core p s
  | .elapse us => .next (passTime us s)
  | .upset loc hard => .next (upset loc hard s)
  | .upsetReg gk key => .next (upsetReg gk key s)
  | .upsetInst id key => .next (upsetInst id key s)
  | .upsetRow core row => .next (upsetRow core row s)
  | .upsetPlane core k => .next (upsetPlane core k s)
  | .upsetLine ctx line num word => .next (upsetLine ctx line num word s)
  | .shadow rows => .next { s with shadow := rows }
  | .upsetFlash digest => .next (upsetFlash digest s)

/-- WHAT HAPPENS NEXT: the first act of the agenda, in one clock; with an empty agenda, the next pick of
the default schedule. -/
def advanceModule (s : State) : Out :=
  match s.agenda with
  | a :: rest => runAct a (tick { s with agenda := rest })
  | [] => runDefault s

end Sys2Proof.Machine
end

