-- ==== Sys2Proof/Machine/Place.lean ====
section
/-!
DEFINITION. A program word placed where the next step runs it (log entry 21): what a launch, or a start of
a copy program, would have come to.
-/
namespace Sys2Proof.Machine

/-- The byte address of the placed word, in the global window and in the near tier. -/
def placeVa : Nat := 0x40000

/-- The page of the placed word, cached at die 0 for the management context. -/
def placeTlb : Tlb := { die := 0, ctx := 1, page := placeVa / 0x10000, pa := placeVa, r := true, w := true, x := true, d := true }

/-- The management context, running. -/
def placeCtx (s : State) : Context := { ctxD s 1 with faulted := false, qState := 0 }

/-- A gang of 32 threads at the placed word, in slot 0 of core 0. -/
def placeGang : Gang :=
  { ctx := 1, core := 0, home := 0, slot := 0, live := List.range 32, entry := placeVa / 4, idemPc := placeVa / 4
    groups := [(0, some { slices := List.range 8, pc := placeVa / 4, qids := [0] })], idle := false }

/-- A copy processor that runs at the placed word. -/
def placeXp : Xp := { state := .run, ctx := 1, base := BitVec.ofNat 64 placeVa }

/-- The word is a copy word, and no word of a gang. -/
def onlyCopy (s : State) (w : Word) : Bool :=
  match decodeCompute w with
  | .ok _ => false
  | .error _ => w.extractLsb' 30 2 == 0x3#2 || (copyOp w s (w.extractLsb' 26 6).toNat).isSome

/-- The word in memory, translated, with core 0 clear for what runs it. -/
def placeWord (w : Word) (s : State) : State :=
  let kvs := placed (viewLoc 0 placeVa) (natLe 4 w.toNat)
  let s := writeBytes (clearBadKeys s (kvs.map Prod.fst)) kvs
  { s with
    enc := ssets 0 s.enc (kvs.map fun e => (e.1, 0))
    tlb := placeTlb :: s.tlb
    ctxs := sset none s.ctxs 1 (some (placeCtx s))
    gangs := s.gangs.filter fun e => (e.2.map Gang.core) ≠ some 0
    insts := s.insts.filter fun e => (e.2.map Inst.core) ≠ some 0
    cores := sset {} s.cores 0 {}
    ctl := { s.ctl with up := true, off := false, oppChanging := false } }

/-- The word runs next: on a copy processor where only that decodes it, else in a gang. -/
def placeNext (w : Word) (s : State) : State :=
  let t := placeWord w s
  if onlyCopy s w then
    { updCore t 0 (fun c => { c with xp0 := placeXp }) with agenda := .copy 0 0 :: s.agenda }
  else
    { setGang t 0 (some placeGang) with agenda := .issue 0 (if fPipe w = .gang then 2 else 0) :: s.agenda }

end Sys2Proof.Machine
end

