-- ==== Sys2Proof/Machine/Step.lean ====
section
/-!
DEFINITION. One step of the module: what the agenda, or the default schedule, has next.
-/
namespace Sys2Proof.Machine

def step (s : State) : Host.Outcome State Fault Refusal := advanceModule s

/-- `s` with a word placed where the next step fetches and runs it. An instruction has 32 bits. -/
def State.withFetchWord (s : State) (_nbits w : Nat) : State := placeNext (w32 w) s

end Sys2Proof.Machine
end

