-- ==== Sys2Proof/Safety.lean ====
section
/-!
DEFINITION. What counts as a safe step.
-/
namespace Sys2Proof.Safety

/-- A step is safe when it neither faults nor is refused: the module goes on, be it by taking an
exception. -/
def SafeStep (s : Machine.State) : Prop := ∃ t, Machine.step s = .next t

end Sys2Proof.Safety
end

