-- ==== Sys2Proof/Claims.lean ====
section
/-!
DEFINITION. The words in which the obligations speak: when an instruction word runs, the tables of what
words and steps come to, and what a state holds.
-/
namespace Sys2Proof.Claims
open Sys2Proof.Machine

/-! ## When a word runs -/

/-- The unit `u` issues instruction word `i` in state `s`, whose entry needs `n`: the checks of R71
pass, and the word acts on the lanes `acts`. -/
def Runs (i : Instr) (n : Need) (s : State) (u : UView) (acts : List Nat) : Prop :=
  unitView s = some u ∧ precheck i n u s = .go acts

/-- The checks of R71 raise cause `c` in the lanes `ls`. -/
def Raises (i : Instr) (n : Need) (s : State) (u : UView) (c : Cause) (ls : List Nat) : Prop :=
  unitView s = some u ∧ precheck i n u s = .raise c ls

/-- What a word that computes leaves: in the lane pipe D of every acting lane, in the gang pipe D of the
gang, from the source fields as that pipe reads them. -/
def result (n : Need) (d : BitVec 6) (f : (BitVec 6 → Word) → Word) (u : UView) (acts : List Nat)
    (s : State) : State :=
  match n.pipe with
  | .lane => laneResult d n.w (acts.map fun l => (l, f fun x => vsrc s u x l)) u s
  | .gang => gangResult d n.w (f fun x => gsrc s u x) u s

/-- A whole number as a 32-bit word, modulo 2^32. -/
def int32 (x : Int) : Word := BitVec.ofInt 32 x
/-- `x` moved into the range from `lo` to `hi`. -/
def clamped (lo hi x : Int) : Int := max lo (min hi x)
/-- Bits 15:0 of an operand as a signed and as an unsigned number. -/
def s16 (x : Word) : Int := (x.extractLsb' 0 16).toInt
def n16 (x : Word) : Int := ((x.toNat % 0x10000 : Nat) : Int)
/-- IMM6 as a signed number. -/
def imm (f : BitVec 6) : Int := f.toInt
/-- The position and the width of the bit field that B names (R97). -/
def fieldAt (b : Word) : Nat := b.toNat % 32
def fieldBits (b : Word) : Nat := min (b.toNat / 256 % 64) (32 - b.toNat % 32)
/-- Rotation to the left by `k` below 32 places. -/
def rotated (x k : Nat) : Nat := x * 2 ^ k % 2 ^ 32 + x / 2 ^ (32 - k)

/-- The integer words of both pipes (R86–R101): the need of each, its D, and D's value from the fields
that it reads, in exact arithmetic. -/
inductive IntWord : Instr → Need → BitVec 6 → ((BitVec 6 → Word) → Word) → Prop
  | iaddA (p : Pipe) (o : O3) : IntWord (.iaddA p o) (need3 p o) o.d (fun r => int32 ((r o.a).toInt + (r o.b).toInt))
  | iaddI (p : Pipe) (o : O3) : IntWord (.iaddI p o) (needI p o) o.d (fun r => int32 ((r o.a).toInt + imm o.b))
  | isubA (p : Pipe) (o : O3) : IntWord (.isubA p o) (need3 p o) o.d (fun r => int32 ((r o.a).toInt - (r o.b).toInt))
  | isubI (p : Pipe) (o : O3) : IntWord (.isubI p o) (needI p o) o.d (fun r => int32 ((r o.a).toInt - imm o.b))
  | imulA (p : Pipe) (o : O3) : IntWord (.imulA p o) (need3 p o) o.d (fun r => int32 ((r o.a).toInt * (r o.b).toInt))
  | imulI (p : Pipe) (o : O3) : IntWord (.imulI p o) (needI p o) o.d (fun r => int32 ((r o.a).toInt * imm o.b))
  | imulhS32 (p : Pipe) (o : O3) : IntWord (.imulhS32 p o) (need3 p o) o.d (fun r => int32 ((r o.a).toInt * (r o.b).toInt / 2 ^ 32))
  | imulhN32 (p : Pipe) (o : O3) : IntWord (.imulhN32 p o) (need3 p o) o.d (fun r => w32 ((r o.a).toNat * (r o.b).toNat / 2 ^ 32))
  | imad (p : Pipe) (o : O3) : IntWord (.imad p o) (needT p o) o.d (fun r => int32 ((r o.a).toInt * (r o.b).toInt + (r o.d).toInt))
  | iaddSatS32 (p : Pipe) (o : O3) : IntWord (.iaddSatS32 p o) (need3 p o) o.d (fun r => int32 (clamped (-2 ^ 31) (2 ^ 31 - 1) ((r o.a).toInt + (r o.b).toInt)))
  | iaddSatN32 (p : Pipe) (o : O3) : IntWord (.iaddSatN32 p o) (need3 p o) o.d (fun r => int32 (clamped 0 (2 ^ 32 - 1) (((r o.a).toNat : Int) + (r o.b).toNat)))
  | isubSatS32 (p : Pipe) (o : O3) : IntWord (.isubSatS32 p o) (need3 p o) o.d (fun r => int32 (clamped (-2 ^ 31) (2 ^ 31 - 1) ((r o.a).toInt - (r o.b).toInt)))
  | isubSatN32 (p : Pipe) (o : O3) : IntWord (.isubSatN32 p o) (need3 p o) o.d (fun r => int32 (clamped 0 (2 ^ 32 - 1) (((r o.a).toNat : Int) - (r o.b).toNat)))
  | iminS32 (p : Pipe) (o : O3) : IntWord (.iminS32 p o) (need3 p o) o.d (fun r => int32 (min (r o.a).toInt (r o.b).toInt))
  | iminN32 (p : Pipe) (o : O3) : IntWord (.iminN32 p o) (need3 p o) o.d (fun r => w32 (min (r o.a).toNat (r o.b).toNat))
  | imaxS32 (p : Pipe) (o : O3) : IntWord (.imaxS32 p o) (need3 p o) o.d (fun r => int32 (max (r o.a).toInt (r o.b).toInt))
  | imaxN32 (p : Pipe) (o : O3) : IntWord (.imaxN32 p o) (need3 p o) o.d (fun r => w32 (max (r o.a).toNat (r o.b).toNat))
  | iabs (p : Pipe) (o : O2) : IntWord (.iabs p o) (need2 p o) o.d (fun r => int32 (r o.a).toInt.natAbs)
  | iabsSat (p : Pipe) (o : O2) : IntWord (.iabsSat p o) (need2 p o) o.d (fun r => int32 (min (2 ^ 31 - 1) (r o.a).toInt.natAbs))
  | andA (p : Pipe) (o : O3) : IntWord (.andA p o) (need3 p o) o.d (fun r => r o.a &&& r o.b)
  | orB (p : Pipe) (o : O3) : IntWord (.orB p o) (need3 p o) o.d (fun r => r o.a ||| r o.b)
  | xorB (p : Pipe) (o : O3) : IntWord (.xorB p o) (need3 p o) o.d (fun r => r o.a ^^^ r o.b)
  | andn (p : Pipe) (o : O3) : IntWord (.andn p o) (need3 p o) o.d (fun r => r o.a &&& ~~~ r o.b)
  | andI (p : Pipe) (o : O3) : IntWord (.andI p o) (needI p o) o.d (fun r => r o.a &&& int32 (imm o.b))
  | shlA (p : Pipe) (o : O3) : IntWord (.shlA p o) (need3 p o) o.d (fun r => w32 ((r o.a).toNat * 2 ^ (r o.b).toNat))
  | shlI (p : Pipe) (o : O3) : IntWord (.shlI p o) { needI p o with limits := countOk o.b } o.d (fun r => w32 ((r o.a).toNat * 2 ^ o.b.toNat))
  | shrA (p : Pipe) (o : O3) : IntWord (.shrA p o) (need3 p o) o.d (fun r => w32 ((r o.a).toNat / 2 ^ (r o.b).toNat))
  | shrI (p : Pipe) (o : O3) : IntWord (.shrI p o) { needI p o with limits := countOk o.b } o.d (fun r => w32 ((r o.a).toNat / 2 ^ o.b.toNat))
  | sarA (p : Pipe) (o : O3) : IntWord (.sarA p o) (need3 p o) o.d (fun r => int32 ((r o.a).toInt / 2 ^ (r o.b).toNat))
  | sarI (p : Pipe) (o : O3) : IntWord (.sarI p o) { needI p o with limits := countOk o.b } o.d (fun r => int32 ((r o.a).toInt / 2 ^ o.b.toNat))
  | rotA (p : Pipe) (o : O3) : IntWord (.rotA p o) (need3 p o) o.d (fun r => w32 (rotated (r o.a).toNat ((r o.b).toNat % 32)))
  | rotI (p : Pipe) (o : O3) : IntWord (.rotI p o) { needI p o with limits := countOk o.b } o.d (fun r => w32 (rotated (r o.a).toNat o.b.toNat))
  | bfxN32 (p : Pipe) (o : O3) : IntWord (.bfxN32 p o) (need3 p o) o.d (fun r => w32 ((r o.a).toNat / 2 ^ fieldAt (r o.b) % 2 ^ fieldBits (r o.b)))
  | bfxS32 (p : Pipe) (o : O3) : IntWord (.bfxS32 p o) (need3 p o) o.d (fun r => int32 (Int.bmod ((r o.a).toNat / 2 ^ fieldAt (r o.b)) (2 ^ fieldBits (r o.b))))
  | bfi (p : Pipe) (o : O3) : IntWord (.bfi p o) (needT p o) o.d (fun r => BitVec.ofBoolListLE ((List.range 32).map fun k =>
      if fieldAt (r o.b) ≤ k ∧ k < fieldAt (r o.b) + fieldBits (r o.b) then (r o.a).getLsbD (k - fieldAt (r o.b))
      else (r o.d).getLsbD k))
  | popc (p : Pipe) (o : O2) : IntWord (.popc p o) (need2 p o) o.d (fun r => w32 ((List.range 32).countP fun k => (r o.a).getLsbD k))
  | clz (p : Pipe) (o : O2) : IntWord (.clz p o) (need2 p o) o.d (fun r => w32 (if r o.a = 0 then 32 else 31 - Nat.log2 (r o.a).toNat))
  | brev (p : Pipe) (o : O2) : IntWord (.brev p o) (need2 p o) o.d (fun r => BitVec.ofBoolListLE ((List.range 32).map fun k => (r o.a).getLsbD (31 - k)))
  | mov (p : Pipe) (o : O2) : IntWord (.mov p o) (need2 p o) o.d (fun r => r o.a)
  | icmpEq (p : Pipe) (o : O3) : IntWord (.icmpEq p o) (need3 p o) o.d (fun r => boolWord (decide (r o.a = r o.b)))
  | icmpNe (p : Pipe) (o : O3) : IntWord (.icmpNe p o) (need3 p o) o.d (fun r => boolWord (decide (r o.a ≠ r o.b)))
  | icmpLtS32 (p : Pipe) (o : O3) : IntWord (.icmpLtS32 p o) (need3 p o) o.d (fun r => boolWord (decide ((r o.a).toInt < (r o.b).toInt)))
  | icmpLeS32 (p : Pipe) (o : O3) : IntWord (.icmpLeS32 p o) (need3 p o) o.d (fun r => boolWord (decide ((r o.a).toInt ≤ (r o.b).toInt)))
  | icmpLtN32 (p : Pipe) (o : O3) : IntWord (.icmpLtN32 p o) (need3 p o) o.d (fun r => boolWord (decide ((r o.a).toNat < (r o.b).toNat)))
  | icmpLeN32 (p : Pipe) (o : O3) : IntWord (.icmpLeN32 p o) (need3 p o) o.d (fun r => boolWord (decide ((r o.a).toNat ≤ (r o.b).toNat)))
  | sel (p : Pipe) (o : O3) : IntWord (.sel p o) (needT p o) o.d (fun r => if r o.d ≠ 0 then r o.a else r o.b)
  | icmpGtS32 (p : Pipe) (o : O3) : IntWord (.icmpGtS32 p o) (need3 p o) o.d (fun r => boolWord (decide ((r o.b).toInt < (r o.a).toInt)))
  | icmpGeS32 (p : Pipe) (o : O3) : IntWord (.icmpGeS32 p o) (need3 p o) o.d (fun r => boolWord (decide ((r o.b).toInt ≤ (r o.a).toInt)))
  | icmpGtN32 (p : Pipe) (o : O3) : IntWord (.icmpGtN32 p o) (need3 p o) o.d (fun r => boolWord (decide ((r o.b).toNat < (r o.a).toNat)))
  | icmpGeN32 (p : Pipe) (o : O3) : IntWord (.icmpGeN32 p o) (need3 p o) o.d (fun r => boolWord (decide ((r o.b).toNat ≤ (r o.a).toNat)))
  | iaddSatS16 (p : Pipe) (o : O3) : IntWord (.iaddSatS16 p o) (need3 p o) o.d (fun r => int32 (clamped (-2 ^ 15) (2 ^ 15 - 1) (s16 (r o.a) + s16 (r o.b))))
  | iaddSatN16 (p : Pipe) (o : O3) : IntWord (.iaddSatN16 p o) (need3 p o) o.d (fun r => int32 (clamped 0 (2 ^ 16 - 1) (n16 (r o.a) + n16 (r o.b))))
  | isubSatS16 (p : Pipe) (o : O3) : IntWord (.isubSatS16 p o) (need3 p o) o.d (fun r => int32 (clamped (-2 ^ 15) (2 ^ 15 - 1) (s16 (r o.a) - s16 (r o.b))))
  | isubSatN16 (p : Pipe) (o : O3) : IntWord (.isubSatN16 p o) (need3 p o) o.d (fun r => int32 (clamped 0 (2 ^ 16 - 1) (n16 (r o.a) - n16 (r o.b))))
  | iaddS16 (p : Pipe) (o : O3) : IntWord (.iaddS16 p o) (need3 p o) o.d (fun r => int32 (Int.bmod (s16 (r o.a) + s16 (r o.b)) (2 ^ 16)))
  | iaddN16 (p : Pipe) (o : O3) : IntWord (.iaddN16 p o) (need3 p o) o.d (fun r => int32 ((n16 (r o.a) + n16 (r o.b)) % 2 ^ 16))
  | isubS16 (p : Pipe) (o : O3) : IntWord (.isubS16 p o) (need3 p o) o.d (fun r => int32 (Int.bmod (s16 (r o.a) - s16 (r o.b)) (2 ^ 16)))
  | isubN16 (p : Pipe) (o : O3) : IntWord (.isubN16 p o) (need3 p o) o.d (fun r => int32 ((n16 (r o.a) - n16 (r o.b)) % 2 ^ 16))
  | imulS16 (p : Pipe) (o : O3) : IntWord (.imulS16 p o) (need3 p o) o.d (fun r => int32 (Int.bmod (s16 (r o.a) * s16 (r o.b)) (2 ^ 16)))
  | imulN16 (p : Pipe) (o : O3) : IntWord (.imulN16 p o) (need3 p o) o.d (fun r => int32 ((n16 (r o.a) * n16 (r o.b)) % 2 ^ 16))
  | imulSat (p : Pipe) (o : O3) : IntWord (.imulSat p o) (need3 p o) o.d (fun r => int32 (clamped (-2 ^ 31) (2 ^ 31 - 1) ((r o.a).toInt * (r o.b).toInt)))
  | movl (p : Pipe) (d : BitVec 6) (m : BitVec 16) :
    IntWord (.movl p d m) { pipe := p, dst := some d } d (fun _ => w32 m.toNat)
  | movh (p : Pipe) (d : BitVec 6) (m : BitVec 16) :
    IntWord (.movh p d m) { pipe := p, dst := some d, srcs := [d] } d
      (fun r => w32 (m.toNat * 0x10000 + (r d).toNat % 0x10000))

/-! ## Float words (R136–R159) -/

/-- The format that SEL6 names: .f32, .f16, .bf16 (R150). -/
def selected (e : BitVec 6) : Fmt := if e = 0#6 then f32 else if e = 1#6 then f16 else bf16

/-- An operand as a number of a format: 32 bits, or bits 15:0. -/
def num (f : Fmt) (x : Word) : FVal := unpack f (if f = f32 then x.toNat else x.toNat % 0x10000)
def bits (f : Fmt) (x : Word) : Nat := if f = f32 then x.toNat else x.toNat % 0x10000
/-- A result's bits in a register, zero-extended, and its flags. -/
def put (r : Nat × Nat) : Word × Nat := (w32 r.1, r.2)
/-- IV if there is a NaN, or if there is a signalling NaN. -/
def anyNan (a b : FVal) : Nat := if a.isNan || b.isNan then 1 else 0
def anySnan (a b : FVal) : Nat := if a.isSnan || b.isSnan then 1 else 0

/-- The float words: the need, D, as what kind of result the shadow units check D, if they do, and D's value with the
exceptions that it signals. -/
inductive FloatWord : Instr → Need → BitVec 6 → Option ResFmt → ((BitVec 6 → Word) → Word × Nat) → Prop
  | faddF32 (o : O3) : FloatWord (.faddF32 o) (need3 .lane o) o.d (some (.float f32)) (fun r => put (fAdd f32 (num f32 (r o.a)) (num f32 (r o.b))))
  | fsubF32 (o : O3) : FloatWord (.fsubF32 o) (need3 .lane o) o.d (some (.float f32)) (fun r => put (fAdd f32 (num f32 (r o.a)) (num f32 (r o.b)).flip))
  | fmulF32 (o : O3) : FloatWord (.fmulF32 o) (need3 .lane o) o.d (some (.float f32)) (fun r => put (fMul f32 (num f32 (r o.a)) (num f32 (r o.b))))
  | ffmaF32 (o : O3) : FloatWord (.ffmaF32 o) (needT .lane o) o.d (some (.float f32)) (fun r => put (fFma f32 (num f32 (r o.a)) (num f32 (r o.b)) (num f32 (r o.d))))
  | fminF32 (o : O3) : FloatWord (.fminF32 o) (need3 .lane o) o.d (some (.float f32)) (fun r => put (fMinMax f32 false (bits f32 (r o.a)) (bits f32 (r o.b))))
  | fmaxF32 (o : O3) : FloatWord (.fmaxF32 o) (need3 .lane o) o.d (some (.float f32)) (fun r => put (fMinMax f32 true (bits f32 (r o.a)) (bits f32 (r o.b))))
  | faddF16 (o : O3) : FloatWord (.faddF16 o) (need3 .lane o) o.d (some (.float f16)) (fun r => put (fAdd f16 (num f16 (r o.a)) (num f16 (r o.b))))
  | fsubF16 (o : O3) : FloatWord (.fsubF16 o) (need3 .lane o) o.d (some (.float f16)) (fun r => put (fAdd f16 (num f16 (r o.a)) (num f16 (r o.b)).flip))
  | fmulF16 (o : O3) : FloatWord (.fmulF16 o) (need3 .lane o) o.d (some (.float f16)) (fun r => put (fMul f16 (num f16 (r o.a)) (num f16 (r o.b))))
  | ffmaF16 (o : O3) : FloatWord (.ffmaF16 o) (needT .lane o) o.d (some (.float f16)) (fun r => put (fFma f16 (num f16 (r o.a)) (num f16 (r o.b)) (num f16 (r o.d))))
  | fminF16 (o : O3) : FloatWord (.fminF16 o) (need3 .lane o) o.d (some (.float f16)) (fun r => put (fMinMax f16 false (bits f16 (r o.a)) (bits f16 (r o.b))))
  | fmaxF16 (o : O3) : FloatWord (.fmaxF16 o) (need3 .lane o) o.d (some (.float f16)) (fun r => put (fMinMax f16 true (bits f16 (r o.a)) (bits f16 (r o.b))))
  | faddBf16 (o : O3) : FloatWord (.faddBf16 o) (need3 .lane o) o.d (some (.float bf16)) (fun r => put (fAdd bf16 (num bf16 (r o.a)) (num bf16 (r o.b))))
  | fsubBf16 (o : O3) : FloatWord (.fsubBf16 o) (need3 .lane o) o.d (some (.float bf16)) (fun r => put (fAdd bf16 (num bf16 (r o.a)) (num bf16 (r o.b)).flip))
  | fmulBf16 (o : O3) : FloatWord (.fmulBf16 o) (need3 .lane o) o.d (some (.float bf16)) (fun r => put (fMul bf16 (num bf16 (r o.a)) (num bf16 (r o.b))))
  | ffmaBf16 (o : O3) : FloatWord (.ffmaBf16 o) (needT .lane o) o.d (some (.float bf16)) (fun r => put (fFma bf16 (num bf16 (r o.a)) (num bf16 (r o.b)) (num bf16 (r o.d))))
  | fminBf16 (o : O3) : FloatWord (.fminBf16 o) (need3 .lane o) o.d (some (.float bf16)) (fun r => put (fMinMax bf16 false (bits bf16 (r o.a)) (bits bf16 (r o.b))))
  | fmaxBf16 (o : O3) : FloatWord (.fmaxBf16 o) (need3 .lane o) o.d (some (.float bf16)) (fun r => put (fMinMax bf16 true (bits bf16 (r o.a)) (bits bf16 (r o.b))))
  | fcmpEq (o : O3) : FloatWord (.fcmpEq o) (need3 .lane o) o.d none (fun r => (boolWord (fEq (num f32 (r o.a)) (num f32 (r o.b))), anySnan (num f32 (r o.a)) (num f32 (r o.b))))
  | fcmpLt (o : O3) : FloatWord (.fcmpLt o) (need3 .lane o) o.d none (fun r => (boolWord (fLt (num f32 (r o.a)) (num f32 (r o.b))), anyNan (num f32 (r o.a)) (num f32 (r o.b))))
  | fcmpLe (o : O3) : FloatWord (.fcmpLe o) (need3 .lane o) o.d none (fun r => (boolWord (fLt (num f32 (r o.a)) (num f32 (r o.b)) || fEq (num f32 (r o.a)) (num f32 (r o.b))), anyNan (num f32 (r o.a)) (num f32 (r o.b))))
  | fcmpUn (o : O3) : FloatWord (.fcmpUn o) (need3 .lane o) o.d none (fun r => (boolWord ((num f32 (r o.a)).isNan || (num f32 (r o.b)).isNan), anySnan (num f32 (r o.a)) (num f32 (r o.b))))
  | fscale (o : O3) : FloatWord (.fscale o) (need3 .lane o) o.d (some (.float f32)) (fun r => put (fScale f32 (r o.a).toNat (r o.b).toInt))
  | fabs (o : O3) : FloatWord (.fabs o) (needI .lane o) o.d none (fun r => put ((bits (selected o.b) (r o.a)) % (selected o.b).signBit, 0))
  | fneg (o : O3) : FloatWord (.fneg o) (needI .lane o) o.d none (fun r => put (((bits (selected o.b) (r o.a)) + (selected o.b).signBit) % (2 * (selected o.b).signBit), 0))
  | frcp (o : O3) : FloatWord (.frcp o) (needI .lane o) o.d (some (.float (selected o.b))) (fun r => put (fRcp (selected o.b) (num (selected o.b) (r o.a))))
  | frsq (o : O3) : FloatWord (.frsq o) (needI .lane o) o.d (some (.float (selected o.b))) (fun r => put (fRsq (selected o.b) (num (selected o.b) (r o.a))))
  | fsqrt (o : O3) : FloatWord (.fsqrt o) (needI .lane o) o.d (some (.float (selected o.b))) (fun r => put (fSqrt (selected o.b) (num (selected o.b) (r o.a))))
  | fexp2 (o : O3) : FloatWord (.fexp2 o) (needI .lane o) o.d (some (.float (selected o.b))) (fun r => put (fExp2 (selected o.b) (num (selected o.b) (r o.a))))
  | flog2 (o : O3) : FloatWord (.flog2 o) (needI .lane o) o.d (some (.float (selected o.b))) (fun r => put (fLog2 (selected o.b) (num (selected o.b) (r o.a))))
  | fcvt (o : O3) : FloatWord (.fcvt o) (needI .lane o) o.d (some (convertFmt o.b.toNat)) (fun r => convert o.b.toNat (r o.a))
  | fclass (o : O3) : FloatWord (.fclass o) (needI .lane o) o.d none (fun r => put (fClass (selected o.b) (bits (selected o.b) (r o.a)), 0))

/-- A lane signals an exception that SYS.FP_CTL enables (R148): IV under bit 0, OF under bit 1. -/
def trapsOn (ctl : Word) (fl : Nat) : Bool :=
  (ctl.getLsbD 0 && fl % 2 = 1) || (ctl.getLsbD 1 && fl / 4 % 2 = 1)

/-- The shadow unit of a lane differs from its result, in a word that the shadow units check (R158, R159). -/
def differs (ck : Option ResFmt) (s : State) (l : Nat) (x : Word) : Bool :=
  match ck with
  | some k => shadowFails s.shadow k l x
  | none => false

/-- The shadow differences that are due have been met by a word that the shadow units check. -/
def shadowMet (ck : Option ResFmt) (s : State) : State := if ck.isSome then { s with shadow := [] } else s

/-- The cause of a lane of a float word, if any: a shadow difference before an enabled overflow before an
enabled invalid operation (R148, R159). -/
def floatCause (ck : Option ResFmt) (s : State) (u : UView) (l : Nat) (r : Word × Nat) : Option Nat :=
  if differs ck s l r.1 then some 0x22
  else if (fpCtlOf s u).getLsbD 1 && r.2 / 4 % 2 = 1 then some 0x21
  else if (fpCtlOf s u).getLsbD 0 && r.2 % 2 = 1 then some 0x20
  else none

/-- How a word some of whose lanes may raise a cause ends (R43, R148, R309): with none, D of every acting lane. Where
lanes raise one outside state code, or all of them do, the word raises the highest of their causes in them, and no
lane writes D; in state code the others write theirs, and those lanes are parked as the word completes. -/
def lanesEnd (d : BitVec 6) (w : Bool) (acts : List Nat) (val : Nat → Word) (cause : Nat → Option Nat) (u : UView)
    (t : State) : State :=
  let hit := acts.filter fun l => (cause l).isSome
  if hit = [] then advance (laneResult d w (acts.map fun l => (l, val l)) u t) u
  else if u.region = none ∨ hit = acts then raiseOn { code := (acts.filterMap cause).foldl max 0 } hit u t
  else advance (laneResult d w ((acts.filter fun l => l ∉ hit).map fun l => (l, val l)) u
    (setFailed (hit.map fun l => (l, { code := (cause l).getD 0 })) u t)) u

/-- What the lanes of a float word leave in SYS.FP_STAT: the flags of every acting lane whose shadow agrees. -/
def floatFlags (ck : Option ResFmt) (val : Nat → Word × Nat) (u : UView) (acts : List Nat) (s : State) : State :=
  shadowMet ck (setFlags (orFlags (acts.map fun l => if differs ck s l (val l).1 then 0 else (val l).2)) u s)

/-! ## Byte, hash and generator words, cross-lane words (R103–R117) -/

/-- Bits 8k+7 … 8k of a word. -/
def byteNo (x : Word) (k : Nat) : Nat := x.toNat / 256 ^ k % 256
/-- A word from its four bytes, lowest first. -/
def fromBytes (b0 b1 b2 b3 : Nat) : Word := w32 (b0 + 256 * b1 + 65536 * b2 + 16777216 * b3)
/-- The byte of BYTEQ, and of BPERM. -/
def equalByte (a b : Word) (k : Nat) : Nat := if byteNo a k = byteNo b k then 255 else 0
def permByte (a b : Word) (k : Nat) : Nat :=
  if b.toNat / 16 ^ k % 16 ≤ 3 then byteNo a (b.toNat / 16 ^ k % 16) else 0
/-- One division step of the reflected CRC-32C, eight of them for a byte, and four bytes (R104). -/
def crcStep (c : Word) : Word := (c >>> 1) ^^^ (if c.getLsbD 0 then 0x82F63B78#32 else 0#32)
def crcEight (c : Word) : Word := crcStep (crcStep (crcStep (crcStep (crcStep (crcStep (crcStep (crcStep c)))))))
def crc (a b : Word) : Word :=
  crcEight (crcEight (crcEight (crcEight (a ^^^ w32 (byteNo b 0)) ^^^ w32 (byteNo b 1)) ^^^ w32 (byteNo b 2))
    ^^^ w32 (byteNo b 3))
/-- BFIND: the lowest byte of A at or above the start that equals B's byte 0, else 4. -/
def firstEqual (a b : Word) : Word :=
  let start := b.toNat / 256 % 4
  let hit (k : Nat) : Bool := decide (start ≤ k) && decide (byteNo a k = byteNo b 0)
  if hit 0 then 0 else if hit 1 then 1 else if hit 2 then 2 else if hit 3 then 3 else 4
/-- xorshift64 (R109). -/
def nextDraw (x : Dword) : Dword :=
  let y := x ^^^ (x <<< 13)
  let z := y ^^^ (y >>> 7)
  z ^^^ (z <<< 17)

/-- The generator of a lane, and generators written. -/
def genAt (s : State) (u : UView) (l : Nat) : Dword := ((u.gk.bind (gang? s)).map fun g => sget 1 g.gen l).getD 1

/-- The lane that SHFL reads in a gang of `n` lanes, from lane `l` with B modulo `n` (R114). -/
def fromIdx (_ _ k : Nat) : Nat := k
def fromXor (_ l k : Nat) : Nat := l ^^^ k
def fromUp (_ l k : Nat) : Nat := if k ≤ l then l - k else l
def fromDown (n l k : Nat) : Nat := if l + k ≤ n - 1 then l + k else l

/-- The words of 0x60–0x68 and 0x70–0x79 that act on registers: D of each acting lane from all lanes'
sources, read as the lane pipe reads them. `r l f` is field `f` of lane `l`. -/
inductive LaneWord : Instr → Need → BitVec 6 → (UView → List Nat → (Nat → BitVec 6 → Word) → Nat → Word) → Prop
  | byteq (o : O3) : LaneWord (.byteq o) (need3 .lane o) o.d (fun _ _ r l =>
      fromBytes (equalByte (r l o.a) (r l o.b) 0) (equalByte (r l o.a) (r l o.b) 1)
        (equalByte (r l o.a) (r l o.b) 2) (equalByte (r l o.a) (r l o.b) 3))
  | bfind (o : O3) : LaneWord (.bfind o) (need3 .lane o) o.d (fun _ _ r l => firstEqual (r l o.a) (r l o.b))
  | bperm (o : O3) : LaneWord (.bperm o) (need3 .lane o) o.d (fun _ _ r l =>
      fromBytes (permByte (r l o.a) (r l o.b) 0) (permByte (r l o.a) (r l o.b) 1)
        (permByte (r l o.a) (r l o.b) 2) (permByte (r l o.a) (r l o.b) 3))
  | crcC (o : O3) : LaneWord (.crcC o) (need3 .lane o) o.d (fun _ _ r l => crc (r l o.a) (r l o.b))
  | hmix (o : O3) : LaneWord (.hmix o) (need3 .lane o) o.d (fun _ _ r l =>
      let h := w32 ((r l o.a ^^^ r l o.b).toNat * 0x9E3779B1)
      h ^^^ w32 (h.toNat / 2 ^ 15))
  | shflIdx (o : O3) : LaneWord (.shflIdx o) (needShuffle o fromIdx) o.d (fun u _ r l => r (fromIdx u.width l ((r l o.b).toNat % u.width)) o.a)
  | shflXor (o : O3) : LaneWord (.shflXor o) (needShuffle o fromXor) o.d (fun u _ r l => r (fromXor u.width l ((r l o.b).toNat % u.width)) o.a)
  | shflUp (o : O3) : LaneWord (.shflUp o) (needShuffle o fromUp) o.d (fun u _ r l => r (fromUp u.width l ((r l o.b).toNat % u.width)) o.a)
  | shflDown (o : O3) : LaneWord (.shflDown o) (needShuffle o fromDown) o.d (fun u _ r l => r (fromDown u.width l ((r l o.b).toNat % u.width)) o.a)
  | matchL (o : O2) : LaneWord (.matchL o) (need2 .lane o) o.d (fun _ acts r l =>
      maskOf (acts.filter fun j => r j o.a = r l o.a))

/-- What such a word leaves. -/
def laneWordResult (n : Need) (d : BitVec 6)
    (f : UView → List Nat → (Nat → BitVec 6 → Word) → Nat → Word) (u : UView) (acts : List Nat) (s : State) : State :=
  laneResult d n.w (acts.map fun l => (l, f u acts (fun j x => vsrc s u x j) l)) u s

/-! ## Opcodes (R77–R79) -/

/-- The opcodes that the lane pipe's map and the gang pipe's map assign. -/
def laneOpcodes : List Nat :=
  List.range 0x3F ++ List.range' 0x40 0x29 ++ List.range' 0x70 0x0A ++ List.range' 0x80 6 ++ List.range' 0x88 6
    ++ List.range' 0x90 0x13 ++ [0xC0, 0xC1]
def gangOpcodes : List Nat :=
  List.range 0x3F ++ List.range' 0x80 0x12 ++ List.range' 0xA0 7 ++ List.range' 0xC0 9 ++ [0xD0, 0xD2, 0xD3]
    ++ List.range' 0xE0 0x0D ++ List.range' 0xF0 9

/-! ## Words with results beside D -/

/-- The needs of LEA, of RNG.SEED, RNG.NEXT and of ISECT. -/
def leaNeed (p : Pipe) (o : O3n) : Need :=
  { pipe := p, strand := o.s, dst := some o.d, pairD := true, limits := o.a.toNat < 59
    srcs := [o.a, o.a + 1, o.b] }
def seedNeed (o : OAB) : Need := { pipe := .lane, strand := o.s, srcs := [o.a, o.b] }
def drawNeed (o : OD) : Need := { pipe := .lane, strand := o.s, dst := some o.d, w := o.w }
def isectNeed (o : O3n) : Need :=
  { pipe := .lane, strand := o.s, dst := some o.d, srcs := [o.a, o.b], limits := o.d.toNat < 58
    more := [o.d.toNat, o.d.toNat + 1] }

/-- {A+1 : A} + sext(B) modulo 2^64 (R94). -/
def leaSum (a0 a1 b : Word) : Nat := (((a0.toNat + 2 ^ 32 * a1.toNat : Nat) + b.toInt) % 2 ^ 64).toNat

/-- The combination that a selector of R115 names, with the exceptions it signals. -/
def combination (e : Nat) (a b : Word) : Word × Nat :=
  if e = 0 then (w32 (a.toNat + b.toNat), 0)
  else if e = 1 then (int32 (min a.toInt b.toInt), 0)
  else if e = 2 then (int32 (max a.toInt b.toInt), 0)
  else if e = 3 then (w32 (min a.toNat b.toNat), 0)
  else if e = 4 then (w32 (max a.toNat b.toNat), 0)
  else if e = 5 then (a &&& b, 0)
  else if e = 6 then (a ||| b, 0)
  else if e = 7 then (a ^^^ b, 0)
  else if e = 8 then put (fAdd f32 (num f32 a) (num f32 b))
  else if e = 9 then put (fMinMax f32 false a.toNat b.toNat)
  else put (fMinMax f32 true a.toNat b.toNat)

/-- One node of XRED's tree from its two children, with the exceptions of the steps below it. -/
def joined (e : Nat) (x y : Option (Word × Nat)) : Option (Word × Nat) :=
  match x, y with
  | some a, some b => some ((combination e a.1 b.1).1, (combination e a.1 b.1).2 ||| a.2 ||| b.2)
  | some a, none => some a
  | none, y => y

/-- Node `j` of level `n` of XRED's tree (R115): a lane at level 0, else the join of two neighbours. -/
def treeNode (e : Nat) (leaf : Nat → Option Word) : Nat → Nat → Option (Word × Nat)
  | 0, j => (leaf j).map fun x => (x, 0)
  | n + 1, j => joined e (treeNode e leaf n (2 * j)) (treeNode e leaf n (2 * j + 1))

/-- A left fold over lanes in ascending order, with the exceptions of its steps (XSCAN). -/
def runFold (e : Nat) : List Word → Option (Word × Nat)
  | [] => none
  | x :: xs => some (xs.foldl (fun p y => ((combination e p.1 y).1, p.2 ||| (combination e p.1 y).2)) (x, 0))

/-- The identity of a selector (R115). -/
def identity (e : Nat) : Word :=
  if e = 1 then 0x7FFFFFFF else if e = 2 then 0x80000000 else if e = 3 then 0xFFFFFFFF
  else if e = 5 then 0xFFFFFFFF else if e = 8 then 0x80000000 else if e = 9 then 0x7F800000
  else if e = 10 then 0xFF800000 else 0

/-- XSCAN's value in lane `l`, with the exceptions of the steps that it includes: the fold over the acting
lanes up to `l`, or below `l` with .excl. -/
def scanAt (e : Nat) (x : Bool) (acts : List Nat) (val : Nat → Word) (l : Nat) : Word × Nat :=
  (runFold e ((acts.filter fun j => if x then decide (j < l) else decide (j ≤ l)).map val)).getD (identity e, 0)

/-- An element of an ISECT list (R116): the sentinel where a lane does not act. -/
def listAt (acts : List Nat) (val : Nat → Word) (j : Nat) : Word := if j ∈ acts then val j else 0xFFFFFFFF

/-- How many of `n` elements differ from the sentinel and lie at or below `m`. -/
def countUpTo (m : Word) (n : Nat) (a : Nat → Word) : Word :=
  w32 ((List.range n).countP fun j => a j ≠ 0xFFFFFFFF ∧ (a j).toNat ≤ m.toNat)

/-- The highest position's element that is not the sentinel, else the sentinel. -/
def lastListed (n : Nat) (a : Nat → Word) : Word :=
  match (List.range n).reverse.find? fun j => a j ≠ 0xFFFFFFFF with
  | some j => a j
  | none => 0xFFFFFFFF

/-- The lowest position below `n` whose element is `x`, else all ones. -/
def positionOf (n : Nat) (b : Nat → Word) (x : Word) : Word :=
  match (List.range n).find? fun j => b j = x with
  | some j => w32 j
  | none => 0xFFFFFFFF

/-! ## What a unit holds -/

/-- The word address at which a unit stands. -/
def pcAt (s : State) (u : UView) : Nat :=
  match u.kind with
  | .grp gid => (((u.gk.bind (gang? s)).bind fun g => group? g gid).map Group.pc).getD 0
  | .inst id => ((inst? s id).map Inst.pc).getD 0

/-- `t` is `s` but for what gangs and instances hold: memory, queues, buffers, tables, contexts, cores,
dies and messages are as they were. -/
def OnlyUnits (s t : State) : Prop :=
  t = { s with gangs := t.gangs, insts := t.insts, fresh := t.fresh }

/-- Every gang but that of `u`, and every instance but `u` itself, is as it was. -/
def OthersKept (s t : State) (u : UView) : Prop :=
  (∀ gk, u.gk ≠ some gk → gang? t gk = gang? s gk) ∧ (∀ id, u.kind ≠ .inst id → inst? t id = inst? s id)

/-- The memory, the queues and the buffers of the memory system are as they were. -/
def MemoryKept (s t : State) : Prop :=
  t.mem = s.mem ∧ t.keys = s.keys ∧ t.enc = s.enc ∧ t.queue = s.queue ∧ t.sb = s.sb ∧ t.gutter = s.gutter ∧
    t.pubs = s.pubs ∧ t.homeq = s.homeq

/-- The words that name registers alone: none of them reads or writes memory. -/
inductive RegisterWord : Instr → Prop
  | int {i n d f} (h : IntWord i n d f) : RegisterWord i
  | float {i n d ck f} (h : FloatWord i n d ck f) : RegisterWord i
  | lane {i n d f} (h : LaneWord i n d f) : RegisterWord i
  | lea (p : Pipe) (o : O3n) : RegisterWord (.lea p o)
  | rngSeed (o : OAB) : RegisterWord (.rngSeed o)
  | rngNext (o : OD) : RegisterWord (.rngNext o)
  | prune (o : O3) : RegisterWord (.prune o)
  | ballot (o : O3) : RegisterWord (.ballot o)
  | bcast (o : O3) : RegisterWord (.bcast o)
  | xred (o : O2) (e : BitVec 5) : RegisterWord (.xred o e)
  | xscan (o : O2) (x : Bool) (e : BitVec 5) : RegisterWord (.xscan o x e)
  | isect (o : O3n) : RegisterWord (.isect o)

/-! ## Latches (R64) -/

/-- A latch that records register `d` no longer does. -/
def forget (d : Option Nat) (l : Latch) : Latch := if l.reg = d then { l with reg := none } else l

/-- The latches that each lane finds after `new` has shifted in, with `reg` written besides: `new` in place 0, the
three before it in places 1 to 3, without the record of the register written; in the lanes of `skip` all as before. -/
def Shifted (before after : List Latch) (new : Latch) (reg : Option Nat) (skip : List Nat) : Prop :=
  ∀ l n, n < 4 → latchAt after l n =
    if l ∈ skip then latchAt before l n else match n with
      | 0 => new
      | m + 1 => forget reg (latchAt before l m)

/-- The lanes that have failed at the unit's present word and are not yet parked. -/
def failedOf (s : State) (u : UView) : List (Nat × Cause) :=
  match u.kind with
  | .grp gid => (((u.gk.bind (gang? s)).bind fun g => group? g gid).map Group.failed).getD []
  | .inst _ => []

/-! ## The checks (R71) -/

/-- The fields of a word are registers that the gang has, and D too where it is written. -/
def FieldsOk (n : Need) (u : UView) : Prop :=
  (∀ f ∈ n.srcs, f.toNat < 60 ∧ (n.pipe = .lane → f.toNat < u.lregs)) ∧
  (∀ e, n.other = some e → e.1.toNat < 60 ∧ e.1.toNat < u.lregs) ∧
  (∀ d, n.dst = some d → d.toNat < 60 ∧ (n.pipe = .lane ∨ n.laneDst = true → d.toNat < u.lregs) ∧
    (n.pairD = true → d.toNat < 59 ∧ (n.pipe = .lane → d.toNat + 1 < u.lregs))) ∧
  (∀ r ∈ n.gs, r < 60) ∧ (∀ r ∈ n.more, r < 60)

/-- A group in linear code, with its gang and context. -/
def LinearGroup (s : State) (u : UView) (gk gid : Nat) (g : Gang) (r : Group) : Prop :=
  unitView s = some u ∧ s.cur = some (.grp gk gid) ∧ gang? s gk = some g ∧ group? g gid = some r ∧ g.region = none

/-- A cause that containment does not replace. -/
def Plain (c : Cause) (levels : List Nat) : Prop := ¬(0x30 ≤ c.code ∧ c.code ≤ 0x34) ∨ levels = []

/-! ## Memory words (R195–R204) -/

/-- {A+1 : A} + sext(B) for a lane, or for the gang; {A+1 : A} + IMM6 × size (R195). -/
def laneAddr (s : State) (u : UView) (a b : BitVec 6) (l : Nat) : Dword :=
  pair (greg s u a.toNat) (greg s u (a.toNat + 1)) + BitVec.ofInt 64 (vsrc s u b l).toInt
def gangAddr (s : State) (u : UView) (a b : BitVec 6) : Dword :=
  pair (greg s u a.toNat) (greg s u (a.toNat + 1)) + BitVec.ofInt 64 (gsrc s u b).toInt
def immAddr (s : State) (u : UView) (a b : BitVec 6) (size : Nat) : Dword :=
  pair (greg s u a.toNat) (greg s u (a.toNat + 1)) + BitVec.ofInt 64 (b.toInt * size)

/-- The needs of a load, a store and an atomic with a register offset or an immediate one. -/
def loadNeed (p : Pipe) (imm : Bool) (o : O3) : Need :=
  { pipe := p, strand := o.s, dst := some o.d, w := o.w, srcs := if imm then [] else [o.b], gs := [o.a.toNat, o.a.toNat + 1] }
def storeNeed (p : Pipe) (imm : Bool) (o : O3n) : Need :=
  { pipe := p, strand := o.s, srcs := if imm then [o.d] else [o.d, o.b], gs := [o.a.toNat, o.a.toNat + 1] }
def atomNeed (cas : Bool) (o : O3n) : Need :=
  { pipe := .lane, strand := o.s, dst := some o.d, limits := !(cas && o.d.toNat ≥ 59)
    srcs := if cas then [o.d, o.d + 1, o.b] else [o.d, o.b], gs := [o.a.toNat, o.a.toNat + 1], ends := true }
def redNeed (o : O3n) : Need :=
  { pipe := .lane, strand := o.s, srcs := [o.d, o.b], gs := [o.a.toNat, o.a.toNat + 1], ends := true }

/-- A load word: its need, its pipe's reach, D and W, whether D is a gang register, its size in bytes and
whether it sign-extends, and the address of a lane (the gang's, in the gang pipe). -/
structure LoadRow where
  reach : Reach
  size : Nat
  signed : Bool
  addr : State → UView → Nat → Dword

inductive LoadWord : Instr → Need → LoadRow → Prop
  | ldS16A (o : O3) : LoadWord (.ldS16A o) (loadNeed .lane false o) ⟨.plain, 2, true, fun s u l => laneAddr s u o.a o.b l⟩
  | ldS16I (o : O3) : LoadWord (.ldS16I o) (loadNeed .lane true o) ⟨.plain, 2, true, fun s u _ => immAddr s u o.a o.b 2⟩
  | ldN16A (o : O3) : LoadWord (.ldN16A o) (loadNeed .lane false o) ⟨.plain, 2, false, fun s u l => laneAddr s u o.a o.b l⟩
  | ldN16I (o : O3) : LoadWord (.ldN16I o) (loadNeed .lane true o) ⟨.plain, 2, false, fun s u _ => immAddr s u o.a o.b 2⟩
  | ldB32A (o : O3) : LoadWord (.ldB32A o) (loadNeed .lane false o) ⟨.plain, 4, false, fun s u l => laneAddr s u o.a o.b l⟩
  | ldB32I (o : O3) : LoadWord (.ldB32I o) (loadNeed .lane true o) ⟨.plain, 4, false, fun s u _ => immAddr s u o.a o.b 4⟩
  | ldc (o : O3) : LoadWord (.ldc o) (loadNeed .lane false o) ⟨.remote, 4, false, fun s u l => laneAddr s u o.a o.b l⟩
  | ldgA (o : O3) : LoadWord (.ldgA o) (loadNeed .gang false o) ⟨.plain, 4, false, fun s u _ => gangAddr s u o.a o.b⟩
  | ldgI (o : O3) : LoadWord (.ldgI o) (loadNeed .gang true o) ⟨.plain, 4, false, fun s u _ => immAddr s u o.a o.b 4⟩

/-- A store word: its reach, its size, the address and the data of a lane (of the gang, in the gang pipe). -/
structure StoreRow where
  reach : Reach
  size : Nat
  addr : State → UView → Nat → Dword
  data : State → UView → Nat → Word

inductive StoreWord : Instr → Need → StoreRow → Prop
  | stB32A (o : O3n) : StoreWord (.stB32A o) (storeNeed .lane false o)
      ⟨.plain, 4, fun s u l => laneAddr s u o.a o.b l, fun s u l => vsrc s u o.d l⟩
  | stB32I (o : O3n) : StoreWord (.stB32I o) (storeNeed .lane true o)
      ⟨.plain, 4, fun s u _ => immAddr s u o.a o.b 4, fun s u l => vsrc s u o.d l⟩
  | stN16A (o : O3n) : StoreWord (.stN16A o) (storeNeed .lane false o)
      ⟨.plain, 2, fun s u l => laneAddr s u o.a o.b l, fun s u l => vsrc s u o.d l⟩
  | stN16I (o : O3n) : StoreWord (.stN16I o) (storeNeed .lane true o)
      ⟨.plain, 2, fun s u _ => immAddr s u o.a o.b 2, fun s u l => vsrc s u o.d l⟩
  | stc (o : O3n) : StoreWord (.stc o) (storeNeed .lane false o)
      ⟨.remote, 4, fun s u l => laneAddr s u o.a o.b l, fun s u l => vsrc s u o.d l⟩
  | stgA (o : O3n) : StoreWord (.stgA o) (storeNeed .gang false o)
      ⟨.plain, 4, fun s u _ => gangAddr s u o.a o.b, fun s u _ => gsrc s u o.d⟩
  | stgI (o : O3n) : StoreWord (.stgI o) (storeNeed .gang true o)
      ⟨.plain, 4, fun s u _ => immAddr s u o.a o.b 4, fun s u _ => gsrc s u o.d⟩

/-- An atomic or a combiner reduction: its need, whether it returns the old value, and the new word from the
old one and the lane's D and D + 1 (R202, R203). -/
inductive UpdateWord : Instr → Need → O3n → Bool → (Word → Word → Word → Word) → Prop
  | atomAdd (o : O3n) : UpdateWord (.atomAdd o) (atomNeed false o) o true (fun old a _ => w32 (old.toNat + a.toNat))
  | atomAnd (o : O3n) : UpdateWord (.atomAnd o) (atomNeed false o) o true (fun old a _ => old &&& a)
  | atomOr (o : O3n) : UpdateWord (.atomOr o) (atomNeed false o) o true (fun old a _ => old ||| a)
  | atomXor (o : O3n) : UpdateWord (.atomXor o) (atomNeed false o) o true (fun old a _ => old ^^^ a)
  | atomMinS32 (o : O3n) : UpdateWord (.atomMinS32 o) (atomNeed false o) o true (fun old a _ => int32 (min old.toInt a.toInt))
  | atomMaxS32 (o : O3n) : UpdateWord (.atomMaxS32 o) (atomNeed false o) o true (fun old a _ => int32 (max old.toInt a.toInt))
  | atomMinN32 (o : O3n) : UpdateWord (.atomMinN32 o) (atomNeed false o) o true (fun old a _ => w32 (min old.toNat a.toNat))
  | atomMaxN32 (o : O3n) : UpdateWord (.atomMaxN32 o) (atomNeed false o) o true (fun old a _ => w32 (max old.toNat a.toNat))
  | atomXchg (o : O3n) : UpdateWord (.atomXchg o) (atomNeed false o) o true (fun _ a _ => a)
  | atomCas (o : O3n) : UpdateWord (.atomCas o) (atomNeed true o) o true (fun old a b => if old = a then b else old)
  | redMAdd (o : O3n) : UpdateWord (.redMAdd o) (redNeed o) o false (fun old a _ => w32 (old.toNat + a.toNat))
  | redMAddF32 (o : O3n) : UpdateWord (.redMAddF32 o) (redNeed o) o false
      (fun old a _ => w32 (fAdd f32 (num f32 old) (num f32 a)).1)
  | redMMinS32 (o : O3n) : UpdateWord (.redMMinS32 o) (redNeed o) o false (fun old a _ => int32 (min old.toInt a.toInt))
  | redMMaxS32 (o : O3n) : UpdateWord (.redMMaxS32 o) (redNeed o) o false (fun old a _ => int32 (max old.toInt a.toInt))
  | redMMinN32 (o : O3n) : UpdateWord (.redMMinN32 o) (redNeed o) o false (fun old a _ => w32 (min old.toNat a.toNat))
  | redMMaxN32 (o : O3n) : UpdateWord (.redMMaxN32 o) (redNeed o) o false (fun old a _ => w32 (max old.toNat a.toNat))

/-- The lanes for which a word makes an access: each acting lane in the lane pipe, the lowest acting one (for
its stack) in the gang pipe. -/
def accessLanes (n : Need) (acts : List Nat) : List Nat := if n.pipe = .gang then [acts.headD 0] else acts

/-- No older access of the unit stands before a new one: its queue is empty, the Gutter holds nothing, and
the schedule does not hold the access back. -/
def Unhindered (s : State) (u : UView) : Prop :=
  (∀ e ∈ s.queue, e.qid ∉ u.qids) ∧ s.gutter = [] ∧ s.defers.headD false = false

/-- A key of memory lies in the `n` bytes at a scratchpad, Eaves or Purlin place; a store to a die view waits
in the core's store buffer and reaches no key yet (R221). -/
def covers (p : Spot) (n loc : Nat) : Prop :=
  match p with
  | .sp c off => spLoc c off ≤ loc ∧ loc < spLoc c off + n
  | .eaves d off => eavesLoc d off ≤ loc ∧ loc < eavesLoc d off + n
  | .purlin d off => purlinLoc d off ≤ loc ∧ loc < purlinLoc d off + n
  | _ => False

/-- A byte's place: in a die view, by physical address, or at a key of memory. -/
def placeOf (p : Spot) (k : Nat) : Bool × Nat :=
  match p with
  | .view pa => (true, pa + k)
  | .sp c off => (false, spLoc c off + k)
  | .eaves d off => (false, eavesLoc d off + k)
  | .line va => (true, va + k)
  | .purlin d off => (false, purlinLoc d off + k)

/-- What a store has left at a byte's place: in memory, or in the newest store-buffer entry of the unit's gang
that holds the byte. -/
def storedAt (t : State) (u : UView) (x : Bool × Nat) : Option Byte :=
  if x.1 then (t.sb.reverse.filter fun e => decide (e.core = u.core ∧ e.gk = u.gk)).findSome? fun e => slook e.bytes x.2
  else some (readByte t x.2)

/-- A memory word's accesses, whichever kind: reach, size, access types (1 read, 2 write, 8 atomic). -/
inductive AccessWord : Instr → Need → Reach → Nat → Nat → (State → UView → Nat → Dword) → Prop
  | load {i n L} (h : LoadWord i n L) : AccessWord i n L.reach L.size 1 L.addr
  | store {i n S} (h : StoreWord i n S) : AccessWord i n S.reach S.size 2 S.addr
  | update {i n o r f} (h : UpdateWord i n o r f) : AccessWord i n .plain 4 8 (fun s u l => laneAddr s u o.a o.b l)

/-- A loaded value: sign- or zero-extended (R198). -/
def loaded (signed : Bool) (bs : List Byte) : Word :=
  if signed then int32 (Int.bmod (leNat bs) (2 ^ 16)) else w32 (leNat bs)

/-- The word at a scratchpad or Eaves place. -/
def wordAt (s : State) (p : Spot) : Word := w32 (leNat ((List.range 4).map fun k => readByte s (placeOf p k).2))

/-- What DFA.STEP4 needs. -/
def dfaNeed (o : O3) : Need :=
  { pipe := .lane, strand := o.s, dst := some o.d, w := o.w, readsD := true, srcs := [o.d, o.b]
    gs := [o.a.toNat, o.a.toNat + 1] }

/-- A transition-table entry of DFA.STEP4: 16 bits at T + 2 × (256 × state + byte), in the scratchpad (R106). -/
def tableEntry (s : State) (u : UView) (l : Nat) (T : Dword) (state byte e : Nat) : Prop :=
  ∃ p, resolve s (agentOf u) .localOnly l (T + BitVec.ofNat 64 (2 * (256 * state + byte))) 2 1 = .ok p ∧
    leNat (spotBytes s u.core u.ctx u.gk p 2) = e

/-- Nothing of the unit's stands before a new access. -/
def Clear (s : State) (u : UView) : Prop := (∀ e ∈ s.queue, e.qid ∉ u.qids) ∧ s.gutter = []

/-! ## Versioned regions (R181–R193) -/

def ldvNeed (o : O3) : Need :=
  { pipe := .lane, strand := o.s, dst := some o.d, w := o.w, srcs := [o.b], gs := [o.a.toNat, o.a.toNat + 1, o.a.toNat + 2] }
def stvNeed (o : O3n) : Need :=
  { pipe := .lane, strand := o.s, srcs := [o.d, o.b], gs := [o.a.toNat, o.a.toNat + 1, o.a.toNat + 2], ends := true }
def vlatestNeed (o : O3) : Need :=
  { pipe := .lane, strand := o.s, dst := some o.d, w := o.w, srcs := [o.b], gs := [o.a.toNat, o.a.toNat + 1] }
def pinNeed (o : OAB) : Need :=
  { pipe := .gang, strand := o.s, srcs := [o.b], gs := [o.a.toNat, o.a.toNat + 1], ends := true }

/-- How a version number stands to the line of an address: dropped (lt), held (eq), not yet stored (gt)
(R184, R185, R190). All ones stand for the latest. -/
def versionTime (s : State) (ctx va : Nat) (n : Word) : Ordering :=
  let floor := ((regionAt s ctx va).map fun e => e.2.floor).getD 0
  if n = 0xFFFFFFFF then .eq
  else if n.toNat < max (lineOf s ctx va).old floor then .lt
  else if n.toNat ≤ (lineOf s ctx va).latest then .eq else .gt

/-- The bytes of a line as version `n` of it: those of the newest stored version that is not above `n`, else
those that the line held when it was designated. -/
def versionAt (r : VRegion) (l : Line) (line n : Nat) : List Byte :=
  match l.vers.reverse.find? fun v => v.num ≤ n with
  | some v => v.bytes
  | none => (List.range 64).map fun i => sget 0 r.zero (line * 64 + i)

/-- The 32-bit word at an address as version `n` of its line. -/
def versionWord (s : State) (ctx va : Nat) (n : Word) : Word :=
  match regionAt s ctx va with
  | none => 0
  | some (_, r) =>
    let l := lineOf s ctx va
    let bs := versionAt r l (va / 64) (if n = 0xFFFFFFFF then l.latest else n.toNat)
    w32 (leNat ((bs.drop (va % 64)).take 4))

/-- No word of any version of a line is uncorrectable (R319). -/
def Intact (s : State) (ctx va : Nat) : Prop :=
  (∀ v ∈ (lineOf s ctx va).vers, v.bad = []) ∧ ∀ k r, regionAt s ctx va = some (k, r) → r.bad = []

/-- Lines of a context's heap that hold a stored version (R376). -/
def heapTaken (x : Context) : Nat := (x.lines.map fun e => e.2.vers.length).sum

/-- The bytes of a line with the words of some lanes put in: each byte is the last lane's that writes it. -/
def rewritten (line : Nat) (acts : List Nat) (addr : Nat → Nat) (data : Nat → Word) (old : List Byte) : List Byte :=
  old.mapIdx fun k b => match acts.reverse.find? fun l => addr l / 4 = (line * 64 + k) / 4 with
    | some l => BitVec.ofNat 8 ((data l).toNat / 256 ^ (k % 4))
    | none => b

/-- How many pins a region holds on a number, and the form of its list of pins. -/
def pinCount (r : VRegion) (n : Nat) : Nat := ((r.pins.find? fun p => p.1 = n).map Prod.snd).getD 0
def PinsOk (r : VRegion) : Prop := (r.pins.map Prod.fst).Nodup ∧ ∀ p ∈ r.pins, p.2 ≠ 0

/-! ## Scratchpad buffers (R169–R173) -/

def spallocNeed (o : O3) : Need :=
  { pipe := .gang, strand := o.s, dst := some o.d, w := o.w, srcs := [o.a, o.b]
    limits := o.d.toNat < 58, more := [o.d.toNat + 1, o.d.toNat + 2], ends := true }
def renewNeed (o : OAB) : Need := { pipe := .gang, strand := o.s, srcs := [o.a, o.b] }
def spfreeNeed (o : OA) : Need := { pipe := .gang, strand := o.s, srcs := [o.a], ends := true }
def spinfoNeed (o : O2) : Need :=
  { pipe := .gang, strand := o.s, dst := some o.d, w := o.w, srcs := [o.a]
    limits := o.d.toNat < 57, more := [o.d.toNat + 1, o.d.toNat + 2, o.d.toNat + 3] }

/-- The `n` granules of a core from `start` upward lie in its scratchpad, and no buffer owns one. -/
def RunFree (s : State) (core n start : Nat) : Prop :=
  start + n ≤ 6144 ∧ ∀ i < n, sget 0 s.owner (core * 8192 + start + i) = 0

/-- A handle names a live buffer: its index, and the generation that it was given. -/
def Good (s : State) (u : UView) (h : Word) (idx : Nat) : Prop :=
  idx = h.toNat % 256 ∧ h.toNat < 0x10000 ∧ (tagOf s u.ctx u.core idx).live = true ∧
    (tagOf s u.ctx u.core idx).gen = h.toNat / 256

/-- Where a buffer's bytes lie. -/
def bufferByte (core : Nat) (t : Tag) (loc : Nat) : Prop :=
  spLoc core t.base ≤ loc ∧ loc < spLoc core t.base + t.size

/-! ## FENCE, FLUSH, descriptors and packed records (R210–R217) -/

/-- Nothing of the memory system is on its way, and the queues of the unit and of its gang are empty. -/
def Settled (s : State) (u : UView) : Prop :=
  (∀ e ∈ s.queue, e.qid ∉ u.qids ∧ (u.gk ≠ none → e.gk ≠ u.gk)) ∧ s.gutter = [] ∧ s.sb = [] ∧ s.homeq = [] ∧ s.pubs = []

def tdLoadNeed (o : OAB) : Need :=
  { pipe := .gang, strand := o.s, srcs := [o.a], gs := [o.b.toNat, o.b.toNat + 1] }
def flushNeed (o : OAB) : Need :=
  { pipe := .gang, strand := o.s, srcs := [o.b], gs := [o.a.toNat, o.a.toNat + 1] }

/-- The checks that an entry's VALID bit calls for (R179, R217). -/
def entryOk (d : Desc) : Bool := if dValid d then descOk d else partOk d

/-- The address of a byte of the core's own scratchpad. -/
def spAddr (off : Nat) : Dword := BitVec.ofNat 64 (0xFF00 * 2 ^ 48 + off)

/-- `m` bytes of the core's scratchpad that the unit may read and write, at every place in them. -/
def Usable (s : State) (u : UView) (off m : Nat) : Prop :=
  off + m ≤ 0x180000 ∧ ∀ k size kind, 0 < size → k + size ≤ m →
    spCheck s u.ctx u.core (off + k) size (spAddr (off + k)) kind = .ok (.sp u.core (off + k))

/-- The number that `n` bytes of the core's scratchpad hold. -/
def spNat (s : State) (u : UView) (off n : Nat) : Nat := leNat (readBytes s (spLoc u.core off) n)

def packNeed (o : O3) : Need := { pipe := .gang, strand := o.s, dst := some o.d, w := o.w, srcs := [o.a, o.b] }

/-- The places of a dense tensor of `n` elements of `w` bytes, and of a record at `r` with room for `cap` values,
in the core's scratchpad: no two of them share a byte. -/
structure PackedPlaces (s : State) (u : UView) (dense rec : Desc) (n w cap r : Nat) (at_ : Nat → Nat) : Prop where
  space : dSpace dense = 0
  elems : ∀ i < n, elemAddr dense [(i : Int)] = spAddr (at_ i) ∧ at_ i % w = 0 ∧ Usable s u (at_ i) w
  base : dBase rec = spAddr r ∧ r % 4 = 0 ∧ Usable s u r (8 + n / 8 + cap * w)
  apart : ∀ i < n, at_ i + w ≤ r ∨ r + (8 + n / 8 + cap * w) ≤ at_ i
  distinct : ∀ i < n, ∀ j < n, at_ i = at_ j → i = j

/-! ## Matrix words (R267–R281) -/

/-- The engine of the unit's core takes a command of the unit's context: the context owns it, or it is free and
holds no saved state of the context; it has no fault, room in its queue, and no FENCE of the unit before it. -/
def EngineTakes (s : State) (u : UView) : Prop :=
  ((matrixOf s u.core).owner = some u.ctx ∨
    (matrixOf s u.core).owner = none ∧ sget none (coreOf s u.core).saved u.ctx = none) ∧
  (matrixOf s u.core).fault = false ∧ (matrixOf s u.core).queue.length < 64 ∧ ∀ e ∈ s.queue, e.qid ∉ u.qids

/-- The words that enter a command without a result: the need of each, its command from its operands, and what
the planes must be (R272). -/
inductive MatrixWord (s : State) (u : UView) : Instr → Need → MOp → Prop
  | mload (o : OAB) (h : (gsrc s u o.a).toNat < 128)
      (hd : operandOk (descOf s u.ctx u.core (gsrc s u o.a).toNat) (greg s u o.b.toNat) = true) :
      MatrixWord s u (.mload o)
        { pipe := .gang, strand := o.s, srcs := [o.a], gs := [o.b.toNat, o.b.toNat + 1], ends := true }
        (.mload (descOf s u.ctx u.core (gsrc s u o.a).toNat) (greg s u o.b.toNat) (greg s u (o.b.toNat + 1)))
  | mswap (x h : BitVec 2) (hs : (matrixOf s u.core).log.shadow ≠ .empty) :
      MatrixWord s u (.mswap x h) { pipe := .gang, strand := x, ends := true } .mswap
  | mstream (o : OAB) (n h0 m : Nat) (hn : n < 128) (h : (gsrc s u o.a).toNat = n + h0 * 256 + (m - 1) * 65536)
      (hm : 1 ≤ m) (hr : h0 + m ≤ 256) (hd : operandOk (descOf s u.ctx u.core n) (greg s u o.b.toNat) = true)
      (ha : (matrixOf s u.core).log.active = true)
      (hp : pairOk (matrixOf s u.core).log.activeFmt (dFormats (descOf s u.ctx u.core n)) = true) :
      MatrixWord s u (.mstream o)
        { pipe := .gang, strand := o.s, srcs := [o.a], gs := [o.b.toNat, o.b.toNat + 1], ends := true }
        (.mstream (descOf s u.ctx u.core n) h0 m (greg s u o.b.toNat) (greg s u (o.b.toNat + 1)))
  | mzero (o : OA) (h0 n : Nat) (h : (gsrc s u o.a).toNat = h0 + (n - 1) * 256) (hn : 1 ≤ n) (hr : h0 + n ≤ 256) :
      MatrixWord s u (.mzero o) { pipe := .gang, strand := o.s, srcs := [o.a], ends := true } (.mzero h0 n)
  | mdrainXp (o : OAB) (h0 m p : Nat) (h : (gsrc s u o.a).toNat = h0 + (m - 1) * 256 + p * 65536)
      (hm : 1 ≤ m) (hr : h0 + m ≤ 256) (hp : p < 2) :
      MatrixWord s u (.mdrainXp o) { pipe := .gang, strand := o.s, srcs := [o.a], ends := true }
        (.drainPort o.b.toNat h0 m p)
  | mtile (o : O3n) (ns na h0 kp m : Nat) (z tl : Bool) (k : Nat) (hns : ns < 128) (hna : na < 128) (hk : k < 16)
      (ha : (gsrc s u o.a).toNat = ns + na * 256 + h0 * 65536 + (if z then 2 ^ 24 else 0) + (kp - 1) * 2 ^ 25)
      (hb : (gsrc s u o.b).toNat = (m - 1) + (if tl then 256 else 0) + k * 512)
      (hkp : 1 ≤ kp ∧ kp ≤ 4) (hm : 1 ≤ m) (hr : h0 + m ≤ 256) (hv : kp * m ≤ 512)
      (hs : dValid (descOf s u.ctx u.core ns) = true) (hav : dValid (descOf s u.ctx u.core na) = true)
      (hp : pairOk (dFormats (descOf s u.ctx u.core ns)) (dFormats (descOf s u.ctx u.core na)) = true)
      (hw : tl = true → ∀ r ∈ [o.d.toNat, o.d.toNat + 1], awaited s u true [] r = none) :
      MatrixWord s u (.mtile o)
        { pipe := .gang, strand := o.s, srcs := [o.a, o.b], ends := true, limits := o.d.toNat < 59 && o.b.toNat < 59 }
        (.mtile (descOf s u.ctx u.core ns) (descOf s u.ctx u.core na) h0 m kp z
          (if tl then some (k, gpair s u o.d.toNat) else none))

def mdrainNeed (o : O2) : Need :=
  { pipe := .gang, strand := o.s, dst := some o.d, laneDst := true, w := o.w, srcs := [o.a] }
def mstatNeed (o : O2) : Need :=
  { pipe := .gang, strand := o.s, dst := some o.d, w := o.w, srcs := [o.a], limits := o.d.toNat < 59, more := [o.d.toNat + 1] }

/-- The registers that a unit reads are as they were. -/
def RegistersKept (s t : State) (u : UView) : Prop :=
  (∀ l r, vreg t u l r = vreg s u l r) ∧ (∀ r, greg t u r = greg s u r) ∧ ∀ k, qreg t u k = qreg s u k

/-! ## Control and reliability (R19, R20, R119, R120, R133) -/

/-- Where a transfer by `f` words leads: the word's own address plus `f`, modulo 2^32 (R59, R119). -/
def target (u : UView) (f : BitVec 19) : Nat := (((u.pc : Int) + f.toInt) % 2 ^ 32).toNat

/-- The transfers of control, which state code may not make (R42), with the need of each. -/
inductive Transfer : Instr → Need → Prop
  | bra (f : BitVec 19) : Transfer (.bra f) { pipe := .gang }
  | brcAny (q : BitVec 3) (p : Bool) (f : BitVec 19) : Transfer (.brcAny q p f) { pipe := .gang }
  | brcAll (q : BitVec 3) (p : Bool) (f : BitVec 19) : Transfer (.brcAll q p f) { pipe := .gang }
  | call (f : BitVec 19) : Transfer (.call f) { pipe := .gang, more := [59] }
  | ret (o : OA) : Transfer (.ret o) { pipe := .gang, strand := o.s, srcs := [o.a] }
  | regang (x : BitVec 2) : Transfer (.regang x) { pipe := .gang, strand := x }
  | exitG (x : BitVec 2) : Transfer (.exitG x) { pipe := .gang, strand := x }

/-- A lane's predicate, negated where the word says so. -/
def predicateOn (q : Word) (neg : Bool) (l : Nat) : Bool := q.getLsbD l != neg

/-- A slice of four lanes takes a branch: any, or each, of its live lanes has its predicate on; a slice without
live lanes is not there. -/
def sliceTakes (all : Bool) (q : Word) (neg : Bool) (g : Gang) (x : Nat) : Bool :=
  if all then (g.live.filter fun l => l / 4 = x).all (predicateOn q neg)
  else (g.live.filter fun l => l / 4 = x).any (predicateOn q neg)
def sliceThere (g : Gang) (x : Nat) : Bool := g.live.any fun l => l / 4 = x

/-- Nothing that a gang made is still on its way to the memory system. -/
def GangSettled (s : State) (gk : Nat) : Prop :=
  (∀ e ∈ s.queue, e.gk ≠ some gk) ∧ (∀ e ∈ s.sent, e.gk ≠ some gk) ∧
    (∀ e ∈ s.gutter, e.gk ≠ some gk) ∧ (∀ e ∈ s.sb, e.gk ≠ some gk) ∧
    ∀ e ∈ s.homeq, e.gk ≠ some gk

/-- The containment levels of a group, and of an instance. -/
def levels (s : State) (u : UView) : List Nat :=
  match u.kind with
  | .grp gid => (((u.gk.bind (gang? s)).bind fun g => group? g gid).map Group.cont).getD []
  | .inst id => ((inst? s id).map Inst.cont).getD []

/-! ## The automaton (R31–R48) -/

/-- A unit in state code, with its gang's only group, its region and the image that it runs. -/
structure InRegion (s : State) (u : UView) (gk gid : Nat) (g : Gang) (r : Group) (x : Region) (im : Image) : Prop where
  view : unitView s = some u
  cur : s.cur = some (.grp gk gid)
  gang : gang? s gk = some g
  group : sentries g.groups = [(gid, r)] ∧ group? g gid = some r
  region : g.region = some x
  image : imageOf s g.ctx x.img = some im

/-- The vote set of lanes in blocks: the user blocks that they hold, each once, ascending (R35). -/
def VoteSet (live : List Nat) (blk : Nat → Nat) (v : List Nat) : Prop :=
  v.Pairwise (· < ·) ∧ ∀ b, b ∈ v ↔ b < 1022 ∧ ∃ l ∈ live, blk l = b

/-- The code index at which a state begins. -/
def stateCode (im : Image) (st : Nat) : Nat := (im.states.getD st ([], 0, 0)).2.1

/-- A group starts state code at a state, or goes on in linear code at a word: its latches empty, no wait. -/
def StartsAt (r : Group) (pc : Nat) : Prop :=
  r.pc = pc ∧ r.wait = none ∧ r.laneLatch = emptyLatches ∧ r.gangLatch = emptyLatches

/-- What a vote with vote set `v` leaves in a gang: the listed state's pass, or the first of the passes that the
lead lists give; with no block left the gang is out of the region, or waits for its fragments. -/
def Voted (t : State) (gk gid img exitPc : Nat) (im : Image) (frags : Bool) (v : List Nat) : Prop :=
  ∃ g r, gang? t gk = some g ∧ group? g gid = some r ∧
    (∀ st, v ≠ [] → listed im v = some st → ∃ x, g.region = some x ∧ x.img = img ∧ x.exitPc = exitPc ∧ x.state = st ∧
      x.passes = [] ∧ x.vote = v ∧ StartsAt r (stateCode im st)) ∧
    (∀ st rest, v ≠ [] → listed im v = none → decompose im v.length v = st :: rest → ∃ x, g.region = some x ∧
      x.img = img ∧ x.exitPc = exitPc ∧ x.state = st ∧ x.passes = rest ∧ StartsAt r (stateCode im st)) ∧
    (v = [] → frags = false → g.region = none ∧ StartsAt r exitPc) ∧
    (v = [] → frags = true → (r.wait.map Wait.on) = some (.fragments false) ∧
      ∃ x, g.region = some x ∧ x.passes = [] ∧ x.passNo = 0 ∧ x.vote = [])

/-- The block of a lane after the commit: the rejoin block that came back, else, unless it is parked, its pending
block, else the block it has (R35, R44). -/
def committed (g : Gang) (l : Nat) : Nat :=
  match slook g.back l with
  | some b => b - 1
  | none =>
    if sget 1023 g.blk l = 1022 ∨ sget 0 g.pblk l = 0 then sget 1023 g.blk l else sget 0 g.pblk l - 1

/-! ## Barriers (R122–R127) -/

/-- The key of the record that serves barrier `n` of the unit's core. -/
def servingBar (s : State) (u : UView) (n : Nat) : Nat := barHome s u.ctx u.core n

def barNeed (o : OAB) : Need := { pipe := .gang, strand := o.s, srcs := [o.a, o.b], ends := true }
def arriveNeed (o : O2) : Need :=
  { pipe := .gang, strand := o.s, reserved := !o.w, dst := some o.d, srcs := [o.a], ends := true }
def barWaitNeed (o : OAB) : Need := { pipe := .gang, strand := o.s, srcs := [o.a, o.b] }
def barTestNeed (o : O3) : Need := { pipe := .gang, strand := o.s, reserved := !o.w, dst := some o.d, srcs := [o.a, o.b] }

/-- Phase `k` is over: the current phase lies 1 to 32767 phases after it, modulo 2^16 (R125). -/
def phaseOver (phase k : Nat) : Prop := 1 ≤ ((phase : Int) - k) % 65536 ∧ ((phase : Int) - k) % 65536 ≤ 32767

/-! ## Cohorts and timelines (R26–R28, R128, R131) -/

def cohJoinNeed (o : O3) : Need :=
  { pipe := .gang, strand := o.s, reserved := !o.w, dst := some o.d, srcs := [o.a, o.b], ends := true }
def cohLeaveNeed (o : OA) : Need := { pipe := .gang, strand := o.s, srcs := [o.a], ends := true }
def cohInfoNeed (o : O2) : Need := { pipe := .gang, strand := o.s, reserved := !o.w, dst := some o.d, srcs := [o.a] }
def tlWaitNeed (o : OAB) : Need := { pipe := .gang, strand := o.s, srcs := [o.a], gs := [o.b.toNat, o.b.toNat + 1] }
def tlReadNeed (o : O2) : Need :=
  { pipe := .gang, strand := o.s, dst := some o.d, w := o.w, srcs := [o.a], limits := o.d.toNat < 59, more := [o.d.toNat + 1] }

/-- A gang's lowest thread ID. -/
def lowestThread (s : State) (gk : Nat) : Nat := ((gang? s gk).map Gang.tid0).getD 0

/-- How many gangs of a cohort may join: 32 on a core, 256 in a cluster (R26). -/
def cohortLimit (id : Nat) : Nat := if id < 16 then 32 else 256

/-! ## Special registers (R134) -/

/-- Registers that code may write only with privilege, that only the management context may write, that nothing
may write, and that only privileged code may read. -/
def privilegedWrite : List Nat :=
  [0x010, 0x011, 0x012, 0x022, 0x023, 0x024, 0x025, 0x026, 0x02C, 0x032, 0x034, 0x104, 0x105, 0x106, 0x109, 0x110, 0x111,
   0x112, 0x113, 0x114, 0x118, 0x119, 0x11A, 0x308, 0x309, 0x30A, 0x30C, 0x30D, 0x30E, 0x30F]
def managementWrite : List Nat := [0x324, 0x325, 0x326]
def neverWritten : List Nat :=
  [0x000, 0x001, 0x002, 0x003, 0x013, 0x014, 0x015, 0x020, 0x021, 0x027, 0x028, 0x029, 0x02A, 0x02B, 0x02D, 0x02E, 0x02F,
   0x030, 0x031, 0x033, 0x035, 0x100, 0x101, 0x102, 0x108, 0x10A, 0x10C, 0x115, 0x116, 0x117, 0x11B, 0x300, 0x301, 0x302,
   0x303, 0x304, 0x305, 0x320, 0x321, 0x322, 0x327, 0x330, 0x331]
def freelyWritten : List Nat := [0x008, 0x009, 0x00A, 0x00B, 0x00C, 0x00D, 0x00E, 0x00F, 0x018, 0x019]
def privilegedRead : List Nat := [0x023, 0x024, 0x025, 0x026, 0x027, 0x118, 0x119, 0x11A, 0x11B]

/-- A register's number, with what a unit reads there. -/
inductive RegisterValue (s : State) (u : UView) : Nat → Word → Prop
  | die : RegisterValue s u 0x001 (w32 (u.core / 128))
  | core : RegisterValue s u 0x002 (w32 u.core)
  | cluster : RegisterValue s u 0x003 (w32 (u.core / 8))
  | predicate (k : Nat) (h : k < 8) : RegisterValue s u (8 + k) (qreg s u k)
  | ageLimit : RegisterValue s u 0x010 (w32 (ccOf s u.ctx u.core).ageLimit)
  | waitBound : RegisterValue s u 0x012 (ctxD s u.ctx).waitBound
  | fpCtl (gk g) (hk : u.gk = some gk) (hg : gang? s gk = some g) : RegisterValue s u 0x018 g.fpCtl
  | fpStat (gk g) (hk : u.gk = some gk) (hg : gang? s gk = some g) : RegisterValue s u 0x019 g.fpStat
  | steps (gk g) (hk : u.gk = some gk) (hg : gang? s gk = some g) : RegisterValue s u 0x013 g.stepCount
  | idems (gk g) (hk : u.gk = some gk) (hg : gang? s gk = some g) : RegisterValue s u 0x014 g.idemCount
  | state (gk g x) (hk : u.gk = some gk) (hg : gang? s gk = some g) (hx : g.region = some x) :
      RegisterValue s u 0x020 (w32 x.state)
  | misses : RegisterValue s u 0x022 (ccOf s u.ctx u.core).autoMiss
  | sealed : RegisterValue s u 0x027 (w32 (ctxD s u.ctx).sealStatus)
  | node (gk g n) (hk : u.gk = some gk) (hg : gang? s gk = some g) (hn : sget none s.pool g.node = some n) :
      RegisterValue s u 0x02D n.id
  | retention : RegisterValue s u 0x100 (w32 (s.ctl.retention % 65536))
  | fadeTick : RegisterValue s u 0x101 (w32 ((s.usec - s.ctl.resetAt) % 2 ^ 32))
  | stackSize : RegisterValue s u 0x106 (w32 (ctxD s u.ctx).stackSize)
  | gutter : RegisterValue s u 0x10C (w32 (s.gutter.filter fun e => e.core = u.core).length)
  | heap : RegisterValue s u 0x116 (w32 (ctxD s u.ctx).vheap)
  | cause (id i) (hk : u.kind = .inst id) (hi : inst? s id = some i) (k : Nat) (h : k < 4) :
      RegisterValue s u (0x301 + k) ([i.rcd.cause.d0, i.rcd.cause.d1, i.rcd.cause.d2, i.rcd.cause.d3].getD k 0)
  | trapEntry : RegisterValue s u 0x308 (ctxD s u.ctx).trapEntry
  | runBound : RegisterValue s u 0x30A (w32 (ctxD s u.ctx).runBound)
  | lifecycle : RegisterValue s u 0x322 (w32 ((if s.ctl.dbgu then 256 else 0) + s.ctl.lifecycle.toNat))

/-- Registers that read what was written, with the values that each accepts. -/
inductive KeepsValue (u : UView) : Nat → (Word → Prop) → Prop
  | predicate (k : Nat) (h : k < 8) : KeepsValue u (8 + k) (fun v => u.legacy = true → v.toNat < 65536)
  | fpCtl : KeepsValue u 0x018 (fun v => v.toNat < 4)
  | ageLimit : KeepsValue u 0x010 (fun v => 16 ≤ v.toNat ∧ v.toNat ≤ 4095)
  | misses : KeepsValue u 0x022 (fun _ => True)
  | imageLo : KeepsValue u 0x023 (fun _ => True)
  | imageHi : KeepsValue u 0x024 (fun _ => True)
  | stackLo : KeepsValue u 0x104 (fun v => v.toNat % 65536 = 0)
  | stackHi : KeepsValue u 0x105 (fun v => v.toNat < 2 ^ 24)
  | stackSize : KeepsValue u 0x106 (fun v => v.toNat % 256 = 0 ∧ v.toNat ≤ 65536)
  | regionLo : KeepsValue u 0x110 (fun v => v.toNat % 64 = 0)
  | regionHi : KeepsValue u 0x111 (fun v => v.toNat < 2 ^ 24)
  | regionSize : KeepsValue u 0x112 (fun v => v.toNat % 64 = 0)
  | regionWait : KeepsValue u 0x113 (fun v => v.toNat < 2 ^ 20)
  | directoryLo : KeepsValue u 0x118 (fun v => v.toNat % 64 = 0)
  | directoryHi : KeepsValue u 0x119 (fun v => v.toNat < 2 ^ 24)
  | directoryIndex : KeepsValue u 0x11A (fun v => v.toNat ≤ 23)
  | trapEntry : KeepsValue u 0x308 (fun _ => True)
  | trapValid : KeepsValue u 0x309 (fun v => v.toNat < 2)
  | invalidate : KeepsValue u 0x30C (fun _ => True)

def sysrdNeed (d : BitVec 6) (n : BitVec 12) (x : BitVec 2) (w : Bool) : Need :=
  { pipe := .gang, strand := x, dst := some d, w := w, limits := (sysWriter n.toNat).isSome }
def syswrNeed (d : BitVec 6) (n : BitVec 12) (x : BitVec 2) : Need :=
  { pipe := .gang, strand := x, srcs := [d], limits := (sysWriter n.toNat).isSome }

/-! ## Launches and copy programs from a gang (R130, R244, R250) -/

def nodePostNeed (o : O2) : Need :=
  { pipe := .gang, strand := o.s, dst := some o.d, w := o.w, gs := [o.a.toNat, o.a.toNat + 1]
    limits := o.d.toNat ≤ 58, more := [o.d.toNat + 1], ends := true }
def xpStartNeed (o : OAB) : Need :=
  { pipe := .gang, strand := o.s, srcs := [o.b], gs := [o.a.toNat, o.a.toNat + 1], ends := true }
def xpStatusNeed (o : O2) : Need :=
  { pipe := .gang, strand := o.s, dst := some o.d, w := o.w, srcs := [o.a]
    limits := o.d.toNat < 57, more := [o.d.toNat + 1, o.d.toNat + 2, o.d.toNat + 3] }

/-! ## Copy words (R243–R265) -/

/-- Processor `p` of a core runs a copy program; its record is `x`. -/
def Copies (s : State) (core p : Nat) (x : Xp) : Prop :=
  s.cur = some (.xp core p) ∧ xpOf s core p = x ∧ (x.state = .run ∨ x.state = .wait)

/-- The processor's record is `y`, gone on at word `pc`; the other processor of the core, every other core's, and
the memory system are as they were. -/
def CopyGoes (s t : State) (core p : Nat) (y : Xp) (pc : Nat) : Prop :=
  xpOf t core p = { y with pc := pc, state := .run, wait := none, lastCmd := none } ∧
    (∀ c q, (c ≠ core ∨ (p = 0) ≠ (q = 0)) → xpOf t c q = xpOf s c q) ∧ t.gangs = s.gangs ∧ t.insts = s.insts ∧
    t.ctxs = s.ctxs ∧ MemoryKept s t

/-- The processor has faulted with a cause at its word, and runs no more (R249). -/
def CopyFaults (t : State) (core p : Nat) (x : Xp) (code : Nat) : Prop :=
  (xpOf t core p).state = .fault ∧ (xpOf t core p).cause = code ∧ (xpOf t core p).fpc = x.pc ∧
    (xpOf t core p).cmds = [] ∧ (xpOf t core p).starts = []

/-- Register aN, and the pair {a(2L + 1) : a(2L)}. -/
def aReg (x : Xp) (n : Nat) : Word := sget 0 x.a n
def aPair (x : Xp) (l : BitVec 3) : Dword := pair (aReg x (2 * l.toNat)) (aReg x (2 * l.toNat + 1))

/-- A 17-bit immediate as a word. -/
def imm17 (i : BitVec 17) : Word := int32 i.toInt

/-- A word offset modulo 2^62 (R59, R255). -/
def copyPc (i : Int) : Nat := (i % 2 ^ 62).toNat

/-- The arithmetic copy words (R253): D, and its value. -/
inductive CopyAlu : Instr → BitVec 4 → (Xp → Word) → Prop
  | addR (o : CrR) : CopyAlu (.xpAddReg o) o.d (fun x => int32 ((aReg x o.a.toNat).toInt + (aReg x o.b.toNat).toInt))
  | addI (o : CrI) : CopyAlu (.xpAddImm o) o.d (fun x => int32 ((aReg x o.a.toNat).toInt + o.i.toInt))
  | subR (o : CrR) : CopyAlu (.xpSubReg o) o.d (fun x => int32 ((aReg x o.a.toNat).toInt - (aReg x o.b.toNat).toInt))
  | subI (o : CrI) : CopyAlu (.xpSubImm o) o.d (fun x => int32 ((aReg x o.a.toNat).toInt - o.i.toInt))
  | mulR (o : CrR) : CopyAlu (.xpMulReg o) o.d (fun x => int32 ((aReg x o.a.toNat).toInt * (aReg x o.b.toNat).toInt))
  | mulI (o : CrI) : CopyAlu (.xpMulImm o) o.d (fun x => int32 ((aReg x o.a.toNat).toInt * o.i.toInt))
  | shlR (o : CrR) : CopyAlu (.xpShlReg o) o.d (fun x => w32 ((aReg x o.a.toNat).toNat * 2 ^ (aReg x o.b.toNat).toNat))
  | shlI (o : CrI) : CopyAlu (.xpShlImm o) o.d (fun x => w32 ((aReg x o.a.toNat).toNat * 2 ^ (imm17 o.i).toNat))
  | shrR (o : CrR) : CopyAlu (.xpShrReg o) o.d (fun x => w32 ((aReg x o.a.toNat).toNat / 2 ^ (aReg x o.b.toNat).toNat))
  | shrI (o : CrI) : CopyAlu (.xpShrImm o) o.d (fun x => w32 ((aReg x o.a.toNat).toNat / 2 ^ (imm17 o.i).toNat))
  | andR (o : CrR) : CopyAlu (.xpAndReg o) o.d (fun x => aReg x o.a.toNat &&& aReg x o.b.toNat)
  | andI (o : CrI) : CopyAlu (.xpAndImm o) o.d (fun x => aReg x o.a.toNat &&& imm17 o.i)
  | orR (o : CrR) : CopyAlu (.xpOrReg o) o.d (fun x => aReg x o.a.toNat ||| aReg x o.b.toNat)
  | orI (o : CrI) : CopyAlu (.xpOrImm o) o.d (fun x => aReg x o.a.toNat ||| imm17 o.i)
  | eqR (o : CrR) : CopyAlu (.xpCmpEqReg o) o.d (fun x => if aReg x o.a.toNat = aReg x o.b.toNat then 1 else 0)
  | eqI (o : CrI) : CopyAlu (.xpCmpEqImm o) o.d (fun x => if aReg x o.a.toNat = imm17 o.i then 1 else 0)
  | neR (o : CrR) : CopyAlu (.xpCmpNeReg o) o.d (fun x => if aReg x o.a.toNat = aReg x o.b.toNat then 0 else 1)
  | neI (o : CrI) : CopyAlu (.xpCmpNeImm o) o.d (fun x => if aReg x o.a.toNat = imm17 o.i then 0 else 1)
  | ltR (o : CrR) : CopyAlu (.xpCmpLtReg o) o.d
      (fun x => if (aReg x o.a.toNat).toInt < (aReg x o.b.toNat).toInt then 1 else 0)
  | ltI (o : CrI) : CopyAlu (.xpCmpLtImm o) o.d (fun x => if (aReg x o.a.toNat).toInt < o.i.toInt then 1 else 0)
  | ltuR (o : CrR) : CopyAlu (.xpCmpLtuReg o) o.d
      (fun x => if (aReg x o.a.toNat).toNat < (aReg x o.b.toNat).toNat then 1 else 0)
  | ltuI (o : CrI) : CopyAlu (.xpCmpLtuImm o) o.d
      (fun x => if (aReg x o.a.toNat).toNat < (imm17 o.i).toNat then 1 else 0)
  | movi (d : BitVec 4) (h : Bool) (m : BitVec 16) : CopyAlu (.xpMovi d h m) d
      (fun x => if h then w32 (m.toNat * 65536 + (aReg x d.toNat).toNat % 65536) else w32 m.toNat)

/-- A cursor of a processor. -/
def cursorAt (x : Xp) (k : BitVec 2) : Cursor := x.cur.getD k.toNat {}

/-- The copy processor as the maker of accesses. -/
def copyAgent (core p : Nat) (x : Xp) : Agent := 
  { core := core, ctx := x.ctx, gk := none, ref := some (.xp core p), launch := x.launch }

/-- A command joins those in flight, and the program goes on with the next word (R247). -/
def CommandStarts (s t : State) (core p : Nat) (x : Xp) (c : XCmd) : Prop :=
  (xpOf t core p).cmds = x.cmds ++ [c] ∧ (xpOf t core p).lastCmd = some c.id ∧ (xpOf t core p).pc = copyPc (x.pc + 1) ∧
    (xpOf t core p).state = .run ∧ (xpOf t core p).wait = none ∧ (xpOf t core p).a = x.a ∧ (xpOf t core p).cur = x.cur ∧
    c.fpc = x.pc ∧ t.mem = s.mem

/-- The bytes that a box copy of an element format without blocks plans: for every element of the source cursor's
window whose destination lies inside the destination's extents, its bytes from the source element, or FILL's
where that lies outside (R258). -/
def boxByte (ss dd : Desc) (cs cd : Cursor) (addr : Dword) (b : XByte) : Prop :=
  ∃ (j : List Nat) (k : Nat), j.length = 5 ∧ (∀ i < 5, j.getD i 0 < (cs.win.getD i 0).toNat) ∧ k < fmtWidth (dFmt dd) / 8 ∧
    let dst : List Int := (List.range 5).map fun i => (cd.pos.getD i 0).toInt + (j.getD i 0 : Nat)
    let src : List Int := (List.range 5).map fun i => (cs.pos.getD i 0).toInt + (j.getD i 0 : Nat)
    inside dd dst = true ∧ addr = unitByte dd dst k ∧
    b = if inside ss src then .read (dSpace ss) (unitByte ss src k)
        else .const (BitVec.ofNat 8 ((dFill ss).toNat / 256 ^ k))

/-- Rows in rank order: each once, a row above another before it, and the lower of two equals first (R263). -/
def Ranked (scores : List Score) (rows : List Nat) : Prop :=
  rows.Perm (List.range scores.length) ∧ rows.Pairwise fun a b =>
    (scores.getD a .nan).above (scores.getD b .nan) = true ∨
      ((scores.getD b .nan).above (scores.getD a .nan) = false ∧ a < b)

/-! ## Steps of the module -/

/-- A step is taken: the machine goes on, in a state of which `P` holds. -/
def Answers (i : Instr) (s : State) (P : State → Prop) : Prop := ∃ t, exec i s = .next t ∧ P t

/-- Bytes have been written at keys of memory, and no other byte has changed. -/
def Wrote (s t : State) (kvs : List (Nat × Byte)) : Prop :=
  (∀ e ∈ kvs, readByte t e.1 = e.2) ∧ ∀ loc, (∀ e ∈ kvs, e.1 ≠ loc) → readByte t loc = readByte s loc

/-- A gang that has live lanes. -/
def LiveGang (s : State) (gk : Nat) (g : Gang) : Prop := gang? s gk = some g ∧ g.live ≠ []

/-- The write is on its way to every die but the one at which it originated (R225). -/
def SentFrom (t : State) (d : Nat) (bs : List (Nat × Byte)) : Prop :=
  ∀ k < 8, k ≠ d → ∃ w ∈ t.pubs, w.into = k ∧ w.origin = d ∧ w.bytes = bs ∧ w.stamp = (dieOf t d).clock

/-- A context in the table. -/
def HasContext (s : State) (ctx : Nat) (x : Context) : Prop := ctx? s ctx = some x

/-! ## Host commands -/

/-- A command that its session may give: the session is bound to the context that the message names (R344). -/
def Commands (s : State) (m : Hdr) (x : Context) : Prop :=
  s.ctl.off = false ∧ (sget none s.sessions m.ses).map Session.ctx = some m.ctx ∧ m.ctx ≠ 0 ∧ HasContext s m.ctx x

/-- The reply to a message: its opcode with the top bit set, the message's context and tag, a status, a payload. -/
def replyTo (m : Hdr) (op status : Nat) (payload : List Byte) : Msg := ⟨m.ses, op + 0x80, m.ctx, m.tag, w32 status, payload⟩

/-- The reply has gone, and nothing else before it. -/
def Replies (s t : State) (m : Hdr) (op status : Nat) (payload : List Byte) : Prop :=
  t.outbox = s.outbox ++ [replyTo m op status payload]

/-- The reply goes once the command's writes are complete, or has gone. -/
def RepliesLater (t : State) (m : Hdr) (op : Nat) (payload : List Byte) : Prop :=
  (∃ w ∈ t.hostWaits, w.ses = m.ses ∧ w.op = op ∧ w.ctx = m.ctx ∧ w.tag = m.tag ∧ w.payload = payload) ∨
    replyTo m op 0 payload ∈ t.outbox

/-- The operations of messages to the module (R346, R357, R365, R368), answers to the module's own messages among
them (R350). -/
def commandOps : List Nat :=
  [0x01, 0x02, 0x03, 0x04, 0x05, 0x06, 0x10, 0x11, 0x12, 0x13, 0x14, 0x18, 0x19, 0x1A, 0x1B, 0xC0, 0xC1, 0xC2]

/-- A message of header words `h` and a payload of `n` bytes is malformed: a reserved bit set, an unassigned OP, or a
LEN that is not the payload's or is too long (R343, R345). -/
def Malformed (h : List Word) (n : Nat) : Prop :=
  (h.getD 0 0).toNat / 2 ^ 19 % 32 ≠ 0 ∨ (h.getD 0 0).toNat / 2 ^ 24 ∉ commandOps ∨ (h.getD 2 0).toNat ≠ n ∨ 0x30000 < n

/-- A piece of a load, and the bytes of the object that the session holds with it: a first piece, or one that starts
where the one before ended (R358). -/
def PieceOf (s : State) (ses op : Nat) (piece : Word) (bs whole : List Byte) : Prop :=
  (piece.toNat % 2 ^ 31 = 0 ∧ whole = bs) ∨
    (piece.toNat % 2 ^ 31 ≠ 0 ∧ (sessionOf s ses).holding = some op ∧ piece.toNat % 2 ^ 31 = (sessionOf s ses).load.length ∧
      whole = (sessionOf s ses).load ++ bs)

/-- The physical place of an address whose leaf entry already has A and D set. -/
def MarkedLeaf (s : State) (die ctx va pa : Nat) : Prop :=
  ∃ base r w x d at_ entry big, walkTable s die ctx va 2 = .leaf base r w x d at_ entry big ∧ entry ||| 0xC0 = entry ∧
    walkTable s die ctx va 1 = .leaf base r w x d at_ entry big ∧ pa = base + va % 0x10000

/-- The core's state with the fields that a step leaves alone. -/
def sameButLast (s t : State) : Prop := t.mem = s.mem ∧ t.gangs = s.gangs ∧ t.ctxs = s.ctxs

/-! ## Whole steps -/

/-- The state in which a step of the agenda, or of the default schedule, acts: its turn taken. -/
inductive Turn (s : State) : Pick → State → Prop
  | issue (core pipe : Nat) (rest : List Act) (h : s.agenda = .issue core pipe :: rest) :
      Turn s (.unit core pipe) (tick { s with agenda := rest })
  | copy (core p : Nat) (rest : List Act) (h : s.agenda = .copy core p :: rest) :
      Turn s (.copy core p) (tick { s with agenda := rest })
  | default (k : Pick) (h : s.agenda = []) (hk : (picks s)[s.turn]? = some k) : Turn s k { s with turn := s.turn + 1 }

/-- The form that every step keeps: memory and the table of granule owners are canonical lists. -/
def Canonical (s : State) : Prop := memWf s.mem = true ∧ swf 0 s.owner = true

end Sys2Proof.Claims
end

