-- ==== Sys2Proof/WellFormed.lean ====
section
/-!
DEFINITION. Well-formed instructions: a word's selectors and counts lie in the ranges its entry assigns
(R71, R76, R251), and a step of the module names cores, dies, copy processors and lanes that exist (R2,
R11, R243).
-/
namespace Sys2Proof

/-- A core of the module (R2). -/
def coreOk (core : Nat) : Bool := core < Config.cores
/-- A die of the module (R2). -/
def dieOk (die : Nat) : Bool := die < Config.dies
/-- A copy processor of a core (R243). -/
def xpOk (p : Nat) : Bool := p < 2
/-- A lane of a gang (R11). -/
def laneOk (lane : Nat) : Bool := lane < 32
/-- A unit that exists by its numbers. -/
def unitOk (u : UnitRef) : Bool :=
  match u with
  | .grp _ _ => true
  | .inst _ => true
  | .xp core p => coreOk core && xpOk p
/-- The DIE field of a message header (R345). -/
def hdrOk (m : Hdr) : Bool := dieOk m.die
/-- The payload of SUBMIT: 1 to 256 records of 48 words (R291). -/
def recordsOk (recs : List (List Word)) : Bool :=
  recs != [] && recs.length ≤ 256 && recs.all fun r => r.length = 48
/-- The payload of COLL: a record of 32 bytes (R351). -/
def collectiveOk (rec : List Word) : Bool := rec.length = 8

/-- The instruction is well formed. -/
def Instr.wf (i : Instr) : Bool :=
  match i with
  | .iaddA _ _ => true
  | .iaddI _ _ => true
  | .isubA _ _ => true
  | .isubI _ _ => true
  | .imulA _ _ => true
  | .imulI _ _ => true
  | .imulhS32 _ _ => true
  | .imulhN32 _ _ => true
  | .imad _ _ => true
  | .iaddSatS32 _ _ => true
  | .iaddSatN32 _ _ => true
  | .isubSatS32 _ _ => true
  | .isubSatN32 _ _ => true
  | .iminS32 _ _ => true
  | .iminN32 _ _ => true
  | .imaxS32 _ _ => true
  | .imaxN32 _ _ => true
  | .iabs _ _ => true
  | .iabsSat _ _ => true
  | .andA _ _ => true
  | .orB _ _ => true
  | .xorB _ _ => true
  | .andn _ _ => true
  | .andI _ _ => true
  | .shlA _ _ => true
  | .shlI _ _ => true
  | .shrA _ _ => true
  | .shrI _ _ => true
  | .sarA _ _ => true
  | .sarI _ _ => true
  | .rotA _ _ => true
  | .rotI _ _ => true
  | .bfxN32 _ _ => true
  | .bfxS32 _ _ => true
  | .bfi _ _ => true
  | .popc _ _ => true
  | .clz _ _ => true
  | .brev _ _ => true
  | .mov _ _ => true
  | .lea _ _ => true
  | .icmpEq _ _ => true
  | .icmpNe _ _ => true
  | .icmpLtS32 _ _ => true
  | .icmpLeS32 _ _ => true
  | .icmpGtS32 _ _ => true
  | .icmpGeS32 _ _ => true
  | .icmpLtN32 _ _ => true
  | .icmpLeN32 _ _ => true
  | .sel _ _ => true
  | .icmpGtN32 _ _ => true
  | .icmpGeN32 _ _ => true
  | .iaddSatS16 _ _ => true
  | .iaddSatN16 _ _ => true
  | .isubSatS16 _ _ => true
  | .isubSatN16 _ _ => true
  | .iaddS16 _ _ => true
  | .iaddN16 _ _ => true
  | .isubS16 _ _ => true
  | .isubN16 _ _ => true
  | .imulS16 _ _ => true
  | .imulN16 _ _ => true
  | .imulSat _ _ => true
  | .movl _ _ _ => true
  | .movh _ _ _ => true
  | .faddF32 _ => true
  | .fsubF32 _ => true
  | .fmulF32 _ => true
  | .ffmaF32 _ => true
  | .fminF32 _ => true
  | .fmaxF32 _ => true
  | .faddF16 _ => true
  | .fsubF16 _ => true
  | .fmulF16 _ => true
  | .ffmaF16 _ => true
  | .fminF16 _ => true
  | .fmaxF16 _ => true
  | .faddBf16 _ => true
  | .fsubBf16 _ => true
  | .fmulBf16 _ => true
  | .ffmaBf16 _ => true
  | .fminBf16 _ => true
  | .fmaxBf16 _ => true
  | .fcmpEq _ => true
  | .fcmpLt _ => true
  | .fcmpLe _ => true
  | .fcmpUn _ => true
  | .fscale _ => true
  | .fabs o => sel6Ok o.b
  | .fneg o => sel6Ok o.b
  | .frcp o => sel6Ok o.b
  | .frsq o => sel6Ok o.b
  | .fsqrt o => sel6Ok o.b
  | .fexp2 o => sel6Ok o.b
  | .flog2 o => sel6Ok o.b
  | .fcvt o => fcvtOk o.b
  | .fclass o => sel6Ok o.b
  | .byteq _ => true
  | .bfind _ => true
  | .bperm _ => true
  | .crcC _ => true
  | .hmix _ => true
  | .dfaStep4 _ => true
  | .rngSeed _ => true
  | .rngNext _ => true
  | .prune _ => true
  | .ballot o => ballotOk o.b
  | .shflIdx _ => true
  | .shflXor _ => true
  | .shflUp _ => true
  | .shflDown _ => true
  | .xred _ e => reduceOk e
  | .xscan _ _ e => reduceOk e
  | .isect _ => true
  | .matchL _ => true
  | .bcast _ => true
  | .bnext _ => true
  | .setblk _ => true
  | .ldS16A _ => true
  | .ldS16I _ => true
  | .ldN16A _ => true
  | .ldN16I _ => true
  | .ldB32A _ => true
  | .ldB32I _ => true
  | .stB32A _ => true
  | .stB32I _ => true
  | .stN16A _ => true
  | .stN16I _ => true
  | .ldc _ => true
  | .stc _ => true
  | .atomAdd _ => true
  | .atomAnd _ => true
  | .atomOr _ => true
  | .atomXor _ => true
  | .atomMinS32 _ => true
  | .atomMaxS32 _ => true
  | .atomMinN32 _ => true
  | .atomMaxN32 _ => true
  | .atomXchg _ => true
  | .atomCas _ => true
  | .redMAdd _ => true
  | .redMAddF32 _ => true
  | .redMMinS32 _ => true
  | .redMMaxS32 _ => true
  | .redMMinN32 _ => true
  | .redMMaxN32 _ => true
  | .ldv _ => true
  | .stv _ => true
  | .vlatest _ => true
  | .ldgA _ => true
  | .ldgI _ => true
  | .stgA _ => true
  | .stgI _ => true
  | .vpin _ => true
  | .vunpin _ => true
  | .vfloor _ => true
  | .spalloc _ => true
  | .sprenew _ => true
  | .sprenewZ _ => true
  | .spfree _ => true
  | .spinfo _ => true
  | .pkst _ => true
  | .pkld _ => true
  | .fence o => fenceOk o.d o.a o.b
  | .flush _ => true
  | .tdLoad _ => true
  | .tdSet _ => true
  | .mload _ => true
  | .mswap _ _ => true
  | .mstream _ => true
  | .mzero _ => true
  | .mdrain _ e => drainLaneOk e
  | .mdrainXp o => drainPortOk o.b
  | .mtile _ => true
  | .mstat _ => true
  | .bra _ => true
  | .brcAny _ _ _ => true
  | .brcAll _ _ _ => true
  | .call _ => true
  | .ret _ => true
  | .regang _ => true
  | .exitG _ => true
  | .nop _ => true
  | .yield _ => true
  | .autoEnter _ _ => true
  | .autoStep => true
  | .autoExit => true
  | .barInit _ => true
  | .barArrive _ => true
  | .barWait _ => true
  | .barArm _ => true
  | .barTest _ => true
  | .cohJoin _ => true
  | .cohLeave _ => true
  | .cohInfo _ => true
  | .nodePost _ => true
  | .tlWait _ => true
  | .tlRead _ => true
  | .xpStart _ => true
  | .xpStatus _ => true
  | .idem _ => true
  | .contOpen _ _ => true
  | .contClose _ => true
  | .trap _ _ => true
  | .rett => true
  | .sysrd _ _ _ _ _ => true
  | .syswr _ _ _ _ => true
  | .stepMark _ => true
  | .movsGet _ _ _ _ => true
  | .movsPut _ _ _ => true
  | .xpNop => true
  | .xpHalt => true
  | .xpMovi _ _ _ => true
  | .xpLdx _ _ _ => true
  | .xpAddReg _ => true
  | .xpAddImm _ => true
  | .xpSubReg _ => true
  | .xpSubImm _ => true
  | .xpMulReg _ => true
  | .xpMulImm _ => true
  | .xpShlReg _ => true
  | .xpShlImm o => shiftImmOk o.i
  | .xpShrReg _ => true
  | .xpShrImm o => shiftImmOk o.i
  | .xpAndReg _ => true
  | .xpAndImm _ => true
  | .xpOrReg _ => true
  | .xpOrImm _ => true
  | .xpCmpEqReg _ => true
  | .xpCmpEqImm _ => true
  | .xpCmpNeReg _ => true
  | .xpCmpNeImm _ => true
  | .xpCmpLtReg _ => true
  | .xpCmpLtImm _ => true
  | .xpCmpLtuReg _ => true
  | .xpCmpLtuImm _ => true
  | .xpBr _ => true
  | .xpBz _ _ => true
  | .xpBnz _ _ => true
  | .xpLoopReg _ f => f != 0#10
  | .xpLoopImm _ _ f => f != 0#10
  | .xpEndl => true
  | .xpCurSet _ _ => true
  | .xpCurStepReg _ d _ => dimOk d
  | .xpCurStepImm _ d _ => dimOk d
  | .xpCurAt _ d _ _ => dimOk d
  | .xpMove _ _ nb _ b => barOk nb b
  | .xpMoveA _ nb _ b => barOk nb b
  | .xpMovePk _ nb _ b => barOk nb b
  | .xpVpub _ _ nb _ b _ => barOk nb b
  | .xpFollow _ _ _ _ => true
  | .xpPsel _ _ _ _ => true
  | .xpArrive _ => true
  | .xpWaitb _ _ => true
  | .xpTlsig _ _ => true
  | .xpMoveG _ _ _ _ _ _ => true
  | .autoSeal _ core _ => coreOk core
  | .autoUnseal _ _ => true
  | .vregDesignate _ core _ => coreOk core
  | .vregRelease _ core _ => coreOk core
  | .secUnlock core => coreOk core
  | .secAttest core => coreOk core
  | .secIdentity core => coreOk core
  | .secCommandDone => true
  | .tlbInvPage _ _ => true
  | .tlbInvAll _ _ => true
  | .tlbInvComplete _ => true
  | .ptRootWrite _ _ _ => true
  | .quiesceRequest _ => true
  | .quiesceRelease _ => true
  | .waitBoundWrite _ _ => true
  | .runBoundWrite _ _ => true
  | .vdirDataRead _ => true
  | .submit m recs => hdrOk m && recordsOk recs
  | .memwr m _ _ => hdrOk m
  | .memrd m _ _ => hdrOk m
  | .hostFlush m _ _ => hdrOk m
  | .hostQuiesceRequest m => hdrOk m
  | .hostQuiesceRelease m => hdrOk m
  | .coll m rec => hdrOk m && collectiveOk rec
  | .collComplete die _ => dieOk die
  | .collMemberFail _ _ _ => true
  | .loadObj m _ _ => hdrOk m
  | .loadp m _ _ => hdrOk m
  | .unload m _ => hdrOk m
  | .handlerName m _ => hdrOk m
  | .cacheinv m _ => hdrOk m
  | .fwload m _ _ => hdrOk m
  | .openCtx m _ _ => hdrOk m
  | .endCtx m => hdrOk m
  | .healthQ m => hdrOk m
  | .pageServiceAnswer _ _ => true
  | .unreliablePacketDrop => true
  | .issueQueuePerform _ lane => laneOk lane
  | .storeBufferApply _ => true
  | .applyQueueTake die _ => dieOk die
  | .homeUpdateArrival _ => true
  | .gutterReplay _ => true
  | .translationWalkComplete die _ _ => dieOk die
  | .barArrivalCounted _ => true
  | .cohJoinTimeout u => unitOk u
  | .barWaitBoundExpire u => unitOk u
  | .tlWaitBoundExpire u => unitOk u
  | .versionWaitBoundExpire u => unitOk u
  | .vpubPublish core xp _ => coreOk core && xpOk xp
  | .copyProgramBegin core xp => coreOk core && xpOk xp
  | .copyWriteComplete core xp _ _ => coreOk core && xpOk xp
  | .copyCommandComplete core xp _ => coreOk core && xpOk xp
  | .copyWaitBoundExpire core xp => coreOk core && xpOk xp
  | .followMtileIssue core xp _ => coreOk core && xpOk xp
  | .matrixCommandExecute core => coreOk core
  | .drainPortBoundExpire core => coreOk core
  | .matrixStateSave core => coreOk core
  | .matrixStateRestore core => coreOk core
  | .purlinRefreshStart die => dieOk die
  | .purlinRefreshEnd die => dieOk die
  | .holdLapse u _ => unitOk u
  | .yieldExpire u => unitOk u
  | .ageLimitReached u => unitOk u
  | .deferredCauseDelivery _ => true
  | .handlerInstanceStart core => coreOk core
  | .runBoundWatchdog u => unitOk u
  | .admitUnit _ cores => cores.all coreOk
  | .admissionSkipTimeout _ => true
  | .gangSaveComplete _ => true
  | .gangReadmit _ => true
  | .readmitBoundSwap _ core => coreOk core
  | .sweeperRenew _ core _ => coreOk core
  | .bufferRestoreStart _ core _ => coreOk core
  | .bufferRestoreComplete _ core _ => coreOk core
  | .quiesceCutComplete _ => true
  | .quiesceBoundExpire _ => true
  | .nodeComplete _ => true
  | .scrubVisit _ _ _ => true
  | .controlParityError core => coreOk core
  | .errorRateThreshold core => coreOk core
  | .predictiveFailureTimeout core => coreOk core
  | .oppLower => true
  | .oppRaise => true
  | .oppChangeComplete => true
  | .overLimitShutdown _ core => coreOk core
  | .powerUp => true
  | .lifecycleAdvance _ => true
  | .bufferExpiry _ core _ => coreOk core
  | .renewalComplete _ core _ => coreOk core
  | .ridgeLinkError _ _ _ _ => true
  | .powerLoss => true
  | .debugPortRequest u _ _ => unitOk u
  | .malformedMessage _ m => m.header.length = 4
  | .railUndervolt core => coreOk core
  | .errorRateBelowThreshold core => coreOk core

end Sys2Proof
end

