-- ==== Sys2Proof/Certificates/Slice0/Obligations.lean ====
section
/-!
DEFINITION. The statements for the provers.
-/

section
open Sys2Proof Sys2Proof.Machine Sys2Proof.Claims

/-! ## Words and their encodings -/

/-- Words written out from the layouts of R56–R60 and R251–R265, one from each family, decode to the
instructions that they stand for. -/
def Obligations.DecodeWords : Prop :=
  decodeCompute 0b0_00000000_000001_000010_000011_00_0_00#32 = .ok (.iaddA .lane ⟨1, 2, 3, 0, false, 0⟩) ∧
  decodeCompute 0b1_00011001_000101_000110_011111_00_1_10#32 = .ok (.shlI .gang ⟨5, 6, 31, 0, true, 2⟩) ∧
  decodeCompute 0b0_00111110_000111_0001001000110100_1#32 = .ok (.movh .lane 7 0x1234) ∧
  decodeCompute 0b0_01000011_001000_001001_001010_01_0_00#32 = .ok (.ffmaF32 ⟨8, 9, 10, 1, false, 0⟩) ∧
  decodeCompute 0b0_01110101_000001_000010_001000_00_0_00#32 = .ok (.xred ⟨1, 2, 0, false, 0⟩ 8) ∧
  decodeCompute 0b0_10001001_000011_000100_111111_00_0_00#32 = .ok (.stB32I ⟨3, 4, 63, 0, 0⟩) ∧
  decodeCompute 0b1_10001110_000011_000011_000100_00_0_00#32 = .ok (.fence ⟨3, 3, 4, 0, 0⟩) ∧
  decodeCompute 0b1_11000001_101_1_1111111111111111110#32 = .ok (.brcAny 5 true (-2)) ∧
  decodeCompute 0b1_11010000_000011_00000000000000100#32 = .ok (.autoEnter 3 4) ∧
  decodeCompute 0b1_11110101_000001_000000_000100_00_0_00#32 = .ok (.sysrd 1 4 0 false 0) ∧
  decodeXp 0b000100_0001_0010_1_00000000000000011#32 = .ok (.xpAddImm ⟨1, 2, 3⟩) ∧
  decodeXp 0b11_0001_0000010_0000011_101_1_00000111#32 = .ok (.xpMoveG 1 2 3 5 true 7)

/-- ENCODING AND DECODING AGREE: the word that the encoder gives a well-formed instruction, with every
operand at every value that its fields admit, decodes to that instruction. -/
def Obligations.EncodeThenDecode : Prop :=
  ∀ i : Instr, i.wf = true → ∀ w, encode i = some w → decodeCompute w = .ok i ∨ decodeXp w = .ok i

/-- The other direction: every word that a decoder accepts is the word that the encoder gives the
instruction, so no bit of a word is ignored and no two words mean one instruction. -/
def Obligations.DecodeThenEncode : Prop :=
  ∀ (w : Word) (i : Instr), (decodeCompute w = .ok i ∨ decodeXp w = .ok i) → encode i = some w

/-- A word whose opcode the map of its own pipe does not assign is rejected as illegal, whatever its
other bits; a unit that fetches one raises 0x02 in the lanes that the word would act on, with the word as the
detail, and nothing changes before (R80). That bits 4:3 of such a word name a strand in state code is the model's choice
(log entry 100). -/
def Obligations.UnassignedOpcodes : Prop :=
  (∀ w : Word, decodeCompute w = .error .illegalOpcode ↔
    match fPipe w with
    | .lane => (fOp w).toNat ∉ laneOpcodes
    | .gang => (fOp w).toNat ∉ gangOpcodes) ∧
  (∀ s u w, unitView s = some u → fetch s u = .word w → decodeCompute w = .error .illegalOpcode →
    let acts := actingLanes s u (if u.region = none then 0 else strandOf w)
    u.region = none ∨ acts ≠ [] →
    runUnit s = .next (raiseOn { code := 0x02, d0 := w, source := if fPipe w = .gang then 1 else 0 } acts u s))

/-! ## Words that compute -/

/-- Every integer word, in both pipes, writes the value of its row in `IntWord` to D and the latches, and
goes on with the next word. LEA writes the 64-bit sum to D and D + 1, in each lane or for the gang; the low half is its result, and
older latches that record D + 1 no longer do. -/
def Obligations.IntegerResults : Prop :=
  (∀ i n d f, IntWord i n d f → ∀ s u acts, Runs i n s u acts →
    exec i s = .next (parkFailed u (advance (result n d f u acts s) u))) ∧
  (∀ p o s u acts, Runs (.lea p o) (leaNeed p o) s u acts →
    let s' := setLatches s u p (dropReg (latches s u p) (o.d.toNat + 1))
    match p with
    | .lane =>
      let sum (l : Nat) : Nat := leaSum (vsrc s u o.a l) (vsrc s u (o.a + 1) l) (vsrc s u o.b l)
      exec (.lea .lane o) s = .next (parkFailed u (advance (laneResult o.d false (acts.map fun l => (l, w32 (sum l))) u
        (setVregs s' u (o.d.toNat + 1) (acts.map fun l => (l, w32 (sum l / 2 ^ 32))))) u))
    | .gang =>
      let sum : Nat := leaSum (gsrc s u o.a) (gsrc s u (o.a + 1)) (gsrc s u o.b)
      exec (.lea .gang o) s = .next (parkFailed u (advance (gangResult o.d false (w32 sum) u
        (setGreg s' u (o.d.toNat + 1) (w32 (sum / 2 ^ 32)))) u)))

/-- Float words. The flags of every acting lane whose shadow agrees go to SYS.FP_STAT. D is the value of its row in
`FloatWord`, in each acting lane that signals no enabled exception and whose shadow does not differ; the other lanes
raise 0x22 for a difference, 0x21 for an enabled overflow and 0x20 for an enabled invalid operation, the highest of
them for the word. -/
def Obligations.FloatResults : Prop :=
  ∀ i n d ck f, FloatWord i n d ck f → ∀ s u acts, Runs i n s u acts →
    let val (l : Nat) : Word × Nat := f fun x => vsrc s u x l
    exec i s = .next (parkFailed u (lanesEnd d n.w acts (fun l => (val l).1) (fun l => floatCause ck s u l (val l)) u
      (floatFlags ck val u acts s)))

/-- The byte, hash, shuffle and match words write the value of their row in `LaneWord`. RNG.SEED stores the pair, or 1 for a zero pair, in the generator of every acting lane; RNG.NEXT and
PRUNE advance it by xorshift64, and give its low word, or A where the draw does not lie below B. BALLOT gives every acting lane the mask of those whose A is nonzero, and with bit 5 of B copies it to a
q register; BCAST gives every acting lane lane n's A. -/
def Obligations.LaneWordResults : Prop :=
  (∀ i n d f, LaneWord i n d f → ∀ s u acts, Runs i n s u acts →
    exec i s = .next (parkFailed u (advance (laneWordResult n d f u acts s) u))) ∧
  (((∀ o s u acts, Runs (.rngSeed o) (seedNeed o) s u acts →
    exec (.rngSeed o) s = .next (parkFailed u (advance (setGens (acts.map fun l =>
      (l, if pair (vsrc s u o.a l) (vsrc s u o.b l) = 0 then 1 else pair (vsrc s u o.a l) (vsrc s u o.b l))) u s) u))) ∧
  (∀ o s u acts, Runs (.rngNext o) (drawNeed o) s u acts →
    exec (.rngNext o) s = .next (parkFailed u (advance (laneResult o.d o.w
      (acts.map fun l => (l, w32 ((nextDraw (genAt s u l)).toNat % 2 ^ 32))) u
      (setGens (acts.map fun l => (l, nextDraw (genAt s u l))) u s)) u))) ∧
  (∀ o s u acts, Runs (.prune o) (need3 .lane o) s u acts →
    exec (.prune o) s = .next (parkFailed u (advance (laneResult o.d o.w
      (acts.map fun l => (l, if (nextDraw (genAt s u l)).toNat % 2 ^ 32 < (vsrc s u o.b l).toNat then 0 else vsrc s u o.a l)) u
      (setGens (acts.map fun l => (l, nextDraw (genAt s u l))) u s)) u)))) ∧
  ((∀ o s u acts, Runs (.ballot o) (needI .lane o) s u acts →
    let m := maskOf (acts.filter fun l => vsrc s u o.a l ≠ 0)
    let t := laneResult o.d o.w (acts.map fun l => (l, m)) u s
    exec (.ballot o) s = .next (parkFailed u (advance (if o.b.getLsbD 5 then setQreg t u (o.b.toNat % 8) m else t) u))) ∧
  (∀ o s u acts, Runs (.bcast o) (needBcast o s) s u acts →
    exec (.bcast o) s = .next (parkFailed u (advance (laneResult o.d o.w (acts.map fun l => (l, vsrc s u o.a o.b.toNat)) u s) u)))))

/-- XRED gives every acting lane the root of the tree over the lanes of the gang, pairs of neighbours first; XSCAN
gives every acting lane the fold of the acting lanes up to it, or below it with .excl. The exceptions that float steps
signal go to SYS.FP_STAT, and a lane whose own steps signal an enabled one raises it. -/
def Obligations.ReductionsAndScans : Prop :=
  (∀ o e s u acts, Runs (.xred o e) (need2 .lane o) s u acts → e.toNat < 11 → s.shadow = [] →
    let leaf (j : Nat) : Option Word := if j ∈ acts then some (vsrc s u o.a j) else none
    ∀ r, treeNode e.toNat leaf (if u.legacy then 4 else 5) 0 = some r →
    exec (.xred o e) s = .next (parkFailed u
      (lanesEnd o.d o.w acts (fun _ => r.1) (fun l => floatCause none s u l r) u (setFlags r.2 u s)))) ∧
  (∀ o x e s u acts, Runs (.xscan o x e) (need2 .lane o) s u acts → e.toNat < 11 → s.shadow = [] →
    acts.Pairwise (· < ·) →
    let val (l : Nat) : Word × Nat := scanAt e.toNat x acts (vsrc s u o.a) l
    exec (.xscan o x e) s = .next (parkFailed u
      (lanesEnd o.d o.w acts (fun l => (val l).1) (fun l => floatCause none s u l (val l)) u
        (setFlags ((runFold e.toNat (acts.map (vsrc s u o.a))).getD (0, 0)).2 u s))))

/-- ISECT gives each lane of list A the position of its element in list B, and the gang the numbers of
elements of each list at or below the smaller of the two last elements. -/
def Obligations.IntersectResult : Prop :=
  ∀ o s u acts, Runs (.isect o) (isectNeed o) s u acts →
    let a := listAt acts (vsrc s u o.a)
    let b := listAt acts (vsrc s u o.b)
    let m := w32 (min (lastListed u.width a).toNat (lastListed u.width b).toNat)
    let rs := acts.map fun l => (l, if vsrc s u o.a l = 0xFFFFFFFF then 0xFFFFFFFF
      else positionOf u.width b (vsrc s u o.a l))
    exec (.isect o) s = .next (parkFailed u (advance
      (setGregAside u (o.d.toNat + 1) (countUpTo m u.width b)
        (setGregAside u o.d.toNat (countUpTo m u.width a) (laneResult o.d false rs u s))) u))

/-! ## Registers, latches and counters -/

/-- A lane-pipe result, be W clear, is in D of every lane that it names, and nothing else of the gang's
registers changes; be W set, no register changes. Either way it is the newest lane latch of every lane but those that
have failed at the word, whose latches stay; the three before it stay, and an older one no longer records D. A
gang-pipe result is in the gang register D, or in none with W set, and is the newest gang latch; no other register
changes. -/
def Obligations.ResultWrites : Prop :=
  (∀ (d : BitVec 6) (w : Bool) (rs : List (Nat × Word)) (u : UView) (s : State),
    unitView s = some u → u.gk ≠ none → (rs.map Prod.fst).Nodup →
    let t := laneResult d w rs u s
    let reg := if w then none else some d.toNat
    let skip := if u.region = none then [] else (failedOf s u).map Prod.fst
    (w = false → ∀ e ∈ rs, vreg t u e.1 d.toNat = e.2) ∧
    (∀ l r, r < 64 → w = true ∨ r ≠ d.toNat ∨ l ∉ rs.map Prod.fst → vreg t u l r = vreg s u l r) ∧
    (∀ r, greg t u r = greg s u r) ∧ (∀ k, qreg t u k = qreg s u k) ∧ pcAt t u = pcAt s u ∧
    Shifted (latches s u .lane) (latches t u .lane)
      { st := .valid, reg := reg, idem := idemNow s u, val := rs, skip := skip } reg skip ∧
    latches t u .gang = latches s u .gang ∧ OnlyUnits s t ∧ OthersKept s t u) ∧
  (∀ (d : BitVec 6) (w : Bool) (x : Word) (u : UView) (s : State), unitView s = some u →
    let t := gangResult d w x u s
    let reg := if w then none else some d.toNat
    (w = false → greg t u d.toNat = x) ∧ (∀ r, w = true ∨ r ≠ d.toNat → greg t u r = greg s u r) ∧
    (∀ l r, vreg t u l r = vreg s u l r) ∧ (∀ k, qreg t u k = qreg s u k) ∧ pcAt t u = pcAt s u ∧
    Shifted (latches s u .gang) (latches t u .gang)
      { st := .valid, reg := reg, idem := idemNow s u, val := [(0, x)] } reg [] ∧
    latches t u .lane = latches s u .lane ∧ OnlyUnits s t ∧ OthersKept s t u)

/-- Going on with the next word moves the unit's counter by one word, modulo 2^32, and changes no register,
no predicate and no latch. Lanes that have failed at a word in state code are parked when it completes, and not while
it waits; where none has, what a word leaves stands as it is. -/
def Obligations.AdvanceMovesCounter : Prop :=
  (∀ (u : UView) (t : State), u.region = none ∨ failedOf t u = [] → parkFailed u t = t) ∧
  (∀ (u : UView) (t : State) (gk gid : Nat) (g : Gang) (r : Group) (e : Nat × Cause) (es : List (Nat × Cause)),
    u.region ≠ none → u.kind = .grp gid → u.gk = some gk → gang? t gk = some g → group? g gid = some r →
    r.failed = e :: es → parkFailed u t = if r.issued = u.seq then t else raise e.2 [] u t) ∧
  ∀ (u : UView) (s : State), unitView s = some u →
    let t := advance s u
    pcAt t u = (u.pc + 1) % 2 ^ 32 ∧ waitOf t u = none ∧
    (∀ l r, vreg t u l r = vreg s u l r) ∧ (∀ r, greg t u r = greg s u r) ∧ (∀ k, qreg t u k = qreg s u k) ∧
    (∀ p, latches t u p = latches s u p) ∧ OnlyUnits s t ∧ OthersKept s t u

/-- A word that names registers alone leaves memory and everything on its way to memory as it was,
whatever the word comes to: a result, a wait, or a cause. -/
def Obligations.RegisterWordFrame : Prop :=
  ∀ i, RegisterWord i → ∀ s t, exec i s = .next t → MemoryKept s t

/-! ## The checks that open a word -/

/-- The checks stand in the order of R71: a reserved field or a strand outside state code raises 0x03, then
a privileged word outside the management context and handlers raises 0x04, then a field beyond its limits
raises 0x05, each with the word as its detail. Outside state code a word passes the checks when its strand and reserved fields are zero, its mode allows
it, its fields are registers of the gang, nothing that it reads or writes is awaited or uncorrectable, and,
in the lane pipe, a lane is there to act. -/
def Obligations.ChecksOpenWords : Prop :=
  (∀ (i : Instr) (n : Need) (u : UView) (s : State),
    let acts := actingLanes s u n.strand.toNat
    let bad (code : Nat) : Pre :=
      .raise { code := code, d0 := wordOf i, source := if n.pipe = .gang then 1 else 0 } acts
    (u.region = none ∨ acts ≠ [] ∨ n.always = true) →
    ((n.reserved = false ∨ (u.region = none ∧ n.strand ≠ 0)) → precheck i n u s = bad 0x03) ∧
    (n.reserved = true → (u.region ≠ none ∨ n.strand = 0) → n.priv = true → u.priv = false →
      precheck i n u s = bad 0x04) ∧
    (n.reserved = true → (u.region ≠ none ∨ n.strand = 0) → (n.priv = true → u.priv = true) →
      (n.limits = false ∨ (∃ f ∈ n.srcs, n.pipe = .lane ∧ u.lregs ≤ f.toNat ∧ f.toNat < 60) ∨
        (∃ e, n.other = some e ∧ n.pipe = .lane ∧ u.lregs ≤ e.1.toNat ∧ e.1.toNat < 60) ∨
        (∃ r ∈ n.gs, 60 ≤ r) ∨ (∃ r ∈ n.more, 60 ≤ r) ∨
        (∃ d, n.dst = some d ∧ 60 ≤ d.toNat ∧ ¬(n.w = true ∧ n.readsD = true))) →
      precheck i n u s = bad 0x05)) ∧
  (∀ (i : Instr) (n : Need) (u : UView) (s : State), unitView s = some u → u.region = none → n.strand = 0 →
    n.reserved = true → n.limits = true → (n.priv = true → u.priv = true) → FieldsOk n u →
    (∀ isG ls r, awaited s u isG ls r = none) → (n.ends = true → checkOutstanding s u.qids = false) →
    (∀ isG l r, poisoned s u isG l r = false) → (n.pipe = .lane → u.lanes ≠ []) →
    precheck i n u s = .go u.lanes)

/-! ## Taking an exception, and returning from one -/

/-- A cause that reaches a group in linear code stops it at its word: the context's handler starts in a new
instance with the code in g0, the word's address in g1 and the first detail word in g2, and the fault record
holds the cause and its lanes; the group keeps its counter and its gang its registers (R303, R309–R313). With no handler, the cause stops the context: every gang of it stands where it is, and the host is sent a
report with the cause (R311). In state code the lanes are parked as one fragment, each with the REENTRY block of its
block as the block it rejoins, and the handler runs on them; the group stays in the step (R43, R317). -/
def Obligations.ExceptionInGroup : Prop :=
  (∀ (c : Cause) (lanes : List Nat) (u : UView) (s : State) (gk gid : Nat) (g : Gang) (r : Group),
    LinearGroup s u gk gid g r → Plain c r.cont → (ctxD s g.ctx).trapValid = true →
    let t := raise c lanes u s
    ∃ i, inst? t s.next = some i ∧ i.pc = (ctxD s g.ctx).trapEntry.toNat ∧ i.core = g.core ∧ i.ctx = g.ctx ∧
      i.serves = .group gk gid ∧ i.rcd.cause = c ∧ i.rcd.lanes = lanes ∧ i.set = freeSet s g.core ∧
      sget 0 i.g 0 = w32 c.code ∧ sget 0 i.g 1 = w32 u.pc ∧ sget 0 i.g 2 = c.d0 ∧
      (∃ g', gang? t gk = some g' ∧ g'.v = g.v ∧ g'.g = g.g ∧ g'.q = g.q ∧
        ∃ r', group? g' gid = some r' ∧ r'.pc = r.pc ∧ r'.wait = some ⟨.stopped s.next, s.usec⟩) ∧
      MemoryKept s t) ∧
  (∀ (c : Cause) (lanes : List Nat) (u : UView) (s : State) (gk gid : Nat) (g : Gang) (r : Group),
    LinearGroup s u gk gid g r → Plain c r.cont → (ctxD s g.ctx).trapValid = false →
    ctx? s g.ctx ≠ none → (ctxD s g.ctx).faulted = false →
    let t := raise c lanes u s
    (ctxD t g.ctx).faulted = true ∧
    (∀ k h, gang? t k = some h → h.ctx = g.ctx → h.dead = true) ∧
    (∃ m, (t.outbox = s.outbox ++ [m] ∨ t.held = s.held ++ [m]) ∧ m.op = 0x41 ∧ m.ctx = g.ctx ∧
      m.payload.take 4 = natLe 4 c.code) ∧ MemoryKept s t) ∧
  (∀ (c : Cause) (lanes : List Nat) (u : UView) (s : State) (gk gid : Nat) (g : Gang) (r : Group) (rg : Region),
    unitView s = some u → s.cur = some (.grp gk gid) → gang? s gk = some g → group? g gid = some r →
    g.region = some rg → Plain c r.cont → (ctxD s g.ctx).trapValid = true → lanes ≠ [] → waitingFails s gk gid = [] →
    let t := raise c lanes u s
    ∃ i g', inst? t s.next = some i ∧ i.pc = (ctxD s g.ctx).trapEntry.toNat ∧ i.serves = .frag gk ∧
      i.rcd.frag = true ∧ i.rcd.scode = true ∧ i.rcd.cause = c ∧ i.rcd.lanes = lanes ∧
      sget 0 i.g 0 = w32 c.code ∧ sget 0 i.g 1 = codePos rg.img u.pc ∧ sget 0 i.g 2 = c.d0 ∧
      gang? t gk = some g' ∧ g'.groups = g.groups ∧ g'.v = g.v ∧ g'.g = g.g ∧ g'.q = g.q ∧
      (∀ l, sget 1023 g'.blk l = if l ∈ lanes then 1022 else sget 1023 g.blk l) ∧
      (∀ l, sget 0 g'.pblk l = if l ∈ lanes then 0 else sget 0 g.pblk l) ∧
      g'.frags = g.frags ++ [⟨s.next, lanes.map fun l => (l, reentry s g.ctx rg.img (sget 1023 g.blk l))⟩] ∧
      MemoryKept s t)

/-- An uncorrectable error in a group that has a containment handler open unwinds to the innermost handler:
the group goes on there, one level less deep, with its latches lost and an unwind record that names the
cause (R318). -/
def Obligations.ContainmentUnwinds : Prop :=
  ∀ (c : Cause) (lanes : List Nat) (u : UView) (s : State) (gk gid : Nat) (g : Gang) (r : Group) (h : Nat)
    (rest : List Nat),
    LinearGroup s u gk gid g r → 0x30 ≤ c.code → c.code ≤ 0x34 → r.cont = h :: rest →
    let t := raise c lanes u s
    ∃ g' r', gang? t gk = some g' ∧ group? g' gid = some r' ∧ r'.pc = h ∧ r'.cont = rest ∧ r'.wait = none ∧
      (∃ x, r'.unwind = some x ∧ x.cause.code = 0x35 ∧ x.cause.d0 = w32 c.code ∧ x.lanes = lanes) ∧
      r'.laneLatch = lostLatches r.laneLatch ∧ r'.gangLatch = lostLatches r.gangLatch ∧
      g'.v = g.v ∧ g'.g = g.g ∧ MemoryKept s t

/-! ## Memory words -/

/-- A load whose addresses pass every check, with nothing before it, writes to D of each lane, or to the gang
register D, the bytes at its place, lowest first, sign- or zero-extended, and goes on with the next word;
memory is as it was. -/
def Obligations.LoadsRead : Prop :=
  ∀ i n L, LoadWord i n L → ∀ s u acts (p : Nat → Spot), Runs i n s u acts → Unhindered s u →
    (∀ l ∈ accessLanes n acts, resolve s (agentOf u) L.reach l (L.addr s u l) L.size 1 = .ok (p l)) →
    ∃ t, exec i s = .next (parkFailed u t) ∧ t.mem = s.mem ∧ t.sb = s.sb ∧ t.queue = s.queue ∧ pcAt t u = (u.pc + 1) % 2 ^ 32 ∧
      ∀ d, n.dst = some d → n.w = false →
        (n.pipe = .lane → ∀ l ∈ acts,
          vreg t u l d.toNat = loaded L.signed (spotBytes s u.core u.ctx u.gk (p l) L.size (u.qids, u.seq))) ∧
        (n.pipe = .gang →
          greg t u d.toNat = loaded L.signed (spotBytes s u.core u.ctx u.gk (p (acts.headD 0)) L.size (u.qids, u.seq)))

/-- A store whose addresses pass every check, with nothing before it, leaves the low bytes of its data at its
place, lowest byte first: a lane's byte that no other lane writes, and every byte of the last lane. Every
byte of memory outside the places stored to reads as before, and no register changes. -/
def Obligations.StoresWrite : Prop :=
  ∀ i n S, StoreWord i n S → ∀ s u acts (p : Nat → Spot), Runs i n s u acts → Unhindered s u →
    (∀ l ∈ accessLanes n acts, resolve s (agentOf u) S.reach l (S.addr s u l) S.size 2 = .ok (p l)) →
    ∃ t, exec i s = .next (parkFailed u t) ∧ pcAt t u = (u.pc + 1) % 2 ^ 32 ∧
      (∀ l k, l ∈ accessLanes n acts → k < S.size →
        ((∀ j ∈ accessLanes n acts, j ≠ l → ∀ m < S.size, placeOf (p j) m ≠ placeOf (p l) k) ∨
          (accessLanes n acts).getLast? = some l) →
        storedAt t u (placeOf (p l) k) = some (BitVec.ofNat 8 ((S.data s u l).toNat / 256 ^ k))) ∧
      (∀ loc, (∀ l ∈ accessLanes n acts, ¬ covers (p l) S.size loc) → readByte t loc = readByte s loc) ∧
      (∀ l r, vreg t u l r = vreg s u l r) ∧ (∀ r, greg t u r = greg s u r) ∧ (∀ k, qreg t u k = qreg s u k)

/-- An access that fails a check raises the cause of the lowest lane that fails: outside state code in every lane that
does (in all lanes, for a gang-pipe word), and no access of the word is made; in state code so too where every lane
fails (R196, R309, R310). A store all of whose pages miss translation, with room in the Gutter, retires into it: one
entry for each lane holds the address, the data and the bytes that no higher lane writes, memory is as it was, and the
unit goes on (R199, R200). A load that misses waits at its word for its page, and reads nothing (R322). An access that
the schedule holds back, or that an older one or a FENCE stands before, joins the unit's queue as the unit goes on; D
awaits it (R220, R198). -/
def Obligations.AccessesStopped : Prop :=
  (∀ i n reach size acc addr, AccessWord i n reach size acc addr → ∀ s u acts, Runs i n s u acts →
    s.shadow = [] →
    let bad (l : Nat) : Option Cause := match resolve s (agentOf u) reach l (addr s u l) size acc with
      | .bad c => some c
      | _ => none
    u.region = none ∨ (∀ l ∈ accessLanes n acts, bad l ≠ none) →
    ∀ c, (accessLanes n acts).findSome? bad = some c → ¬(0x20 ≤ c.code ∧ c.code ≤ 0x22) →
    exec i s = .next (parkFailed u (raiseOn { c with source := if n.pipe = .gang then 1 else 0 }
      (if n.pipe = .gang then acts else acts.filter fun l => (bad l).isSome) u s))) ∧
  (∀ i n S, StoreWord i n S → S.reach = .plain → ∀ s u acts, Runs i n s u acts → Unhindered s u →
    let ls := accessLanes n acts
    (∀ l ∈ ls, ∃ page, resolve s (agentOf u) S.reach l (S.addr s u l) S.size 2 = .miss page 2) → ls.length ≤ 256 →
    let va (l : Nat) : Nat := canon s (agentOf u) l (S.addr s u l)
    ∃ t, exec i s = .next (parkFailed u t) ∧ t.mem = s.mem ∧ t.sb = s.sb ∧ pcAt t u = (u.pc + 1) % 2 ^ 32 ∧
      t.gutter.map (fun e => (e.lane, e.addr.toNat, e.op, e.mask)) = (List.range ls.length).map fun k =>
        let l := ls.getD k 0
        (l, va l, AccOp.store S.size (S.data s u l),
          [0, 1, 2, 3].filter fun i => (ls.drop (k + 1)).all fun j => !decide (va j ≤ va l + i ∧ va l + i < va j + S.size))) ∧
  (∀ i n L, LoadWord i n L → ∀ s u acts, Runs i n s u acts → Unhindered s u → acts ≠ [] →
    ∀ page, (∀ l ∈ accessLanes n acts, resolve s (agentOf u) L.reach l (L.addr s u l) L.size 1 = .miss page 1) →
    ∃ t, exec i s = .next (parkFailed u t) ∧ t.mem = s.mem ∧ pcAt t u = u.pc ∧ (waitOf t u).map Wait.on = some (.page page) ∧
      (∀ l r, vreg t u l r = vreg s u l r) ∧ (∀ r, greg t u r = greg s u r)) ∧
  (∀ i n reach size acc addr, AccessWord i n reach size acc addr → reach = .plain → ∀ s u acts, Runs i n s u acts →
    s.shadow = [] → accessLanes n acts ≠ [] →
    (∀ l ∈ accessLanes n acts, ∃ q, resolve s (agentOf u) reach l (addr s u l) size acc = .ok q) →
    s.defers.headD false = true →
    ∃ t e xs, exec i s = .next (parkFailed u t) ∧ t.queue = s.queue ++ [e] ∧ t.mem = s.mem ∧ t.sb = s.sb ∧
      pcAt t u = (u.pc + 1) % 2 ^ 32 ∧ e.id = s.next ∧ e.qid = u.qids.headD 0 ∧ e.seq = u.seq ∧ e.unit = u.ref ∧
      e.op = .accesses xs ∧ xs.map (fun x => (x.lane, x.addr)) = (accessLanes n acts).map (fun l => (l, addr s u l)) ∧
      (∀ d, n.dst = some d → n.w = false →
        ∀ l ∈ accessLanes n acts, awaited t u (n.pipe = .gang) [l] d.toNat = some s.next))

/-- An atomic of one lane at a scratchpad or Eaves word returns the old word in D and leaves the new one; a
reduction leaves the new word and returns nothing. Other bytes of memory are as they were. At a word of a die view an atomic or a reduction goes to the die that bits 10:8 of its address name, with
the lane's operands; an atomic's D awaits it. Memory changes when it arrives there. -/
def Obligations.UpdatesApply : Prop :=
  (∀ i n o ret f, UpdateWord i n o ret f → ∀ s u l p, Runs i n s u [l] → Unhindered s u → s.shadow = [] →
    resolve s (agentOf u) .plain l (laneAddr s u o.a o.b l) 4 8 = .ok p → (placeOf p 0).1 = false →
    ∃ t, exec i s = .next (parkFailed u t) ∧ pcAt t u = (u.pc + 1) % 2 ^ 32 ∧
      wordAt t p = f (wordAt s p) (vsrc s u o.d l) (vsrc s u (o.d + 1) l) ∧
      (ret = true → vreg t u l o.d.toNat = wordAt s p) ∧
      (∀ loc, ¬ covers p 4 loc → readByte t loc = readByte s loc)) ∧
  (∀ i n o ret f, UpdateWord i n o ret f → ∀ s u l pa, Runs i n s u [l] → Unhindered s u → s.shadow = [] →
    resolve s (agentOf u) .plain l (laneAddr s u o.a o.b l) 4 8 = .ok (.view pa) →
    ∃ t h, exec i s = .next (parkFailed u t) ∧ pcAt t u = (u.pc + 1) % 2 ^ 32 ∧ t.mem = s.mem ∧ t.homeq = s.homeq ++ [h] ∧
      h.home = pa / 256 % 8 ∧ h.pa = pa ∧ h.core = u.core ∧ h.ctx = u.ctx ∧
      (∀ old, updated h.op old = f old (vsrc s u o.d l) (vsrc s u (o.d + 1) l)) ∧
      (ret = true → awaited t u false [l] o.d.toNat = h.entry ∧ h.entry ≠ none))

/-- DFA.STEP4 takes four steps through the transition table: the entry's low 15 bits are the next state, its
top bit says that the state accepts; D takes the four accepting bits above the last entry (R106–R108). Held back by
the schedule or by an older scratchpad access, it joins the unit's queue, with a walk of each lane, and D awaits it
(R220). -/
def Obligations.DfaSteps : Prop :=
  (∀ o s u acts, Runs (.dfaStep4 o) (dfaNeed o) s u acts → (∀ e ∈ s.queue, e.qid ∉ u.qids) → s.defers.headD false = false →
    ∀ e : Nat → Nat → Nat,
    (∀ l ∈ acts, ∀ k < 4, tableEntry s u l (gpair s u o.a.toNat)
      (if k = 0 then (vsrc s u o.d l).toNat % 0x8000 else e l (k - 1) % 0x8000)
      ((vsrc s u o.b l).toNat / 256 ^ k % 256) (e l k)) →
    exec (.dfaStep4 o) s = .next (parkFailed u (advance (laneResult o.d o.w (acts.map fun l =>
      (l, w32 (((List.range 4).map fun k => if e l k ≥ 0x8000 then 2 ^ k else 0).sum * 0x10000 + e l 3))) u
      { s with defers := s.defers.drop 1 }) u))) ∧
  (∀ o s u acts, Runs (.dfaStep4 o) (dfaNeed o) s u acts → acts ≠ [] → s.defers.headD false = true →
    ∃ t e, exec (.dfaStep4 o) s = .next (parkFailed u t) ∧ t.queue = s.queue ++ [e] ∧ t.mem = s.mem ∧
      pcAt t u = (u.pc + 1) % 2 ^ 32 ∧ e.id = s.next ∧ e.seq = u.seq ∧
      e.op = .dfa (gpair s u o.a.toNat) (acts.map fun l =>
        { lane := l, k := 0, st := (vsrc s u o.d l).toNat % 0x8000, flags := 0, bytes := vsrc s u o.b l }) ∧
      (o.w = false → ∀ l ∈ acts, awaited t u false [l] o.d.toNat = some s.next))

/-! ## Versioned regions -/

/-- LDV with nothing before it reads the version that it names of each lane's line; a number that a line does
not hold yet is waited for, one that a line has dropped raises 0x11 in its lanes: outside state code nothing is read
then, in state code the other lanes go on and those are parked as the word completes. The word completes with the
values that the wait has collected (R185, R188, R205, R309). VLATEST gives each lane the latest number of its line. -/
def Obligations.VersionsRead : Prop :=
  (∀ o s u acts, Runs (.ldv o) (ldvNeed o) s u acts →
    let addr (l : Nat) : Nat := (laneAddr s u o.a o.b l).toNat
    let n := greg s u (o.a.toNat + 2)
    let time (l : Nat) : Ordering := versionTime s u.ctx (addr l) n
    let word (l : Nat) : Word := versionWord s u.ctx (addr l) n
    let dropped := acts.filter fun l => time l = .lt
    let rows := (acts.filter fun l => time l = .gt).map fun l => (l, addr l, n)
    let got := (acts.filter fun l => time l = .eq).map fun l => (l, word l)
    let on (t : State) : State :=
      if rows = [] then advance (laneResult o.d o.w got u t) u else hold t u (.version rows got)
    (∀ got t, waitOf s u = some ⟨.version [] got, t⟩ →
      exec (.ldv o) s = .next (parkFailed u (advance (laneResult o.d o.w (got.filter fun e => acts.contains e.1) u s) u))) ∧
    (Clear s u → waitOf s u = none → acts.Pairwise (· < ·) → (∀ l ∈ acts, Intact s u.ctx (addr l)) →
      (∀ l ∈ acts, resolve s (agentOf u) .globalOnly l (laneAddr s u o.a o.b l) 4 1 true = .ok (.line (addr l))) →
      (dropped = [] → exec (.ldv o) s = .next (parkFailed u (on s))) ∧
      (dropped ≠ [] → u.region = none ∨ dropped = acts →
        exec (.ldv o) s = .next (parkFailed u (raiseOn { code := 0x11, d0 := n } dropped u s))) ∧
      (dropped ≠ [] → u.region ≠ none → dropped ≠ acts →
        exec (.ldv o) s = .next (parkFailed u
          (on (setFailed (dropped.map fun l => (l, { code := 0x11, d0 := n })) u s)))))) ∧
  (∀ o s u acts, Runs (.vlatest o) (vlatestNeed o) s u acts → Unhindered s u →
    (∀ l ∈ acts, resolve s (agentOf u) .globalOnly l (laneAddr s u o.a o.b l) 4 1 true =
      .ok (.line (laneAddr s u o.a o.b l).toNat)) →
    exec (.vlatest o) s = .next (parkFailed u (advance (laneResult o.d o.w (acts.map fun l =>
      (l, w32 (lineOf s u.ctx (laneAddr s u o.a o.b l).toNat).latest)) u
      (taken { s with defers := s.defers.drop 1 })) u)))

/-- STV of a number above each line's latest, where no line is staged or full against its pins and the heap
has room, adds version `m` to every line that it touches: the latest bytes with the lanes' words put in. The
versions before it that a line still holds, every other line, and memory are as they were (R186, R205). Held back by
the schedule, it joins the unit's queue and changes no line yet (R220, R230). -/
def Obligations.VersionsStore : Prop :=
  ∀ o s u acts, Runs (.stv o) (stvNeed o) s u acts →
    let addr (l : Nat) : Nat := (laneAddr s u o.a o.b l).toNat
    let m := greg s u (o.a.toNat + 2)
    let line (l : Nat) : Line := lineOf s u.ctx (addr l)
    (∀ l ∈ acts, resolve s (agentOf u) .globalOnly l (laneAddr s u o.a o.b l) 4 2 true = .ok (.line (addr l))) →
    m ≠ 0 → m ≠ 0xFFFFFFFF →
    (Unhindered s u → (∀ l ∈ acts, Intact s u.ctx (addr l)) →
      (∀ l ∈ acts, (line l).latest < m.toNat ∧ (line l).staged = none ∧ ((line l).vers.length < 8 ∨
        ∀ k r, regionAt s u.ctx (addr l) = some (k, r) → ∀ p ∈ r.pins,
          ¬(max (line l).old r.floor ≤ p.1 ∧ p.1 < ((line l).vers.getD 1 ⟨0, 0, [], []⟩).num))) →
      (acts.filter fun l => (line l).vers.length < 8).length + heapTaken (ctxD s u.ctx) ≤ (ctxD s u.ctx).vheap →
      ∃ t, exec (.stv o) s = .next (parkFailed u t) ∧ pcAt t u = (u.pc + 1) % 2 ^ 32 ∧ t.mem = s.mem ∧
        (∀ l ∈ acts, (lineOf t u.ctx (addr l)).latest = m.toNat ∧ (lineOf t u.ctx (addr l)).staged = none ∧
          latestBytes t u.ctx (addr l) =
            rewritten (addr l / 64) acts addr (fun l => vsrc s u o.d l) (latestBytes s u.ctx (addr l))) ∧
        (∀ va (n : Word), n.toNat < m.toNat → (lineOf t u.ctx va).old ≤ n.toNat → n ≠ 0xFFFFFFFF →
          versionWord t u.ctx va n = versionWord s u.ctx va n) ∧
        (∀ va, va / 64 ∉ acts.map (fun l => addr l / 64) → lineOf t u.ctx va = lineOf s u.ctx va)) ∧
    (s.defers.headD false = true →
      ∃ t e, exec (.stv o) s = .next (parkFailed u t) ∧ pcAt t u = (u.pc + 1) % 2 ^ 32 ∧ t.mem = s.mem ∧
        t.ctxs = s.ctxs ∧ t.queue = s.queue ++ [e] ∧ e.id = s.next ∧ e.seq = u.seq ∧
        e.op = .stv m.toNat (acts.map fun l =>
          { lane := l, addr := laneAddr s u o.a o.b l, op := .store 4 (vsrc s u o.d l) }) none)

/-- VPIN adds a pin on a number of the region that holds the address, VUNPIN takes one away, and VFLOOR raises
the region's floor, or leaves it; each keeps the form of the list of pins. A floor changes no version at or above
it, and of the versions up to it a line keeps the newest alone (R189, R190, R206). -/
def Obligations.PinsAndFloors : Prop :=
  ∀ (o : OAB) s u acts k r, Clear s u → (gpair s u o.a.toNat).toNat < 2 ^ 56 →
    regionAt s u.ctx (gpair s u o.a.toNat).toNat = some (k, r) → PinsOk r →
    let f := (gsrc s u o.b).toNat
    let leaves (i : Instr) (P : State → VRegion → Prop) : Prop :=
      ∃ t r', exec i s = .next (parkFailed u t) ∧ pcAt t u = (u.pc + 1) % 2 ^ 32 ∧ t.mem = s.mem ∧
        sget none (ctxD t u.ctx).regions k = some r' ∧ PinsOk r' ∧ P t r'
    (Runs (.vpin o) (pinNeed o) s u acts → f ≠ 0xFFFFFFFF → r.floor ≤ f → pinCount r f < 65535 →
      (pinCount r f ≠ 0 ∨ r.pins.length < 8) →
      leaves (.vpin o) fun _ r' => r'.floor = r.floor ∧
        ∀ n, pinCount r' n = pinCount r n + if n = f then 1 else 0) ∧
    (Runs (.vunpin o) (pinNeed o) s u acts → pinCount r f ≠ 0 →
      leaves (.vunpin o) fun _ r' => r'.floor = r.floor ∧
        ∀ n, pinCount r' n = pinCount r n - if n = f then 1 else 0) ∧
    (Runs (.vfloor o) (pinNeed o) s u acts → f ≠ 0xFFFFFFFF → r.floor ≤ f → (∀ p ∈ r.pins, f ≤ p.1) →
      leaves (.vfloor o) fun t r' => r'.floor = f ∧ r'.pins = r.pins ∧
        (∀ va n, f ≤ n → versionAt r' (lineOf t u.ctx va) (va / 64) n = versionAt r (lineOf s u.ctx va) (va / 64) n) ∧
        ∀ va v w l, regionAt t u.ctx va = some (k, r') → (lineOf t u.ctx va).vers = v :: w :: l → f < w.num)

/-! ## Scratchpad buffers -/

/-- SPALLOC takes the lowest free index and the lowest run of free granules that is long enough; the buffer
reads as zeros, its generation goes up, its rewrite is in progress, and gD to gD + 2 hold its handle and its
address. Bytes outside it are as they were. Where no index or run is free, they hold zeros (R169, R207). -/
def Obligations.BufferAllocated : Prop :=
  ∀ o s u acts, Runs (.spalloc o) (spallocNeed o) s u acts → swf 0 s.owner = true →
    (∀ e ∈ s.queue, e.qid ∉ u.qids) →
    let size := (gsrc s u o.a).toNat
    let life := gsrc s u o.b
    let n := (size + 255) / 256
    0 < size → size ≤ 0x180000 → life ≠ 0 → life.toNat ≤ Config.retention →
    (∀ idx run, idx < 256 → (tagOf s u.ctx u.core idx).live = false →
      (∀ j < idx, (tagOf s u.ctx u.core j).live = true) → RunFree s u.core n run → (∀ j < run, ¬ RunFree s u.core n j) →
      ∃ t, exec (.spalloc o) s = .next (parkFailed u t) ∧ pcAt t u = (u.pc + 1) % 2 ^ 32 ∧
        let b := tagOf t u.ctx u.core idx
        b.live = true ∧ b.saved = false ∧ b.base = run * 256 ∧ b.size = n * 256 ∧ b.life = life.toNat ∧
        b.gen = (if (tagOf s u.ctx u.core idx).gen = 255 then 1 else (tagOf s u.ctx u.core idx).gen + 1) ∧
        b.rewrite = some true ∧ b.expiry = (fadeTick s + life.toNat) % 2 ^ 32 ∧
        (o.w = false → greg t u o.d.toNat = w32 (b.gen * 256 + idx)) ∧
        greg t u (o.d.toNat + 1) = w32 (run * 256) ∧ greg t u (o.d.toNat + 2) = 0xFF000000 ∧
        (∀ i < n, ownerAt t u.core (run * 256 + i * 256) = some (u.ctx, idx)) ∧
        (∀ loc, bufferByte u.core b loc → readByte t loc = 0) ∧
        (∀ loc, ¬ bufferByte u.core b loc → readByte t loc = readByte s loc)) ∧
    ((∀ idx < 256, (tagOf s u.ctx u.core idx).live = true) ∨ (∀ j, ¬ RunFree s u.core n j) →
      ∃ t, exec (.spalloc o) s = .next (parkFailed u t) ∧ pcAt t u = (u.pc + 1) % 2 ^ 32 ∧ t.mem = s.mem ∧ t.owner = s.owner ∧
        (o.w = false → greg t u o.d.toNat = 0) ∧ greg t u (o.d.toNat + 1) = 0 ∧ greg t u (o.d.toNat + 2) = 0)

/-- SPRENEW of a good handle, with no rewrite in progress, starts one and moves the expiry to now plus the
life; SPRENEW.z, or the renewal of an expired buffer, fills it with zeros; else its bytes stay. A life of 0
keeps the old one (R172, R208). SPFREE frees the index and the granules and keeps the generation. SPINFO
gives the tag's words (R170, R209). -/
def Obligations.BufferRenewedFreedRead : Prop :=
  ∀ s u acts idx,
    let b := tagOf s u.ctx u.core idx
    (∀ (z : Bool) (o : OAB), Runs (if z then .sprenewZ o else .sprenew o) (renewNeed o) s u acts →
      Good s u (gsrc s u o.a) idx → b.saved = false → b.rewrite = none → (∀ e ∈ s.queue, e.qid ∉ u.qids) → (gsrc s u o.b).toNat ≤ Config.retention →
      ∃ t, exec (if z then .sprenewZ o else .sprenew o) s = .next (parkFailed u t) ∧ pcAt t u = (u.pc + 1) % 2 ^ 32 ∧
        let life := if gsrc s u o.b = 0 then b.life else (gsrc s u o.b).toNat
        let zero := z || expired s b
        tagOf t u.ctx u.core idx = { b with life := life, rewrite := some zero, stale := false
                                            expiry := (fadeTick s + life) % 2 ^ 32 } ∧
        ∀ loc, readByte t loc = if zero = true ∧ spLoc u.core b.base ≤ loc ∧ loc < spLoc u.core b.base + b.size then 0
          else readByte s loc) ∧
    (∀ o, Runs (.spfree o) (spfreeNeed o) s u acts → Good s u (gsrc s u o.a) idx → (∀ e ∈ s.queue, e.gk ≠ u.gk ∧ e.qid ∉ u.qids) →
      ∃ t, exec (.spfree o) s = .next (parkFailed u t) ∧ pcAt t u = (u.pc + 1) % 2 ^ 32 ∧ t.mem = s.mem ∧
        tagOf t u.ctx u.core idx = { gen := b.gen } ∧
        ∀ i < b.size / 256, ownerAt t u.core (b.base / 256 * 256 + i * 256) = none) ∧
    (∀ o, Runs (.spinfo o) (spinfoNeed o) s u acts → Good s u (gsrc s u o.a) idx → b.base < 2 ^ 29 →
      ∃ t, exec (.spinfo o) s = .next (parkFailed u t) ∧ pcAt t u = (u.pc + 1) % 2 ^ 32 ∧ t.mem = s.mem ∧
        (o.w = false → greg t u o.d.toNat =
          1#1 ++ BitVec.ofBool (expired s b) ++ BitVec.ofBool b.saved ++ BitVec.ofNat 29 b.base) ∧
        greg t u (o.d.toNat + 1) = w32 b.size ∧ greg t u (o.d.toNat + 2) = w32 b.expiry ∧
        greg t u (o.d.toNat + 3) = w32 b.life)

/-! ## Order, descriptors, packed records -/

/-- A FENCE whose earlier accesses are complete is passed at once; one with an earlier access of its first
classes still queued joins the unit's queue. Either way the unit goes on with the next word (R214). FLUSH of a range in the address space is passed when every earlier write of the unit has left, or when its
length is 0; while one is in the store buffer the unit waits at its word (R215; log entry 16 says which writes
count). -/
def Obligations.FencesAndFlushes : Prop :=
  (∀ o s u acts, Runs (.fence o) { pipe := .gang, strand := o.s } s u acts →
    ∃ t, exec (.fence o) s = .next (parkFailed u t) ∧ pcAt t u = (u.pc + 1) % 2 ^ 32 ∧ t.mem = s.mem ∧ RegistersKept s t u ∧
      (Settled s u → t.queue = s.queue) ∧
      ((∃ e ∈ s.queue, ∃ x, e.qid ∈ u.qids ∧ e.seq < u.seq ∧ e.op = .accesses [x] ∧
          classOf x.addr x.op &&& o.d.toNat ≠ 0) →
        ∃ e, t.queue = s.queue ++ [e] ∧ e.op = .fence o.d.toNat o.a.toNat o.b.toNat ∧ e.qid = u.qids.headD 0 ∧
          e.seq = u.seq)) ∧
  (∀ o s u acts, Runs (.flush o) (flushNeed o) s u acts →
    (gpair s u o.a.toNat).toNat + (gsrc s u o.b).toNat ≤ 2 ^ 56 →
    (Settled s u ∨ gsrc s u o.b = 0 → exec (.flush o) s = .next (parkFailed u (advance s u))) ∧
    (gsrc s u o.b ≠ 0 → (∃ e ∈ s.sb, e.core = u.core ∧ e.ctx = u.ctx ∧ e.gk = u.gk) →
      exec (.flush o) s = .next (parkFailed u (hold s u .flush))))

/-- TD.LOAD replaces a whole entry by the sixteen words at its address, and TD.SET one word of it, where the
entry passes the checks that its VALID bit calls for; else each raises 0x18 and the entry is as it was (R216,
R217). -/
def Obligations.DescriptorsWritten : Prop :=
  ∀ (o : OAB) s u acts,
    let writes (i : Instr) (n : Nat) (d : Desc) : Prop :=
      (entryOk d = true → ∃ t, exec i s = .next (parkFailed u t) ∧ pcAt t u = (u.pc + 1) % 2 ^ 32 ∧ t.mem = s.mem ∧
        RegistersKept s t u ∧ descOf t u.ctx u.core n = d ∧
        ∀ m, m ≠ n → descOf t u.ctx u.core m = descOf s u.ctx u.core m) ∧
      (entryOk d = false →
        exec i s = .next (parkFailed u (raiseOn { code := 0x18, d0 := w32 n, source := 1 } acts u s)))
    (∀ p, Runs (.tdLoad o) (tdLoadNeed o) s u acts → Clear s u →
      resolve s (agentOf u) .plain (acts.headD 0) (gpair s u o.b.toNat) 64 1 = .ok p →
      writes (.tdLoad o) ((gsrc s u o.a).toNat % 128)
        ((List.range 16).map fun k => w32 (leNat (((spotBytes s u.core u.ctx u.gk p 64).drop (4 * k)).take 4)))) ∧
    (∀ n k, Runs (.tdSet o) (renewNeed o) s u acts → n < 128 → k < 16 → (gsrc s u o.a).toNat = n + k * 256 →
      writes (.tdSet o) n ((descOf s u.ctx u.core n).set k (gsrc s u o.b)))

/-- PKST, with the tensor and the record in the core's scratchpad, writes the record of the tensor: the header
with the number of nonzero elements, the format, one mask bit for each element, and the nonzero elements in
ascending order; the number goes to gD, and no other byte changes (R212). PKLD, with the record and the tensor in the core's scratchpad, writes every element of the tensor: the next
value of the record where the mask holds a bit, else zero; the number of values goes to gD (R213). -/
def Obligations.PacksAndUnpacks : Prop :=
  (∀ o s u acts, Runs (.pkst o) (packNeed o) s u acts → Clear s u →
    let na := (gsrc s u o.a).toNat
    let nb := (gsrc s u o.b).toNat
    let dense := descOf s u.ctx u.core na
    let rcd := descOf s u.ctx u.core nb
    let n := dExt dense 0
    let w := fmtWidth (dFmt dense) / 8
    let cap := dExt rcd 0
    na < 128 → nb < 128 → pkCheck na nb dense rcd false = none →
    ∀ r at_, PackedPlaces s u dense rcd n w cap r at_ →
    let held := (List.range n).filter fun i => spNat s u (at_ i) w ≠ 0
    held.length ≤ cap →
    ∃ t, exec (.pkst o) s = .next (parkFailed u t) ∧ pcAt t u = (u.pc + 1) % 2 ^ 32 ∧
      (o.w = false → greg t u o.d.toNat = w32 held.length) ∧
      spNat t u r 4 = held.length * 65536 + n ∧ spNat t u (r + 4) 4 = dFmt rcd ∧
      (∀ i < n, (readByte t (spLoc u.core (r + 8 + i / 8))).getLsbD (i % 8) = decide (spNat s u (at_ i) w ≠ 0)) ∧
      (∀ k i, held[k]? = some i → spNat t u (r + 8 + n / 8 + k * w) w = spNat s u (at_ i) w) ∧
      ∀ loc, (loc < spLoc u.core r ∨ spLoc u.core r + (8 + n / 8 + cap * w) ≤ loc) → readByte t loc = readByte s loc) ∧
  (∀ o s u acts, Runs (.pkld o) (packNeed o) s u acts → Clear s u →
    let na := (gsrc s u o.a).toNat
    let nb := (gsrc s u o.b).toNat
    let rcd := descOf s u.ctx u.core na
    let dense := descOf s u.ctx u.core nb
    let n := dExt dense 0
    let w := fmtWidth (dFmt dense) / 8
    let cap := dExt rcd 0
    na < 128 → nb < 128 → pkCheck na nb rcd dense true = none →
    ∀ r at_, PackedPlaces s u dense rcd n w cap r at_ →
    let held := (List.range n).filter fun i => (readByte s (spLoc u.core (r + 8 + i / 8))).getLsbD (i % 8)
    held.length ≤ cap → spNat s u r 4 = held.length * 65536 + n → spNat s u (r + 4) 4 = dFmt dense →
    ∃ t, exec (.pkld o) s = .next (parkFailed u t) ∧ pcAt t u = (u.pc + 1) % 2 ^ 32 ∧
      (o.w = false → greg t u o.d.toNat = w32 held.length) ∧
      (∀ k i, held[k]? = some i → spNat t u (at_ i) w = spNat s u (r + 8 + n / 8 + k * w) w) ∧
      (∀ i < n, i ∉ held → spNat t u (at_ i) w = 0) ∧
      ∀ loc, (∀ i < n, loc < spLoc u.core (at_ i) ∨ spLoc u.core (at_ i) + w ≤ loc) → readByte t loc = readByte s loc)

/-! ## Matrix words -/

/-- A matrix word whose operands are in range, at an engine that takes it, puts its command at the end of the
engine's queue for the context, and the unit goes on; no register and no memory changes (R268, R272–R280). -/
def Obligations.MatrixCommandsQueue : Prop :=
  ∀ i n op s u acts, MatrixWord s u i n op → Runs i n s u acts → EngineTakes s u →
    ∃ t c, exec i s = .next (parkFailed u t) ∧ pcAt t u = (u.pc + 1) % 2 ^ 32 ∧ t.mem = s.mem ∧ RegistersKept s t u ∧
      (matrixOf t u.core).queue = (matrixOf s u.core).queue ++ [c] ∧ c.op = op ∧ c.unit = some u.ref ∧ c.lanes = acts ∧
      (matrixOf t u.core).owner = some u.ctx ∧ (matrixOf t u.core).acc = (matrixOf s u.core).acc

/-- MDRAIN to lanes queues the drain of one row from one column, and D of each acting lane awaits it; MSTAT gives
the engine's two status words, zero where another context owns it, and clears what its operand names; a release
leaves FAULT as it is (R272, R277, R281). -/
def Obligations.DrainToLanesAndStatus : Prop :=
  (∀ o e s u acts row part, Runs (.mdrain o e) (mdrainNeed o) s u acts → EngineTakes s u →
    row < 256 → part < (if u.legacy then 4 else 2) → (gsrc s u o.a).toNat = row + part * 256 →
    ∃ t c, exec (.mdrain o e) s = .next (parkFailed u t) ∧ pcAt t u = (u.pc + 1) % 2 ^ 32 ∧ t.mem = s.mem ∧
      (matrixOf t u.core).queue = (matrixOf s u.core).queue ++ [c] ∧
      c.op = .drainLanes e.toNat row (u.width * part) o.d.toNat acts ∧
      (o.w = false → ∀ l ∈ acts, awaited t u false [l] o.d.toNat = some c.id)) ∧
  (∀ o s u acts, Runs (.mstat o) (mstatNeed o) s u acts → (gsrc s u o.a).toNat < 8 →
    let m := matrixOf s u.core
    let a := gsrc s u o.a
    ∃ t, exec (.mstat o) s = .next (parkFailed u t) ∧ pcAt t u = (u.pc + 1) % 2 ^ 32 ∧ t.mem = s.mem ∧
      (m.owner ≠ some u.ctx → (o.w = false → greg t u o.d.toNat = 0) ∧ greg t u (o.d.toNat + 1) = 0 ∧ matrixOf t u.core = m) ∧
      (m.owner = some u.ctx →
        (o.w = false → greg t u o.d.toNat = (mstatWords m).1) ∧ greg t u (o.d.toNat + 1) = (mstatWords m).2 ∧
        (a.getLsbD 2 = true → m.queue = [] → matrixOf t u.core =
          { fault := m.fault && !a.getLsbD 1, cause := if a.getLsbD 1 then 0 else m.cause }) ∧
        (a.getLsbD 2 = false → m.rel = false → matrixOf t u.core =
          { m with flags := if a.getLsbD 0 then 0 else m.flags, fault := m.fault && !a.getLsbD 1
                   cause := if a.getLsbD 1 then 0 else m.cause })))

/-! ## Control -/

/-- In linear code BRA goes to its own address plus OFF19, CALL does so and leaves the next word's address in g59,
RET goes where its register says, and BRC parts a group whose slices differ: the slices whose predicates hold go
to the target, the others to the next word, each group with its own slices. In state code every transfer
raises 0x2F (R19, R42, R119). -/
def Obligations.ControlTransfers : Prop :=
  (∀ i n s u acts, Transfer i n → Runs i n s u acts → u.region ≠ none →
    exec i s = .next (parkFailed u (raiseOn { code := 0x2F, d0 := wordOf i, source := 1 } acts u s))) ∧
  (∀ f s u acts, Runs (.bra f) { pipe := .gang } s u acts → u.region = none →
    ∃ t, exec (.bra f) s = .next t ∧ pcAt t u = target u f ∧ t.mem = s.mem ∧ RegistersKept s t u) ∧
  (∀ f s u acts, Runs (.call f) { pipe := .gang, more := [59] } s u acts → u.region = none →
    ∃ t, exec (.call f) s = .next t ∧ pcAt t u = target u f ∧ t.mem = s.mem ∧
      greg t u 59 = w32 ((u.pc + 1) % 2 ^ 32) ∧ (∀ r, r ≠ 59 → greg t u r = greg s u r) ∧
      ∀ l r, vreg t u l r = vreg s u l r) ∧
  (∀ o s u acts, Runs (.ret o) { pipe := .gang, strand := o.s, srcs := [o.a] } s u acts → u.region = none →
    ∃ t, exec (.ret o) s = .next t ∧ pcAt t u = (gsrc s u o.a).toNat ∧ t.mem = s.mem ∧ RegistersKept s t u) ∧
  (∀ (all : Bool) q neg f s u acts gk gid g r, LinearGroup s u gk gid g r →
    let i : Instr := if all then .brcAll q neg f else .brcAny q neg f
    Runs i { pipe := .gang } s u acts →
    let slices := r.slices.filter (sliceThere g)
    let go := slices.filter (sliceTakes all (qreg s u q.toNat) neg g)
    let stay := slices.filter fun x => !sliceTakes all (qreg s u q.toNat) neg g x
    (stay = [] → ∃ t, exec i s = .next t ∧ pcAt t u = target u f ∧ t.mem = s.mem ∧ RegistersKept s t u) ∧
    (go = [] → stay ≠ [] →
      ∃ t, exec i s = .next t ∧ pcAt t u = (u.pc + 1) % 2 ^ 32 ∧ t.mem = s.mem ∧ RegistersKept s t u) ∧
    (go ≠ [] → stay ≠ [] →
      ∃ t g' a ra b rb, exec i s = .next t ∧ t.mem = s.mem ∧ gang? t gk = some g' ∧ g'.v = g.v ∧ g'.g = g.g ∧
        g'.q = g.q ∧ g'.live = g.live ∧ a ≠ b ∧ group? g' a = some ra ∧ group? g' b = some rb ∧
        ra.slices = go ∧ ra.pc = target u f ∧ rb.slices = stay ∧ rb.pc = (u.pc + 1) % 2 ^ 32 ∧
        ra.laneLatch = r.laneLatch ∧ rb.laneLatch = r.laneLatch ∧ ra.gangLatch = r.gangLatch ∧
        rb.gangLatch = r.gangLatch ∧ ra.wait = none ∧ rb.wait = none))

/-- REGANG in an unparted gang is passed; a group of a parted gang waits there until the others have come to the
same word, and the gang goes on as one group of all their slices, with its latches lost (R20, R67). EXIT
retires the group's lanes and leaves the gang's cohorts: other lanes keep the gang, and with no lane left, and its
stores accepted, the gang is gone (R23, R120; that a group's EXIT leaves for a gang that has other groups is log entry
11). -/
def Obligations.GroupsMergeAndRetire : Prop :=
  ∀ s u acts gk gid g r, LinearGroup s u gk gid g r →
  (∀ x, Runs (.regang x) { pipe := .gang, strand := x } s u acts →
    let others := (sentries g.groups).filter fun e => e.1 ≠ gid
    (others = [] → (sentries g.groups).length = 1 → exec (.regang x) s = .next (advance s u)) ∧
    ((∃ e ∈ others, (e.2.wait.map Wait.on) ≠ some .regang) → exec (.regang x) s = .next (hold s u .regang)) ∧
    (others ≠ [] → (∀ e ∈ others, (e.2.wait.map Wait.on) = some .regang ∧ e.2.pc = r.pc) →
      (∀ e ∈ s.queue, e.qid ∉ r.qids ∧ ∀ o ∈ others, e.qid ∉ o.2.qids) →
      ∃ t g' k r', exec (.regang x) s = .next t ∧ t.mem = s.mem ∧ gang? t gk = some g' ∧ g'.v = g.v ∧ g'.g = g.g ∧
        g'.groups = [(k, some r')] ∧ r'.pc = (u.pc + 1) % 2 ^ 32 ∧ r'.wait = none ∧
        (∀ y, y ∈ r'.slices ↔ y ∈ r.slices ∨ ∃ o ∈ others, y ∈ o.2.slices) ∧
        ∀ l ∈ r'.laneLatch ++ r'.gangLatch, l.st ≠ .valid)) ∧
  (∀ x, Runs (.exitG x) { pipe := .gang, strand := x } s u acts →
    let left := g.live.filter fun l => l ∉ groupLanes g r
    (left ≠ [] → ∃ t g', exec (.exitG x) s = .next t ∧ t.mem = s.mem ∧ gang? t gk = some g' ∧ g'.live = left ∧
      group? g' gid = none ∧ g'.v = g.v ∧ g'.g = g.g ∧ (∀ k h, k ≠ gid → group? g k = some h →
        ∃ h', group? g' k = some h' ∧ h'.slices = h.slices ∧ h'.laneLatch = h.laneLatch ∧ h'.gangLatch = h.gangLatch ∧
          ((∀ key tok, h.wait.map Wait.on ≠ some (.bar key tok)) → h' = h)) ∧
      ∀ key, (∀ j ∈ (cohOf s key).joiners, j.1 ≠ gk) → isMember (cohOf t key) gk = false) ∧
    (left = [] → g.dead = false → GangSettled s gk →
      ∃ t, exec (.exitG x) s = .next t ∧ t.mem = s.mem ∧ gang? t gk = none))

/-- NOP goes on; YIELD goes on and lets the unit wait 16 clocks; IDEM makes the next word the idempotent entry
and keeps the lanes' generators; CONT.OPEN opens a level for its handler, of at most four, and CONT.CLOSE
closes one; STEP.MARK counts a step; TRAP raises 0x01 with its number (R66, R120, R133). -/
def Obligations.PlainSystemWords : Prop :=
  ∀ s u acts,
    let goesOn (i : Instr) (P : State → Prop) : Prop :=
      ∃ t, exec i s = .next (parkFailed u t) ∧ pcAt t u = (u.pc + 1) % 2 ^ 32 ∧ t.mem = s.mem ∧ RegistersKept s t u ∧ P t
    (∀ x, Runs (.nop x) { pipe := .gang, strand := x } s u acts → exec (.nop x) s = .next (parkFailed u (advance s u))) ∧
    (∀ x, Runs (.yield x) { pipe := .gang, strand := x } s u acts →
      goesOn (.yield x) fun t => (waitOf t u).map Wait.on = some (.yield (s.clk + 16))) ∧
    (∀ x gk gid g r, LinearGroup s u gk gid g r → Runs (.idem x) { pipe := .gang, strand := x, ends := true } s u acts →
      goesOn (.idem x) fun t => ∃ g', gang? t gk = some g' ∧ g'.idemPc = (u.pc + 1) % 2 ^ 32 ∧ g'.idemSet = true ∧
        g'.idemCount = g.idemCount + 1 ∧ ∀ l ∈ g.live, sget 1 g'.ckpt l = sget 1 g.gen l) ∧
    (∀ a x, Runs (.contOpen a x) { pipe := .gang, strand := x, srcs := [a], ends := true } s u acts →
      (levels s u).length < 4 → goesOn (.contOpen a x) fun t => levels t u = (gsrc s u a).toNat :: levels s u) ∧
    (∀ a x, Runs (.contOpen a x) { pipe := .gang, strand := x, srcs := [a], ends := true } s u acts →
      4 ≤ (levels s u).length →
      exec (.contOpen a x) s = .next (parkFailed u (raiseOn { code := 0x36, d0 := 4, source := 1 } acts u s))) ∧
    (∀ x h l, Runs (.contClose x) { pipe := .gang, strand := x, ends := true } s u acts →
      levels s u = h :: l → goesOn (.contClose x) fun t => levels t u = l) ∧
    (∀ x gk gid g r, LinearGroup s u gk gid g r → g.quiesce = false → Runs (.stepMark x) { pipe := .gang, strand := x } s u acts →
      goesOn (.stepMark x) fun t => ∃ g', gang? t gk = some g' ∧ g'.stepCount = g.stepCount + 1) ∧
    (∀ k x, Runs (.trap k x) { pipe := .gang, strand := x } s u acts →
      exec (.trap k x) s = .next (parkFailed u (raiseOn { code := 0x01, d0 := w32 k.toNat, source := 1 } acts u s)))

/-- RETT ends its handler's instance, once its queue is empty and no region end is due in the gang (log entry
91): the group that it stopped goes on at its gang's idempotent entry, with its lanes' generators as they were
there and its latches lost; a detached handler's end stops nothing; a nested one lets the first handler go on
where it was. RETT in a group raises 0x04 (R78, R314–R316). MOVS reads and writes the interrupted gang's
registers, once nothing in flight is to write them (R70, R135). -/
def Obligations.ReturnFromHandler : Prop :=
  ∀ s u acts,
    (∀ gid, u.kind = .grp gid → Runs .rett { pipe := .gang, priv := true } s u acts →
      exec .rett s = .next (parkFailed u (raiseOn { code := 0x04, d0 := wordOf .rett, source := 1 } acts u s))) ∧
    (∀ id i, u.kind = .inst id → inst? s id = some i → Runs .rett { pipe := .gang, priv := true } s u acts →
      (∀ e ∈ s.queue, e.qid ∉ u.qids) → (∀ gk gid g, i.serves = .group gk gid → gang? s gk = some g → g.ends = []) →
      ∃ t, exec .rett s = .next t ∧ inst? t id = none ∧ t.mem = s.mem ∧
        (i.serves = .detached → t.gangs = s.gangs) ∧
        (∀ j k, i.serves = .nested j → j ≠ id → inst? s j = some k → k.pending = [] →
          ∃ k', inst? t j = some k' ∧ k'.wait = none ∧ k'.pc = k.pc ∧ k'.g = k.g) ∧
        (∀ gk gid g r, i.serves = .group gk gid → gang? s gk = some g → group? g gid = some r →
          ∃ g' r', gang? t gk = some g' ∧ group? g' gid = some r' ∧ r'.pc = g.idemPc ∧ r'.wait = none ∧
            r'.laneLatch = lostLatches r.laneLatch ∧ r'.gangLatch = lostLatches r.gangLatch ∧
            g'.v = g.v ∧ g'.g = g.g ∧ g'.q = g.q ∧
            ∀ l ∈ groupLanes g r, sget 1 g'.gen l = sget 1 g.ckpt l) ∧
        (∀ gk g, i.serves = .frag gk → gang? s gk = some g → (∀ e ∈ sentries g.groups, e.2.wait = none) →
          ∃ g', gang? t gk = some g' ∧ g'.frags = (g.frags.filter fun f => f.inst ≠ id) ∧ g'.v = g.v ∧
            g'.groups = g.groups.map fun e => (e.1, e.2.map Group.lose))) ∧
    (∀ id i gk gid g d k w h, u.kind = .inst id → inst? s id = some i → i.serves = .group gk gid → gang? s gk = some g →
      sget 0 g.scoreboard (4096 + k.toNat) = 0 → 4096 + k.toNat ∉ g.poison →
      Runs (.movsGet d k w h)
        { pipe := .gang, priv := true, dst := some d, w := w, limits := k.toNat < 60 } s u acts →
      exec (.movsGet d k w h) s = .next (advance (gangResult d w (sget 0 g.g k.toNat) u s) u)) ∧
    (∀ id i gk gid g k a h, u.kind = .inst id → inst? s id = some i → i.serves = .group gk gid → gang? s gk = some g →
      sget 0 g.scoreboard (4096 + k.toNat) = 0 →
      Runs (.movsPut k a h) { pipe := .gang, priv := true, srcs := [a], limits := k.toNat < 60 } s u acts →
      ∃ t g', exec (.movsPut k a h) s = .next t ∧ pcAt t u = (u.pc + 1) % 2 ^ 32 ∧ t.mem = s.mem ∧
        gang? t gk = some g' ∧ sget 0 g'.g k.toNat = gsrc s u a ∧
        (∀ r, r ≠ k.toNat → sget 0 g'.g r = sget 0 g.g r) ∧ g'.v = g.v)

/-! ## The automaton -/

/-- AUTO.ENTER of a sealed image puts every live lane into the entry block and takes the first vote. AUTO.STEP
starts the step's next pass, or commits every lane's pending block and votes; AUTO.EXIT leaves for the exit
address, or waits for the fragments. Registers and memory stay (R35–R41, R44, R121). -/
def Obligations.AutomatonSteps : Prop :=
  (∀ (i : BitVec 6) f s u acts gk gid g r im, LinearGroup s u gk gid g r → sentries g.groups = [(gid, r)] →
    imageOf s u.ctx i.toNat = some im → g.live ≠ [] → im.entry < 1022 → Runs (.autoEnter i f) { pipe := .gang } s u acts →
    ∃ t g', exec (.autoEnter i f) s = .next t ∧ t.mem = s.mem ∧ RegistersKept s t u ∧ gang? t gk = some g' ∧
      (∀ l ∈ g.live, sget 1023 g'.blk l = im.entry) ∧
      Voted t gk gid i.toNat (((u.pc : Int) + f.toInt) % 2 ^ 32).toNat im (g.frags ≠ []) [im.entry]) ∧
  (∀ s u acts gk gid g r x im, InRegion s u gk gid g r x im → Runs .autoStep { pipe := .gang, always := true } s u acts →
    (∀ st rest, x.passes = st :: rest → ∃ t g' r' x', exec .autoStep s = .next (parkFailed u t) ∧ t.mem = s.mem ∧
      gang? t gk = some g' ∧ group? g' gid = some r' ∧ g'.blk = g.blk ∧ g'.pblk = g.pblk ∧ g'.v = g.v ∧ g'.g = g.g ∧
      g'.region = some x' ∧ x'.state = st ∧ x'.passes = rest ∧ x'.passNo = x.passNo + 1 ∧
      StartsAt r' (stateCode im st)) ∧
    (∀ v, x.passes = [] → (g.back.map Prod.fst).Nodup → VoteSet g.live (committed g) v →
      ∃ t g', exec .autoStep s = .next (parkFailed u t) ∧ t.mem = s.mem ∧ RegistersKept s t u ∧ gang? t gk = some g' ∧
        (v ≠ [] → ∀ l ∈ g.live, sget 1023 g'.blk l = committed g l) ∧
        Voted t gk gid x.img x.exitPc im (g.frags ≠ []) v)) ∧
  (∀ s u acts gk gid g r x im, InRegion s u gk gid g r x im → Runs .autoExit { pipe := .gang, always := true } s u acts →
    ∃ t g' r', exec .autoExit s = .next (parkFailed u t) ∧ t.mem = s.mem ∧ RegistersKept s t u ∧ gang? t gk = some g' ∧
      group? g' gid = some r' ∧ (g.frags = [] → g'.region = none ∧ StartsAt r' x.exitPc) ∧
      (g.frags ≠ [] → (r'.wait.map Wait.on) = some (.fragments true)))

/-- BNEXT makes a lane's value its pending block, where that is a user block of the image or DONE; SETBLK in a
fragment's handler makes a block the rejoin block of the fragment's lanes. Outside state code, and outside such
a handler, they raise 0x2F (R32, R44, R121). -/
def Obligations.BlocksChosen : Prop :=
  ∀ (o : OA) s u acts,
    (∀ gk gid g r x im, InRegion s u gk gid g r x im → Runs (.bnext o) { pipe := .lane, strand := o.s, srcs := [o.a] } s u acts →
      acts.Nodup → (∀ l ∈ acts, (vsrc s u o.a l).toNat < im.nb ∨ vsrc s u o.a l = 1023) →
      ∃ t g', exec (.bnext o) s = .next (parkFailed u t) ∧ pcAt t u = (u.pc + 1) % 2 ^ 32 ∧ t.mem = s.mem ∧ RegistersKept s t u ∧
        gang? t gk = some g' ∧ g'.blk = g.blk ∧
        (∀ l ∈ acts, sget 0 g'.pblk l = (vsrc s u o.a l).toNat + 1) ∧
        ∀ l, l ∉ acts → sget 0 g'.pblk l = sget 0 g.pblk l) ∧
    (u.region = none → Runs (.bnext o) { pipe := .lane, strand := o.s, srcs := [o.a] } s u acts →
      exec (.bnext o) s = .next (raise { code := 0x2F, d0 := wordOf (.bnext o) } acts u s)) ∧
    (∀ id j gk g x im, u.kind = .inst id → inst? s id = some j → j.serves = .frag gk → gang? s gk = some g →
      g.region = some x → imageOf s u.ctx x.img = some im → Runs (.setblk o) { pipe := .lane, strand := o.s, srcs := [o.a] } s u acts →
      let b := vsrc s u o.a (acts.headD 0)
      b.toNat < im.nb ∨ b = 1023 →
      ∃ t g', exec (.setblk o) s = .next t ∧ pcAt t u = (u.pc + 1) % 2 ^ 32 ∧ t.mem = s.mem ∧ gang? t gk = some g' ∧
        g'.frags = g.frags.map fun f => if f.inst = id then ⟨f.inst, f.rejoin.map fun e => (e.1, b.toNat)⟩ else f) ∧
    (∀ gid, u.kind = .grp gid → Runs (.setblk o) { pipe := .lane, strand := o.s, srcs := [o.a] } s u acts →
      exec (.setblk o) s = .next (parkFailed u (raiseOn { code := 0x2F, d0 := wordOf (.setblk o) } acts u s)))

/-! ## Barriers, cohorts, timelines -/

/-- BAR.INIT starts a barrier at phase 0 with the arrivals it expects, for its core or, under one name, for the
cores of the cluster; BAR.ARRIVE gives the phase and counts an arrival, and the last one starts the next phase, past
which the phase's waiters go on; BAR.WAIT passes a phase that is over, and waits for one that is not or raises 0x26 at a
poisoned barrier; BAR.ARM adds bytes that the phase waits
for; BAR.TEST gives a state word (R122–R127). -/
def Obligations.BarriersCount : Prop :=
  ∀ s u acts n, n < 256 →
    let k := servingBar s u n
    let b := barOf s k
    (∀ o (cluster : Bool) count, Runs (.barInit o) (barNeed o) s u acts →
      (gsrc s u o.a).toNat = n + (if cluster then 256 else 0) → (gsrc s u o.b).toNat = count → 1 ≤ count → count < 65536 →
      (b.init = false ∨ b.poison = true ∨ b.arrived = 0 ∧ b.bytes = 0 ∧ anyWaits s u.ctx k = false) →
      (cluster = true → ∀ c ∈ clusterCores s u, (barOf s (barHome s u.ctx c n)).init = true →
        (barOf s (barHome s u.ctx c n)).cluster = true) →
      ∃ t, exec (.barInit o) s = .next (parkFailed u t) ∧ pcAt t u = (u.pc + 1) % 2 ^ 32 ∧ t.mem = s.mem ∧ RegistersKept s t u ∧
        barOf t (barKey u.ctx u.core n) = { init := true, cluster := cluster, expect := count, now := count, coming := (barOf s (barKey u.ctx u.core n)).coming } ∧
        (cluster = true → ∀ c ∈ clusterCores s u, c ≠ u.core → barHome t u.ctx c n = barKey u.ctx u.core n)) ∧
    (∀ o, Runs (.barArrive o) (arriveNeed o) s u acts → (gsrc s u o.a).toNat = n → b.init = true →
      b.arrived + b.coming ≠ b.now → Settled s u → s.defers.headD false = false →
      ∃ t, exec (.barArrive o) s = .next (parkFailed u t) ∧ pcAt t u = (u.pc + 1) % 2 ^ 32 ∧ t.mem = s.mem ∧
        greg t u o.d.toNat = w32 b.phase ∧
        (¬(b.poison = false ∧ b.bytes = 0 ∧ b.arrived + 1 = b.now) →
          (barOf t k).phase = b.phase ∧ (barOf t k).arrived = b.arrived + 1 ∧ (barOf t k).now = b.now) ∧
        (b.poison = false → b.bytes = 0 → b.arrived + 1 = b.now →
          (barOf t k).phase = (b.phase + 1) % 65536 ∧ (barOf t k).arrived = 0 ∧
          (b.coh = none → (barOf t k).now = b.expect) ∧
          ∀ gk gid h r since, swf none s.gangs = true → swf none h.groups = true → gang? s gk = some h →
            h.ctx = k / 256 / 1024 → group? h gid = some r → r.wait = some ⟨.bar k b.phase, since⟩ →
            UnitRef.grp gk gid ≠ u.ref → b.phase < 65536 →
            ∃ h' r', gang? t gk = some h' ∧ group? h' gid = some r' ∧ r'.wait = none ∧ r'.pc = (r.pc + 1) % 2 ^ 32)) ∧
    (∀ o, Runs (.barArrive o) (arriveNeed o) s u acts → (gsrc s u o.a).toNat = n → b.init = true →
      b.arrived + b.coming = b.now →
      exec (.barArrive o) s = .next (parkFailed u (raiseOn { code := 0x1C, d0 := w32 n, source := 1 } acts u s))) ∧
    (∀ o, Runs (.barWait o) (barWaitNeed o) s u acts → (gsrc s u o.a).toNat = n → b.init = true →
      let tok := (gsrc s u o.b).toNat % 65536
      (phaseOver b.phase tok → exec (.barWait o) s = .next (parkFailed u (advance s u))) ∧
      (¬ phaseOver b.phase tok → b.poison = false → exec (.barWait o) s = .next (parkFailed u (hold s u (.bar k tok)))) ∧
      (¬ phaseOver b.phase tok → b.poison = true →
        exec (.barWait o) s = .next (parkFailed u (raiseOn { code := 0x26, d0 := w32 n, source := 1 } acts u s)))) ∧
    (∀ o, Runs (.barArm o) (barNeed o) s u acts → (gsrc s u o.a).toNat = n → b.init = true →
      b.bytes + (gsrc s u o.b).toNat < 2 ^ 32 →
      ∃ t, exec (.barArm o) s = .next (parkFailed u t) ∧ pcAt t u = (u.pc + 1) % 2 ^ 32 ∧ t.mem = s.mem ∧ RegistersKept s t u ∧
        barOf t k = { b with bytes := b.bytes + (gsrc s u o.b).toNat }) ∧
    (∀ o j, Runs (.barTest o) (barTestNeed o) s u acts → (gsrc s u o.a).toNat = n → (gsrc s u o.b).toNat = j → j ≤ 2 →
      exec (.barTest o) s = .next (parkFailed u (advance (gangResult o.d false
        (if b.init = false then 0
        else if j = 0 then w32 (2 ^ 31 + (if b.cluster then 2 ^ 30 else 0) + (if b.poison then 2 ^ 29 else 0) +
          (match b.coh with
            | some c => 2 ^ 28 + c % 32 * 2 ^ 16
            | none => b.expect))
        else if j = 1 then w32 (b.phase * 2 ^ 16 + b.arrived) else w32 b.bytes) u s) u)))

/-- COH.JOIN waits until as many gangs have joined as it expects, and then gives the gang's rank: the number of
joiners with lower thread IDs (of two with one lowest thread ID the one launched first comes first: log entry 97). COH.LEAVE ends a membership, COH.INFO gives the numbers of members and of those
still present, the rank, and the ranks that have left (R26–R28, R128). TL.WAIT waits until a timeline has
reached a value, and TL.READ gives its value (R131). -/
def Obligations.CohortsAndTimelines : Prop :=
  ∀ s u acts gk gid, u.kind = .grp gid → u.gk = some gk →
    (∀ o id e, Runs (.cohJoin o) (cohJoinNeed o) s u acts → id < 32 → (gsrc s u o.a).toNat = id →
      (gsrc s u o.b).toNat = e → 1 ≤ e → e ≤ cohortLimit id →
      let k := cohKey s u id
      let c := cohOf s k
      c.phase ≠ .formed → (c.phase = .forming → c.expect = e) → (∀ j ∈ c.joiners, j.1 ≠ gk) →
      (gk, gid) ∉ c.left → (∀ y ∈ c.ready, ¬(y.1 = gk ∧ y.2.1 = gid)) →
      (c.joiners.length + 1 < e → ∃ t, exec (.cohJoin o) s = .next (parkFailed u t) ∧ pcAt t u = u.pc ∧ t.mem = s.mem ∧
        (waitOf t u).map Wait.on = some (.cohort k) ∧
        cohOf t k = { c with phase := .forming, expect := e, joiners := c.joiners ++ [(gk, gid)] }) ∧
      (c.joiners.length + 1 = e →
        let rank (j : Nat) : Nat := ((c.joiners ++ [(gk, gid)]).filter fun i => lowestThread s i.1 < lowestThread s j ∨
          (lowestThread s i.1 = lowestThread s j ∧ i.1 < j)).length
        ∃ t, exec (.cohJoin o) s = .next (parkFailed u t) ∧ pcAt t u = (u.pc + 1) % 2 ^ 32 ∧ t.mem = s.mem ∧
          greg t u o.d.toNat = w32 (rank gk) ∧ (cohOf t k).phase = .formed ∧ (cohOf t k).joiners = [] ∧
          (cohOf t k).members = (c.joiners ++ [(gk, gid)]).map fun j => (j.1, rank j.1, true))) ∧
    (∀ o id, Runs (.cohLeave o) (cohLeaveNeed o) s u acts → id < 32 → (gsrc s u o.a).toNat = id →
      let k := cohKey s u id
      let c := cohOf s k
      isMember c gk = true → (∀ j ∈ c.joiners, j.1 ≠ gk) →
      ∃ t, exec (.cohLeave o) s = .next (parkFailed u t) ∧ pcAt t u = (u.pc + 1) % 2 ^ 32 ∧ t.mem = s.mem ∧ RegistersKept s t u ∧
        isMember (cohOf t k) gk = false ∧ ∀ m, m ≠ gk → isMember (cohOf t k) m = isMember c m) ∧
    (∀ o id m, Runs (.cohInfo o) (cohInfoNeed o) s u acts → id < 32 → (gsrc s u o.a).toNat = id →
      let c := cohOf s (cohKey s u id)
      let n := if id < 16 then 1 else 8
      o.d.toNat + 1 + n ≤ 59 → (c.members.find? fun m => m.1 = gk && m.2.2) = some m →
      (∀ i ≤ n, awaited s u true acts (o.d.toNat + 1 + i) = none) →
      ∃ t, exec (.cohInfo o) s = .next (parkFailed u t) ∧ pcAt t u = (u.pc + 1) % 2 ^ 32 ∧ t.mem = s.mem ∧
        greg t u o.d.toNat = w32 (c.members.length + (c.members.filter fun x => x.2.2).length * 65536) ∧
        greg t u (o.d.toNat + 1) = w32 m.2.1 ∧
        ∀ i < n, greg t u (o.d.toNat + 2 + i) = holes c i) ∧
    (∀ o j, Runs (.tlWait o) (tlWaitNeed o) s u acts → j < 16 → (gsrc s u o.a).toNat = j →
      let now := sget 0 (ctxD s u.ctx).tl j
      let least := gpair s u o.b.toNat
      (least.toNat ≤ now.toNat → exec (.tlWait o) s = .next (parkFailed u (advance s u))) ∧
      (now.toNat < least.toNat → exec (.tlWait o) s = .next (parkFailed u (hold s u (.tl j least))))) ∧
    (∀ o j, Runs (.tlRead o) (tlReadNeed o) s u acts → j < 16 → (gsrc s u o.a).toNat = j →
      let now := sget 0 (ctxD s u.ctx).tl j
      ∃ t, exec (.tlRead o) s = .next (parkFailed u t) ∧ pcAt t u = (u.pc + 1) % 2 ^ 32 ∧ t.mem = s.mem ∧
        (o.w = false → greg t u o.d.toNat = w32 (now.toNat % 2 ^ 32)) ∧
        greg t u (o.d.toNat + 1) = w32 (now.toNat / 2 ^ 32))

/-! ## Special registers, launches, copy programs -/

/-- SYSRD gives a register's value, and raises 0x04 for one that only privileged code may read; SYSWR raises 0x04
where the writer may not write, and else a register keeps the value (R53, R134, R194). -/
def Obligations.SpecialRegisters : Prop :=
  (∀ d n x w h s u acts v, Runs (.sysrd d n x w h) (sysrdNeed d n x w) s u acts → RegisterValue s u n.toNat v →
    (n.toNat ∈ privilegedRead → u.priv = true) →
    exec (.sysrd d n x w h) s = .next (parkFailed u (advance (gangResult d w v u s) u))) ∧
  (∀ d n x w h s u acts, Runs (.sysrd d n x w h) (sysrdNeed d n x w) s u acts → n.toNat ∈ privilegedRead → u.priv = false →
    exec (.sysrd d n x w h) s = .next (parkFailed u (raiseOn { code := 0x04, d0 := wordOf (.sysrd d n x w h), source := 1 } acts u s))) ∧
  (∀ d n x h s u acts, Runs (.syswr d n x h) (syswrNeed d n x) s u acts →
    (n.toNat ∈ neverWritten ∨ n.toNat ∈ privilegedWrite ∧ u.priv = false ∨ n.toNat ∈ managementWrite ∧ u.ctx ≠ 1) →
    exec (.syswr d n x h) s = .next (parkFailed u (raiseOn { code := 0x04, d0 := wordOf (.syswr d n x h), source := 1 } acts u s))) ∧
  (∀ d n x h s u acts P, Runs (.syswr d n x h) (syswrNeed d n x) s u acts → ctx? s u.ctx ≠ none →
    (n.toNat ∈ privilegedWrite → u.priv = true) → KeepsValue u n.toNat P → P (gsrc s u d) →
    ∃ t, exec (.syswr d n x h) s = .next (parkFailed u t) ∧ pcAt t u = (u.pc + 1) % 2 ^ 32 ∧ t.mem = s.mem ∧
      sysRead t u n.toNat = gsrc s u d ∧ (∀ l r, vreg t u l r = vreg s u l r) ∧ ∀ r, greg t u r = greg s u r) ∧
  (∀ n, n < 4096 → (sysWriter n = none ↔
    n ∉ neverWritten ∧ n ∉ privilegedWrite ∧ n ∉ managementWrite ∧ n ∉ freelyWritten))

/-- NODE.POST of a record that passes every check puts the node into the pool under the context's next node
number, with status 0 and that number in gD and gD + 1; one that fails gives its status. XP.START takes a start
slot of the named copy processor for the program at its address; XP.STATUS gives the processor's status words
(R130, R244, R250, R290, R292). -/
def Obligations.LaunchesAndStarts : Prop :=
  (∀ o s u acts ws, Runs (.nodePost o) (nodePostNeed o) s u acts → Settled s u →
    (gpair s u o.a.toNat).toNat % 64 = 0 → gangReader s (agentOf u) 48 (gpair s u o.a.toNat) = .ok ws →
    (∀ n, checkRecord s (gangReader s (agentOf u)) u.ctx (dieNo u.core) [] ws = .ok n →
      ∃ t n', exec (.nodePost o) s = .next (parkFailed u t) ∧ pcAt t u = (u.pc + 1) % 2 ^ 32 ∧ t.mem = s.mem ∧
        (o.w = false → greg t u o.d.toNat = 0) ∧ greg t u (o.d.toNat + 1) = (ctxD s u.ctx).nextNode ∧
        sget none t.pool s.next = some n' ∧ n'.rcd = ws ∧ n'.ctx = u.ctx ∧ n'.id = (ctxD s u.ctx).nextNode ∧
        (n'.phase = .waiting ∨ n'.phase = .ready) ∧ ∀ k, k ≠ s.next → (sget none t.pool k).isSome = (sget none s.pool k).isSome) ∧
    (∀ k, checkRecord s (gangReader s (agentOf u)) u.ctx (dieNo u.core) [] ws = .error (.status k) →
      ∃ t, exec (.nodePost o) s = .next (parkFailed u t) ∧ pcAt t u = (u.pc + 1) % 2 ^ 32 ∧ t.mem = s.mem ∧ t.pool = s.pool ∧
        (o.w = false → greg t u o.d.toNat = w32 k))) ∧
  (∀ o s u acts p, Runs (.xpStart o) (xpStartNeed o) s u acts → p < 2 → (gpair s u o.a.toNat).toNat % 8 = 0 →
    (gsrc s u o.b).toNat = p * 256 → (xpOf s u.core p).state ≠ .fault → (xpOf s u.core p).starts.length < 4 →
    (∀ e ∈ s.queue, e.qid ∉ u.qids) →
    ∃ t st, exec (.xpStart o) s = .next (parkFailed u t) ∧ pcAt t u = (u.pc + 1) % 2 ^ 32 ∧ t.mem = s.mem ∧ RegistersKept s t u ∧
      st ∈ (xpOf t u.core p).starts ∧ st.joined = [(u.gk.getD 0, gpair s u o.a.toNat)] ∧ st.coh = none ∧
      st.complete = true ∧ st.ctx = u.ctx) ∧
  (∀ o s u acts p, Runs (.xpStatus o) (xpStatusNeed o) s u acts → p < 2 → (gsrc s u o.a).toNat = p * 256 →
    let x := xpOf s u.core p
    let no := match x.state with
      | .idle => 0
      | .run => 1
      | .wait => 2
      | .fault => 3
    ∃ t, exec (.xpStatus o) s = .next (parkFailed u t) ∧ pcAt t u = (u.pc + 1) % 2 ^ 32 ∧ t.mem = s.mem ∧ t.cores = s.cores ∧
      (o.w = false → x.starts.length < 8 → x.ctx ≠ u.ctx → greg t u o.d.toNat = w32 (no * 2 ^ 30 + x.starts.length * 2 ^ 27)) ∧
      (x.ctx ≠ u.ctx → ∀ k, 1 ≤ k → k ≤ 3 → greg t u (o.d.toNat + k) = 0) ∧
      (x.ctx = u.ctx → greg t u (o.d.toNat + 2) = w32 (x.faddr.toNat % 2 ^ 32) ∧
        greg t u (o.d.toNat + 3) = w32 (x.faddr.toNat / 2 ^ 32)) ∧
      (x.ctx = u.ctx → x.state = .fault → (greg t u (o.d.toNat + 1)).toNat % 65536 = x.fpc % 65536 ∧
        (o.w = false → x.cause < 64 → x.starts.length = 0 → x.loops.length = 0 → x.fbar = none →
          (greg t u o.d.toNat) = w32 (3 * 2 ^ 30 + x.cause * 65536))))

/-! ## Copy programs -/

/-- Every arithmetic copy word leaves its value in aD and goes on with the next word; NOP only goes on; LDX loads
the word at its pair plus four times its offset (R253, R254). -/
def Obligations.CopyScalars : Prop :=
  ∀ s core p x, Copies s core p x →
    (∀ i d f, CopyAlu i d f →
      ∃ t, exec i s = .next t ∧ CopyGoes s t core p { x with a := sset 0 x.a d.toNat (f x) } (copyPc (x.pc + 1))) ∧
    (∃ t, exec .xpNop s = .next t ∧ CopyGoes s t core p x (copyPc (x.pc + 1))) ∧
    (∀ d l (o : BitVec 16) q,
      resolve s (copyAgent core p x) .plain 0 (aPair x l + BitVec.ofInt 64 (4 * o.toInt)) 4 1 = .ok q →
      ∃ t, exec (.xpLdx d l o) s = .next t ∧ CopyGoes s t core p
        { x with a := sset 0 x.a d.toNat (w32 (leNat (spotBytes s core x.ctx none q 4))) } (copyPc (x.pc + 1)))

/-- BR, and BZ and BNZ on their register, go to their own address plus the offset, and fault with 0x28 when that
leaves the innermost loop's body; LOOP opens a body for a count, or passes it for 0, and faults with 0x28 past
four levels; ENDL goes back to the body's first word until the count is used up (R255, R256). CUR.SET binds a cursor to a valid descriptor, at position 0 with the whole extents as its window, and faults
with 0x18 on another; CUR.STEP moves a coordinate; CUR.AT sets one, or a window's extent, for which 0 faults
with 0x28 (R257). -/
def Obligations.CopyFlowAndCursors : Prop :=
  (∀ s core p x, Copies s core p x →
    let goes (i : Instr) (y : Xp) (pc : Nat) : Prop := ∃ t, exec i s = .next t ∧ CopyGoes s t core p y pc
    let faults (i : Instr) (code : Nat) : Prop := ∃ t, exec i s = .next t ∧ CopyFaults t core p x code
    (∀ i (f : BitVec 16), (i = .xpBr f ∨ (∃ a, i = .xpBz a f ∧ aReg x a.toNat = 0) ∨ (∃ a, i = .xpBnz a f ∧ aReg x a.toNat ≠ 0)) →
      let aim := copyPc (x.pc + f.toInt)
      (x.loops = [] → goes i x aim) ∧
      (∀ n first last l, x.loops = (n, first, last) :: l →
        (first ≤ aim ∧ aim ≤ last → goes i x aim) ∧ (¬(first ≤ aim ∧ aim ≤ last) → faults i 0x28))) ∧
    (∀ a f, aReg x a.toNat ≠ 0 → goes (.xpBz a f) x (copyPc (x.pc + 1))) ∧
    (∀ a f, aReg x a.toNat = 0 → goes (.xpBnz a f) x (copyPc (x.pc + 1))) ∧
    (∀ i n (f : BitVec 10), ((∃ a, i = .xpLoopReg a f ∧ (aReg x a.toNat).toNat = n) ∨
        ∃ a, ∃ m : BitVec 11, i = .xpLoopImm a m f ∧ m.toNat = n) →
      (n = 0 → goes i x (copyPc (x.pc + f.toNat + 1))) ∧
      (n ≠ 0 → x.loops.length < 4 → goes i
        { x with loops := (n, copyPc (x.pc + 1), copyPc (x.pc + f.toNat)) :: x.loops } (copyPc (x.pc + 1))) ∧
      (n ≠ 0 → 4 ≤ x.loops.length → faults i 0x28)) ∧
    (∀ n first last l, x.loops = (n, first, last) :: l → x.pc = last →
      (1 < n → goes .xpEndl { x with loops := (n - 1, first, last) :: l } first) ∧
      (n ≤ 1 → goes .xpEndl { x with loops := l } (copyPc (x.pc + 1)))) ∧
    (x.loops = [] → faults .xpEndl 0x28)) ∧
  (∀ s core p x, Copies s core p x →
    let goes (i : Instr) (k : BitVec 2) (c : Cursor) : Prop :=
      ∃ t, exec i s = .next t ∧ CopyGoes s t core p { x with cur := x.cur.set k.toNat c } (copyPc (x.pc + 1))
    (∀ k (n : BitVec 7), let d := descOf s x.ctx core n.toNat;
      (dValid d = true → goes (.xpCurSet k n) k { bound := true, desc := n.toNat, pos := [0, 0, 0, 0, 0]
                                                  win := (List.range 5).map fun i => w32 (dExt d i) }) ∧
      (dValid d = false → ∃ t, exec (.xpCurSet k n) s = .next t ∧ CopyFaults t core p x 0x18)) ∧
    (∀ k (d : BitVec 3) a, let c := cursorAt x k;
      let sum := int32 ((c.pos.getD d.toNat 0).toInt + (aReg x a.toNat).toInt);
      goes (.xpCurStepReg k d a) k { c with pos := c.pos.set d.toNat sum }) ∧
    (∀ k (d : BitVec 3) (m : BitVec 16), let c := cursorAt x k;
      goes (.xpCurStepImm k d m) k { c with pos := c.pos.set d.toNat (int32 ((c.pos.getD d.toNat 0).toInt + m.toInt)) }) ∧
    (∀ k (d : BitVec 3) a, let c := cursorAt x k;
      goes (.xpCurAt k d false a) k { c with pos := c.pos.set d.toNat (aReg x a.toNat) }) ∧
    (∀ k (d : BitVec 3) a, let c := cursorAt x k;
      (aReg x a.toNat ≠ 0 → goes (.xpCurAt k d true a) k { c with win := c.win.set d.toNat (aReg x a.toNat) }) ∧
      (aReg x a.toNat = 0 → ∃ t, exec (.xpCurAt k d true a) s = .next t ∧ CopyFaults t core p x 0x28)))

/-- A data command whose operands pass its checks joins the commands in flight with the words that it will land:
MOVE the bytes of its box, MOVE.G those of the slices that its indices pick, MOVE.A the addends and MOVE.PK the
codes of the tile at the drain port's head, VPUB those of a box in lines that it stages under its number. FOLLOW
takes a follow slot for the command just before it (R247, R258–R262). -/
def Obligations.CopyCommands : Prop :=
  ∀ s core p x, Copies s core p x → x.cmds.length < 8 →
    let desc (c : Cursor) : Desc := descOf s x.ctx core c.desc
    (∀ d k nb st b ps, let cs := cursorAt x k; let cd := cursorAt x d; let ss := desc cs; let dd := desc cd;
      cs.bound = true → cd.bound = true → boxPlan st ss dd cs cd = .ok ps →
      (∃ t c, exec (.xpMove d k nb st b) s = .next t ∧ CommandStarts s t core p x c ∧ c.kind = .move ∧
        c.words = xwords (dSpace dd) ps) ∧
      (dBlk ss = 0 → ∀ addr y, (addr, y) ∈ ps ↔ boxByte ss dd cs cd addr y)) ∧
    (∀ ss dd cs cd, dValid ss = true → dValid dd = true → alike ss dd = true → dBlk ss = 0 →
      ∃ ps, boxPlan false ss dd cs cd = .ok ps) ∧
    (∀ k d t' l st b idx ps, let ts := descOf s x.ctx core t'.toNat; let td := descOf s x.ctx core d.toNat;
      engineReads s (copyAgent core p x) (k.toNat + 1) (aPair x l) = (idx, none) → gatherPlan st ts td idx = .ok ps →
      ∃ t c, exec (.xpMoveG k d t' l st b) s = .next t ∧ CommandStarts s t core p x c ∧ c.kind = .moveG ∧
        c.words = xwords (dSpace td) ps ∧ (xpOf t core p).oor = min 0xFFFF (x.oor + gatherOor ts td idx)) ∧
    (∀ d nb st b tile, let cd := cursorAt x d; let dd := desc cd;
      cd.bound = true → x.port.head? = some tile → (∀ c ∈ x.cmds, takesTile c.kind = false) → dValid dd = true →
      (st = true → tileOut dd cd tile = false) →
      (dFmt dd = 2 → tile.fmt = 2 →
        ∃ t c, exec (.xpMoveA d nb st b) s = .next t ∧ CommandStarts s t core p x c ∧ c.kind = .moveA ∧
          c.words = addWords dd cd tile ∧ (xpOf t core p).port = x.port) ∧
      (dFmt dd = tile.fmt → dScale dd = tile.scale → dBlk dd = (if tile.scale = 0 then 0 else 1) →
        (dBlk dd = 1 → (cd.pos.getD 0 0).toNat % 32 = 0) →
        ∃ t c, exec (.xpMovePk d nb st b) s = .next t ∧ CommandStarts s t core p x c ∧ c.kind = .movePk ∧
          c.words = xwords (dSpace dd) (tileBytes dd cd tile))) ∧
    (∀ d k nb st b v ps lines, let cs := cursorAt x k; let cd := cursorAt x d; let m := (aReg x v.toNat).toNat;
      cs.bound = true → cd.bound = true → boxPlan st (desc cs) (desc cd) cs cd = .ok ps →
      vpubLines s x.ctx (dSpace (desc cd)) ps = .ok lines → m ≠ 0 → m ≠ 0xFFFFFFFF →
      checkLines s x.ctx m { code := 0x05 } lines 0 = .ok →
      ∃ t c, exec (.xpVpub d k nb st b v) s = .next t ∧ CommandStarts s t core p x c ∧ c.kind = .vpub ∧
        c.words = xwords (dSpace (desc cd)) ps ∧ c.version = m ∧ c.lines = lines ∧
        ∀ l ∈ lines, (lineOf t x.ctx (l * 64)).staged.map Prod.fst = some m) ∧
    (∀ t' a r z cmd, x.lastCmd = some cmd → x.follows.length < 4 →
      ∃ t, exec (.xpFollow t' a r z) s = .next t ∧ (xpOf t core p).pc = copyPc (x.pc + 1) ∧ t.mem = s.mem ∧
        (xpOf t core p).follows = x.follows ++ [⟨cmd, t'.toNat, a.toNat, r.toNat, z, x.pc⟩])

/-- PSEL, with its list in the core's scratchpad, stores the rows with the highest exact scores in rank order and
all ones past the last row (R263). ARRIVE counts an arrival at its barrier, WAITB passes a phase that is over
and waits for another in WAIT, TLSIG raises a timeline and never lowers it, HALT ends the run (R264, R265). -/
def Obligations.CopySelectsAndSynchronises : Prop :=
  ∀ s core p x, Copies s core p x → x.cmds = [] →
    (∀ t' q l (k : BitVec 8) off scores qs, let ts := descOf s x.ctx core t'.toNat; let tq := descOf s x.ctx core q.toNat;
      pselOk ts tq = true → aPair x l = spAddr off → off % 4 = 0 → off + 4 * (k.toNat + 1) ≤ 0x180000 →
      readElems s (copyAgent core p x) tq ((List.range (dExt tq 0)).map fun (d : Nat) => [(d : Int), 0, 0, 0, 0]) = (qs, none) →
      rowScores s (copyAgent core p x) ts qs (List.range (dExt ts 1)) = (scores, none) →
      (∀ i ≤ k.toNat, resolve s (copyAgent core p x) .plain 0 (spAddr (off + 4 * i)) 4 2 = .ok (.sp core (off + 4 * i))) →
      ∃ t rows, exec (.xpPsel t' q l k) s = .next t ∧ (xpOf t core p).pc = copyPc (x.pc + 1) ∧ Ranked scores rows ∧
        (∀ i ≤ k.toNat, w32 (leNat (readBytes t (spLoc core (off + 4 * i)) 4)) = ((rows.map w32).getD i 0xFFFFFFFF)) ∧
        ∀ loc, (loc < spLoc core off ∨ spLoc core off + 4 * (k.toNat + 1) ≤ loc) → readByte t loc = readByte s loc) ∧
    (∀ n : BitVec 8, let k := barHome s x.ctx core n.toNat; let b := barOf s k;
      x.follows = [] → b.init = true → b.arrived + b.coming ≠ b.now → (∀ tok, x.wait.map Wait.on ≠ some (.bar k tok)) →
      ∃ t, exec (.xpArrive n) s = .next t ∧ (xpOf t core p).pc = copyPc (x.pc + 1) ∧ t.mem = s.mem ∧ k ∈ (xpOf t core p).barset ∧
        (barOf t k).phase = (if b.poison = false ∧ b.bytes = 0 ∧ b.arrived + 1 = b.now then (b.phase + 1) % 65536 else b.phase) ∧
        (barOf t k).arrived = if b.poison = false ∧ b.bytes = 0 ∧ b.arrived + 1 = b.now then 0 else b.arrived + 1) ∧
    (∀ a (n : BitVec 8), let k := barHome s x.ctx core n.toNat; let b := barOf s k;
      let tok := (aReg x a.toNat).toNat % 65536;
      b.init = true → x.wait.map Wait.on ≠ some .poisoned → b.poison = false →
      (phaseOver b.phase tok → ∃ t, exec (.xpWaitb a n) s = .next t ∧ CopyGoes s t core p x (copyPc (x.pc + 1))) ∧
      (¬ phaseOver b.phase tok → ∃ t, exec (.xpWaitb a n) s = .next t ∧ (xpOf t core p).pc = x.pc ∧
        (xpOf t core p).state = .wait ∧ ((xpOf t core p).wait.map Wait.on) = some (.bar k tok))) ∧
    (∀ (k : BitVec 4) l, s.homeq = [] → s.pubs = [] → ctx? s x.ctx ≠ none →
      ∃ t, exec (.xpTlsig k l) s = .next t ∧ (xpOf t core p).pc = copyPc (x.pc + 1) ∧ t.mem = s.mem ∧
        (sget 0 (ctxD t x.ctx).tl k.toNat).toNat = max (sget 0 (ctxD s x.ctx).tl k.toNat).toNat (aPair x l).toNat ∧
        ∀ j, j ≠ k.toNat → sget 0 (ctxD t x.ctx).tl j = sget 0 (ctxD s x.ctx).tl j) ∧
    (x.follows = [] → ∃ t, exec .xpHalt s = .next t ∧ t.mem = s.mem ∧ xpOf t core p =
      { x with state := .idle, barset := [], loops := [], wait := none, lastCmd := none })

/-! ## Steps that the module takes -/

/-- A queue entry whose turn has come is performed: a load lane is done with the bytes at its place, and once the last
lane is done every lane's register takes its value; in linear code a lane that fails leaves all of them as they
were. A store goes into the store buffer, a version store into the version lists, a FENCE leaves once all that it
waits for is complete, and an arrival is counted then (R198, R220, R221, R228, R233, R309). -/
def Obligations.QueueEntriesPerform : Prop :=
  ∀ s id e, s.queue.find? (fun e => e.id = id) = some e → (s.queue.map QEntry.id).Nodup →
    let a : Agent := { entryAgent s e with ref := none }
    (∀ xs x n sg p gk g d, e.op = .accesses xs → (∀ y ∈ xs, ∃ m b, y.op = .load m b) →
      xs.filter (fun y => y.lane = x.lane) = [x] → x.op = .load n sg → n = 1 ∨ n = 2 ∨ n = 4 →
      s.gutter = [] → blocked s (entryAgent s e) (.accesses [x]) = false → bufGone s (entryAgent s e) x = false →
      resolve s a .plain x.lane x.addr n 1 = .ok p →
      e.gk = some gk → LiveGang s gk g → e.dst = some d → d < 64 → e.gangDst = false → e.fails = [] →
      let got := e.got ++ [(x.lane, loaded (sg && n = 2) (spotBytes s e.core e.ctx e.gk p n ((entryAgent s e).qids, e.seq)))]
      (got.map Prod.fst).Nodup →
      (xs ≠ [x] → Answers (.issueQueuePerform id x.lane) s fun t => t.mem = s.mem ∧ t.sb = s.sb ∧ t.gangs = s.gangs ∧
        ∃ q ∈ t.queue, q.id = id ∧ q.got = got ∧ q.op = .accesses (xs.filter fun y => y.lane ≠ x.lane)) ∧
      (xs = [x] → (∀ h ∈ s.homeq, h.entry ≠ some id) →
        Answers (.issueQueuePerform id x.lane) s fun t => t.mem = s.mem ∧ t.sb = s.sb ∧
          t.queue = s.queue.filter (fun q => q.id ≠ id) ∧
          ∃ g', gang? t gk = some g' ∧ ∀ l v, (l, v) ∈ got → sget 0 g.scoreboard (l * 64 + d) = id + 1 →
            sget 0 g'.scoreboard (l * 64 + d) = 0 ∧ sget 0 g'.v (l * 64 + d) = v)) ∧
    (∀ x n sg c gk g, e.op = .accesses [x] → x.op = .load n sg → n = 1 ∨ n = 2 ∨ n = 4 →
      blocked s (entryAgent s e) (.accesses [x]) = false → bufGone s (entryAgent s e) x = false →
      resolve s a .plain x.lane x.addr n 1 = .bad c → e.gk = some gk → LiveGang s gk g → e.gangDst = false → e.scode = false →
      (∀ h ∈ s.homeq, h.entry ≠ some id) →
      Answers (.issueQueuePerform id x.lane) s fun t => t.mem = s.mem ∧ (∀ q ∈ t.queue, q.id ≠ id) ∧
        ∀ g', gang? t gk = some g' → g'.v = g.v) ∧
    (∀ x n w pa, e.op = .accesses [x] → x.op = .store n w → n = 1 ∨ n = 2 ∨ n = 4 → (∀ i < n, i ∈ x.mask) →
      s.gutter = [] → blocked s (entryAgent s e) e.op = false → bufGone s (entryAgent s e) x = false →
      resolve s a .plain x.lane x.addr n 2 = .ok (.view pa) → e.fails = [] → (∀ h ∈ s.homeq, h.entry ≠ some id) →
      Answers (.issueQueuePerform id x.lane) s fun t => t.mem = s.mem ∧ (∀ q ∈ t.queue, q.id ≠ id) ∧
        ∃ b, t.sb = s.sb ++ [b] ∧ b.core = e.core ∧ b.gk = e.gk ∧ b.ctx = e.ctx ∧ b.seq = e.seq ∧
          b.bytes = placed pa (natLe n w.toNat)) ∧
    (∀ m xs since lane gk g, e.op = .stv m xs since → s.gutter = [] → blocked s (entryAgent s e) e.op = false →
      (∀ x ∈ xs, ∃ q, resolve s a .globalOnly x.lane x.addr 4 2 true = .ok q) →
      stvCheck s e.ctx m { code := 0x05 } xs = .ok → e.fails = [] → (∀ h ∈ s.homeq, h.entry ≠ some id) →
      e.gk = some gk → LiveGang s gk g →
      Answers (.issueQueuePerform id lane) s fun t => t.mem = s.mem ∧ (∀ q ∈ t.queue, q.id ≠ id) ∧
        (ctxD t e.ctx).lines = (ctxD (storeLines e.ctx m xs s) e.ctx).lines) ∧
    (∀ pred succ scope lane, e.op = .fence pred succ scope →
      (complete s (entryAgent s e) pred scope = true →
        Answers (.issueQueuePerform id lane) s fun t => t.mem = s.mem ∧ t.queue = s.queue.filter fun q => q.id ≠ id) ∧
      (complete s (entryAgent s e) pred scope = false → ∀ gk g, e.gk = some gk → LiveGang s gk g →
        exec (.issueQueuePerform id lane) s = .next s)) ∧
    (∀ key gk g, e.op = .arrive key → e.gk = some gk → LiveGang s gk g →
      let b := barOf s key
      (∀ q ∈ s.queue, q.qid ∈ (entryAgent s e).qids → e.seq ≤ q.seq) →
      complete s (entryAgent s e) 63 (if b.cluster then 2 else 1) = true → b.init = true →
      Answers (.barArrivalCounted id) s fun t => t.mem = s.mem ∧ t.queue = s.queue.filter (fun q => q.id ≠ id) ∧
        let ends := b.poison = false ∧ b.bytes = 0 ∧ b.arrived + 1 = b.now
        (barOf t key).coming = b.coming - 1 ∧
        (barOf t key).phase = (if ends then (b.phase + 1) % 65536 else b.phase) ∧
        (barOf t key).arrived = if ends then 0 else b.arrived + 1)

/-- Writes reach memory: the store buffer's at the core's die, from where they go to every other die; a die takes
a write when its stamp allows, and of two writes to a byte the one with the greater key stays; an update is
applied at its home, and once the last update of an atomic's instruction is, its lanes' registers take the old words; a Gutter entry whose page now translates joins
the store buffer, and one whose page does not serve it becomes cause 0x0B (R200, R221, R225–R227). -/
def Obligations.WritesReachMemory : Prop :=
  (∀ s id e, s.sb.find? (fun e => e.id = id) = some e → e.core < 1024 → (dieOf s (dieNo e.core)).clock.length = 8 →
    (∀ x ∈ s.sb.takeWhile (fun x => x.id ≠ id), x.core = e.core → x.gk = e.gk → x.ctx = e.ctx →
      ∀ b ∈ x.bytes, ∀ c ∈ e.bytes, b.1 ≠ c.1) →
    let d := dieNo e.core
    (e.bytes.map fun b => viewLoc d b.1).Nodup →
    Answers (.storeBufferApply id) s fun t => Wrote s t (e.bytes.map fun b => (viewLoc d b.1, b.2)) ∧
      t.sb = s.sb.filter (fun x => x.id ≠ id) ∧ SentFrom t d e.bytes ∧
      (dieOf t d).clock = (dieOf s d).clock.set d ((dieOf s d).clock.getD d 0 + 1)) ∧
  (∀ s die id w, s.pubs.find? (fun w => w.into = die ∧ w.id = id) = some w → (dieOf s die).clock.length = 8 →
    w.origin < 8 → w.stamp.getD w.origin 0 = (dieOf s die).clock.getD w.origin 0 + 1 →
    (∀ k < 8, k ≠ w.origin → w.stamp.getD k 0 ≤ (dieOf s die).clock.getD k 0) →
    (w.bytes.map fun b => viewLoc die b.1).Nodup →
    Answers (.applyQueueTake die id) s fun t =>
      Wrote s t (w.bytes.map fun b => (viewLoc die b.1,
        if keyAt s (viewLoc die b.1) < w.key then b.2 else readByte s (viewLoc die b.1))) ∧
      (dieOf t die).clock = (dieOf s die).clock.set w.origin (w.stamp.getD w.origin 0) ∧
      (∀ p ∈ t.pubs, p.into = die → p.id ≠ id)) ∧
  (∀ s id h, s.homeq.find? (fun h => h.id = id) = some h → h.home < 8 → (dieOf s h.home).clock.length = 8 →
    (∀ x ∈ s.homeq, x.pa = h.pa → x.qid = h.qid → x.seq = h.seq → x.gk = h.gk → h.order ≤ x.order) →
    h.pa + 4 ≤ 2 ^ 52 → isBad s (viewLoc h.home h.pa) 4 = false → s.shadow = [] → h.xp = none →
    let old := w32 (leNat (viewBytes s h.ctx (viewLoc h.home h.pa) 4))
    let new := natLe 4 (updated h.op old).toNat
    Answers (.homeUpdateArrival id) s fun t => Wrote s t (placed (viewLoc h.home h.pa) new) ∧
      t.homeq = s.homeq.filter (fun x => x.id ≠ id) ∧ SentFrom t h.home (placed h.pa new) ∧
      ∀ gk g n e d, h.gk = some gk → LiveGang s gk g → h.entry = some n → s.sent.find? (fun e => e.id = n) = some e →
        e.gk = some gk → e.dst = some d → d < 64 → e.gangDst = false → e.fails = [] →
        let got := e.got ++ [(h.lane, old)]
        (got.map Prod.fst).Nodup →
        ((∃ x ∈ s.homeq, x.id ≠ id ∧ x.entry = some n) → t.gangs = s.gangs ∧ ∃ q ∈ t.sent, q.id = n ∧ q.got = got) ∧
        ((∀ x ∈ s.homeq, x.id ≠ id → x.entry ≠ some n) → (∀ q ∈ t.sent, q.id ≠ n) ∧
          ∃ g', gang? t gk = some g' ∧ ∀ l v, (l, v) ∈ got → sget 0 g.scoreboard (l * 64 + d) = n + 1 →
            sget 0 g'.v (l * 64 + d) = v ∧ sget 0 g'.scoreboard (l * 64 + d) = 0)) ∧
  (∀ s id e, s.gutter.find? (fun e => e.id = id) = some e →
    (∀ x ∈ s.gutter.takeWhile (fun x => x.id ≠ id), x.core = e.core → x.ctx = e.ctx → x.addr.toNat / 64 ≠ e.addr.toNat / 64) →
    let a : Agent := { core := e.core, ctx := e.ctx, gk := e.gk, ref := none, qids := [e.qid], seq := e.seq
                       pc := e.pc, scode := e.scode }
    (∀ pa n w, e.op = .store n w → n = 1 ∨ n = 2 ∨ n = 4 → (∀ i < n, i ∈ e.mask) → vaCheck s a e.addr.toNat n 2 e.addr false = .ok (.view pa) →
      Answers (.gutterReplay id) s fun t => t.mem = s.mem ∧ t.gutter = s.gutter.filter (fun x => x.id ≠ id) ∧
        ∃ b, t.sb = s.sb ++ [b] ∧ b.core = e.core ∧ b.gk = e.gk ∧ b.seq = e.seq ∧ b.bytes = placed pa (natLe n w.toNat)) ∧
    (∀ c gk g, vaCheck s a e.addr.toNat (opSize e.op) (opAcc e.op) e.addr false = .bad c → e.gk = some gk → LiveGang s gk g →
      (∀ k i, (k, i) ∈ sentries s.insts → i.qid ≠ e.qid) →
      Answers (.gutterReplay id) s fun t => t.mem = s.mem ∧ t.gutter = s.gutter.filter (fun x => x.id ≠ id) ∧
        ∃ p, gang? t gk = some { g with pending := g.pending ++ [p] } ∧ p.cause.code = 0x0B ∧ p.lanes = e.lanes ∧ p.defer = true ∧
          p.cause.d0 = lo32 e.addr ∧ p.cause.d1 = hi32 e.addr))

/-- A walk that ends at a usable leaf caches its translation and sets A, and D for a write, in the leaf; one that
ends at an absent entry becomes a record to the page service. The service's answer starts the walk again, or
refuses the page to its waiters. An invalidation drops the translations of the page and those of a 32 MiB page that
covers it, or those of all pages, on every die, and running walks are discarded (R321–R324). A write of a root's half replaces it and drops all. -/
def Obligations.TranslationsComeAndGo : Prop :=
  (∀ s die ctx page w, ((s.walks.filter fun w => w.die = die).take 96).find? (fun w => w.ctx = ctx ∧ w.page = page) = some w →
    w.stale = false → w.id = 0 → w.level = 0 → w.absent = false →
    (∀ pa r ww x d at_ entry big, walkTable s die ctx (page * 0x10000) w.acc = .leaf pa r ww x d at_ entry big → at_ + 8 ≤ 2 ^ 52 →
      (∀ y ∈ w.who, ∀ c i, y.2.1 ≠ .buffer c i) →
      let write := w.acc / 2 % 2 = 1 ∨ w.acc / 8 % 2 = 1
      Answers (.translationWalkComplete die ctx page) s fun t => w ∉ t.walks ∧
        ⟨die, ctx, page, pa, r, ww, x, d || decide write, big⟩ ∈ t.tlb ∧
        Wrote s t (placed (viewLoc die at_) (natLe 8 (entry ||| 0x40 ||| if write then 0x80 else 0)))) ∧
    (∀ level, walkTable s die ctx (page * 0x10000) w.acc = .absent level →
      Answers (.translationWalkComplete die ctx page) s fun t => w ∉ t.walks ∧ t.mem = s.mem ∧
        ∃ r, t.pageRecs = s.pageRecs ++ [r] ∧ r.die = die ∧ r.ctx = ctx ∧ r.page = page ∧ r.who = w.who ∧ r.absent = true)) ∧
  (∀ s id w, s.pageRecs.find? (fun w => w.id = id) = some w →
    Answers (.pageServiceAnswer id true) s (fun t => t.pageRecs = s.pageRecs.filter (fun x => x.id ≠ id) ∧
      t.walks = s.walks ++ [{ w with id := 0, level := 0, absent := false }] ∧ t.mem = s.mem) ∧
    ∀ core gk gid g r n page since, w.who = [(core, .unit (.grp gk gid), n)] → gang? s gk = some g → group? g gid = some r →
      r.wait = some ⟨.page page, since⟩ →
      Answers (.pageServiceAnswer id false) s fun t => t.pageRecs = s.pageRecs.filter (fun x => x.id ≠ id) ∧
        ∃ g' r', gang? t gk = some g' ∧ group? g' gid = some r' ∧
          r'.wait = some ⟨.refused w.page (if w.absent then 0x09 else 0x0A), since⟩) ∧
  (∀ s ctx (v : Word), v.toNat < 0x100 →
    Answers (.tlbInvPage ctx v) s fun t => t.mem = s.mem ∧
      let page := v.toNat * 0x100000000 + (ctxD s ctx).tlbInvLo.toNat
      (∀ e, e ∈ t.tlb ↔ e ∈ s.tlb ∧ ¬(e.ctx = ctx ∧ (e.page = page ∨ e.big = true ∧ e.page / 512 = page / 512))) ∧
      ∀ w ∈ t.walks, w.ctx = ctx → w.page / 512 = page / 512 → w.stale = true) ∧
  (∀ s ctx (v : Word), 0x80000000 ≤ v.toNat → v.toNat < 0x80000100 →
    Answers (.tlbInvAll ctx v) s fun t => t.mem = s.mem ∧
      (∀ e, e ∈ t.tlb ↔ e ∈ s.tlb ∧ e.ctx ≠ ctx) ∧ ∀ w ∈ t.walks, w.ctx = ctx → w.stale = true) ∧
  (∀ s ctx, Answers (.tlbInvComplete ctx) s fun t => t.tlb = s.tlb ∧ t.mem = s.mem ∧ t.walks.length = s.walks.length ∧
    ∀ w ∈ t.walks, w.ctx = ctx → w.stale = false) ∧
  (∀ s ctx x high (v : Word), HasContext s ctx x → (high = true → v.toNat < 0x100000) → (high = false → v.toNat % 0x1000 = 0) →
    Answers (.ptRootWrite ctx high v) s fun t => t.mem = s.mem ∧ (∀ e ∈ t.tlb, e.ctx ≠ ctx) ∧
      HasContext t ctx { x with ptRoot := if high then pair (lo32 x.ptRoot) v else pair v (hi32 x.ptRoot) })

/-- Writes of registers by their events: a seal enters a sound image into the table, an unseal frees an idle one; a
designation makes a region whose lines start without versions, a release frees it; a bound takes its value, where
no wait or run has already lasted longer; a read of SYS.VDIR_DATA moves its index. The Purlin refresh takes the bank groups
in turn: 1.6 of every 4.0 µs are a group's window (R53, R132, R175, R182–R184, R194, R320). -/
def Obligations.RegisterEvents : Prop :=
  (∀ s ctx x core v, HasContext s ctx x →
    let a : Agent := { core := core, ctx := ctx, gk := none, ref := none }
    (∀ im, sealAt s a [] v = .ok im → Answers (.autoSeal ctx core v) s fun t => t.mem = s.mem ∧
      HasContext t ctx { x with sealStatus := 0, images := sset none x.images v.toNat (some im) }) ∧
    (∀ n, sealAt s a [] v = .status n → Answers (.autoSeal ctx core v) s fun t => t.mem = s.mem ∧
      HasContext t ctx { x with sealStatus := n }) ∧
    (∀ im, v.toNat < 64 → sget none x.images v.toNat = some im →
      (∀ gk g, (gk, g) ∈ sentries s.gangs → g.ctx = ctx → g.region.map Region.img ≠ some v.toNat) →
      Answers (.autoUnseal ctx v) s fun t => t.mem = s.mem ∧
        HasContext t ctx { x with sealStatus := 0, images := sset none x.images v.toNat none })) ∧
  (∀ s ctx x core (v : Word), HasContext s ctx x → v.toNat < 64 →
    let base := x.vregBase.toNat
    let size := x.vregSize.toNat
    (designateStatus s (dieNo core) ctx v.toNat base size = 0 → spanBusy s (dieNo core) ctx base size = false →
      Answers (.vregDesignate ctx core v) s fun t => t.mem = s.mem ∧ ∃ x' r, HasContext t ctx x' ∧ x'.vregStatus = 0 ∧
        sget none x'.regions v.toNat = some r ∧ r.base = base ∧ r.size = size ∧ r.wait = x.vregWait ∧ r.floor = 0 ∧ r.pins = [] ∧
        ∀ k, base / 64 ≤ k → k < (base + size) / 64 → sget {} x'.lines k = {}) ∧
    (∀ n, designateStatus s (dieNo core) ctx v.toNat base size = n → n ≠ 0 →
      Answers (.vregDesignate ctx core v) s fun t => t.mem = s.mem ∧ HasContext t ctx { x with vregStatus := n })) ∧
  (∀ s ctx x core (v : Word) r, HasContext s ctx x → 128 ≤ v.toNat → v.toNat < 256 →
    let idx := v.toNat % 64
    sget none x.regions idx = some r →
    (releaseStatus s ctx idx (v.getLsbD 6) = 0 →
      Answers (.vregRelease ctx core v) s fun t => ∃ x', HasContext t ctx x' ∧ x'.vregStatus = 0 ∧
        sget none x'.regions idx = none ∧ ∀ k, r.base / 64 ≤ k → k < (r.base + r.size) / 64 → sget {} x'.lines k = {}) ∧
    (releaseStatus s ctx idx (v.getLsbD 6) = 5 →
      Answers (.vregRelease ctx core v) s fun t => t.mem = s.mem ∧ HasContext t ctx { x with vregStatus := 5 })) ∧
  (∀ s ctx x v, HasContext s ctx x → (∀ c ∈ s.cores, c.2.xp0.wait = none ∧ c.2.xp1.wait = none ∧ c.2.matrix.held = none) →
    (∀ e ∈ waits s ctx, let b := waitBoundOf { x with waitBound := v } e.2.on; b = 0 ∨ s.usec ≤ e.2.since + b) →
    Answers (.waitBoundWrite ctx v) s fun t => t.mem = s.mem ∧ HasContext t ctx { x with waitBound := v }) ∧
  (∀ s ctx x (v : Word), HasContext s ctx x →
    (v = 0 ∨ (∀ gk g, (gk, g) ∈ sentries s.gangs → g.ctx = ctx → s.usec ≤ g.since + v.toNat * 1000) ∧
      ∀ id i, (id, i) ∈ sentries s.insts → i.ctx = ctx → s.usec ≤ i.since + v.toNat * 1000) →
    Answers (.runBoundWrite ctx v) s fun t => t.mem = s.mem ∧ HasContext t ctx { x with runBound := v.toNat }) ∧
  (∀ s ctx x, HasContext s ctx x →
    Answers (.vdirDataRead ctx) s fun t => t.mem = s.mem ∧ HasContext t ctx { x with vdirIdx := (x.vdirIdx + 1) % 24 }) ∧
  (∀ s die, (purlinGroup s die).2 = false →
    Answers (.purlinRefreshStart die) s fun t => t.mem = s.mem ∧ tenths t = tenths s + (40 - purlinPos s die % 40) ∧
      purlinGroup t die = ((purlinPos s die / 40 + 1) % 16, true)) ∧
  (∀ s die, (purlinGroup s die).2 = true →
    Answers (.purlinRefreshEnd die) s fun t => t.mem = s.mem ∧ tenths t = tenths s + (16 - purlinPos s die % 40) ∧
      purlinGroup t die = ((purlinPos s die / 40 + 1) % 16, false))

/-- Copy processors go on: a complete start begins on an idle processor with the words that were read from its
records, or faults with the cause of a read that failed; a word of a command
lands as one unit, a command whose writes are all complete leaves, a version set is published at once, a FOLLOW's MTILE
enters the queue once its command is complete, and a wait past its bound faults (R192, R243–R248, R260–R262). -/
def Obligations.CopyProcessorsGoOn : Prop :=
  (∀ s core p st rest ws, p < 2 → let x := xpOf s core p
    x.state = .idle → x.starts = st :: rest → (∀ y ∈ x.starts, y.complete = true) →
    let s2 := updXp core p (fun x => x) s
    let reader : Agent := { core := core, ctx := st.ctx, gk := none, ref := none, launch := st.launch }
    ((st.words = ws ∧ ws ≠ [] ∧ st.bad = none ∧ ∀ y ∈ x.starts, y.unread = false) ∨
      (rest = [] ∧ st.unread = true ∧ engineList s2 reader (startAddrs st.joined) = (ws, none))) →
    Answers (.copyProgramBegin core p) s fun t => let y := xpOf t core p
      t.mem = s.mem ∧ y.state = .run ∧ y.ctx = st.ctx ∧ y.gangs = st.joined.map Prod.fst ∧
      y.base = pair (ws.getD 0 0) (ws.getD 1 0) ∧ y.pc = 0 ∧ (∀ i < 16, aReg y i = ws.getD (i + 2) 0) ∧
      y.cur = [{}, {}, {}, {}] ∧ y.loops = [] ∧ y.cmds = [] ∧ y.starts = rest ∧ y.wait = none ∧ y.port = x.port) ∧
  (∀ s core p st rest code addr, p < 2 → let x := xpOf s core p
    x.state = .idle → x.starts = st :: rest → (∀ y ∈ x.starts, y.complete = true ∧ y.unread = false) → st.bad = some (code, addr) →
    Answers (.copyProgramBegin core p) s fun t => t.mem = s.mem ∧ (xpOf t core p).state = .fault ∧
      (xpOf t core p).cause = code ∧ (xpOf t core p).faddr = addr ∧ (xpOf t core p).fpc = 0xFFFF) ∧
  (∀ s core p cmd c dst w (b : Nat → Byte), p < 2 → xcmd s core p cmd = some c → c.words[dst]? = some w →
    let a := xpAgent core p (xpOf s core p)
    (c.kind ≠ .vpub → c.bar = none → w.add = none → w.bytes.length = 4 →
      (∀ i < 4, ∃ x, w.bytes[i]? = some (some x) ∧ xbyte s a x = .byte (b i)) →
      (∀ k off, landSpot s a c w.space w.addr 1 2 = .ok (.sp k off) →
        Answers (.copyWriteComplete core p cmd dst) s fun t => Wrote s t ((List.range 4).map fun i => (spLoc k off + i, b i)) ∧
          (xcmd t core p cmd).map XCmd.words = some (c.words.eraseIdx dst)) ∧
      (∀ pa, landSpot s a c w.space w.addr 1 2 = .ok (.view pa) → pa + 4 ≤ 2 ^ 52 →
        Answers (.copyWriteComplete core p cmd dst) s fun t =>
          Wrote s t ((List.range 4).map fun i => (viewLoc (dieNo core) pa + i, b i)) ∧
          SentFrom t (dieNo core) ((List.range 4).map fun i => (pa + i, b i)) ∧
          (xcmd t core p cmd).map XCmd.words = some (c.words.eraseIdx dst))) ∧
    (∀ v pa, w.add = some v → landSpot s a c w.space w.addr 4 8 = .ok (.view pa) →
      Answers (.copyWriteComplete core p cmd dst) s fun t => t.mem = s.mem ∧
        (xcmd t core p cmd).map XCmd.words = some (c.words.eraseIdx dst) ∧
        ∃ h, t.homeq = s.homeq ++ [h] ∧ h.home = pa / 256 % 8 ∧ h.pa = pa ∧ h.op = .redm 0x9B v ∧ h.xp = some (core, p, cmd))) ∧
  (∀ s core p cmd c, p < 2 → xcmd s core p cmd = some c → c.words = [] → c.lines = [] →
    (∀ h ∈ s.homeq, h.xp ≠ some (core, p, cmd)) → (∀ w ∈ s.pubs, w.xp ≠ some (core, p, cmd)) →
    Answers (.copyCommandComplete core p cmd) s fun t => t.mem = s.mem ∧
      (xpOf t core p).cmds = (xpOf s core p).cmds.filter (fun y => y.id ≠ cmd) ∧
      ((xpOf s core p).cmds = [c] → (xpOf t core p).port =
        if c.kind = .moveA ∨ c.kind = .movePk then (xpOf s core p).port.drop 1 else (xpOf s core p).port)) ∧
  (∀ s core p cmd c x, p < 2 → xcmd s core p cmd = some c → c.kind = .vpub → c.words = [] → c.lines ≠ [] → c.lines.Nodup → c.bar = none →
    HasContext s (xpOf s core p).ctx x → waits s (xpOf s core p).ctx = [] →
    Answers (.vpubPublish core p cmd) s fun t => t.mem = s.mem ∧ (xcmd t core p cmd).map XCmd.lines = some [] ∧
      ∀ l ∈ c.lines, let before := sget {} x.lines l
        let after := sget {} (ctxD t (xpOf s core p).ctx).lines l
        after.latest = c.version ∧ after.staged = none ∧ (after.vers.getLast?).map Version.num = some c.version ∧
          (∀ m bs, before.staged = some (m, bs) → (after.vers.getLast?).map Version.bytes = some bs)) ∧
  (∀ s core p slot f, p < 2 → let x := xpOf s core p
    x.follows[slot]? = some f → (∀ c ∈ x.cmds, c.id ≠ f.cmd) →
    let ts := descOf s x.ctx core f.ts
    let ta := descOf s x.ctx core f.ta
    let m := matrixOf s core
    (f.h0 + dExt ta 1 > 256 → Answers (.followMtileIssue core p slot) s fun t =>
      t.mem = s.mem ∧ (xpOf t core p).state = .fault ∧ (xpOf t core p).cause = 0x05 ∧ (xpOf t core p).fpc = f.fpc) ∧
    (f.h0 + dExt ta 1 ≤ 256 → dValid ts = true → dValid ta = true → pairOk (dFormats ts) (dFormats ta) = true →
      m.owner = some x.ctx → m.fault = false → m.queue.length < 64 →
      Answers (.followMtileIssue core p slot) s fun t => t.mem = s.mem ∧ (xpOf t core p).follows = x.follows.eraseIdx slot ∧
        ∃ c, (matrixOf t core).queue = m.queue ++ [c] ∧ c.op = .mtile ts ta f.h0 (dExt ta 1) 1 f.z none ∧ c.xp = some (core, p))) ∧
  (∀ s core p key tok since, p < 2 → let x := xpOf s core p
    x.state = .wait → x.wait = some ⟨.bar key tok, since⟩ → (ctxD s x.ctx).waitBound.toNat % 0x10000 ≠ 0 →
    ¬ phaseOver (barOf s key).phase tok → (barOf s key).poison = false →
    Answers (.copyWaitBoundExpire core p) s fun t => t.mem = s.mem ∧ (xpOf t core p).state = .fault ∧
      (xpOf t core p).cause = 0x1F ∧ (xpOf t core p).fpc = x.pc ∧ (∀ k ∈ x.barset, (barOf t k).poison = true) ∧
      since + (ctxD s x.ctx).waitBound.toNat % 0x10000 ≤ t.usec)

/-- The matrix engine runs the command at the head of its queue: MLOAD fills the shadow plane, MSWAP makes it the active
one, MZERO clears rows, MDRAIN hands a port a tile of encoded rows; a drain that a full port holds past the bound faults
and discards the queue. Its state is saved once its owner has no resident gang and its queue is empty, or at an MTILE's
interrupt point (log entry 80), and comes back unchanged (R268, R272–R279, R326). -/
def Obligations.MatrixEngineGoesOn : Prop :=
  (∀ s core c rest, let m := matrixOf s core
    m.queue = c :: rest → m.rel = false → m.poison = [] → s.shadow = [] →
    let runs (P : State → Matrix → Prop) : Prop := Answers (.matrixCommandExecute core) s fun t =>
      t.mem = s.mem ∧ (matrixOf t core).queue = rest ∧ (matrixOf t core).owner = m.owner ∧ P t (matrixOf t core)
    (∀ d k0 n0 q, c.op = .mload d k0 n0 → readPlane s (matrixAgent s core c) d k0.toNat n0.toNat = .ok q →
      runs fun _ y => y.shadow = q ∧ y.active = m.active ∧ y.acc = m.acc) ∧
    (c.op = .mswap → runs fun _ y => y.active = m.shadow ∧ y.shadow.st = .empty ∧ y.acc = m.acc) ∧
    (∀ h n, c.op = .mzero h n → runs fun _ y => y.active = m.active ∧ y.shadow = m.shadow ∧
      ∀ r k, k < 64 → sget 0 y.acc (r * 64 + k) = if h ≤ r ∧ r < h + n then 0 else sget 0 m.acc (r * 64 + k)) ∧
    (∀ sel h0 n p, c.op = .drainPort sel h0 n p → p < 2 → (xpOf s core p).state ≠ .fault → (xpOf s core p).port.length < 2 →
      runs fun t y => y.acc = m.acc ∧ ∃ tile, (xpOf t core p).port = (xpOf s core p).port ++ [tile] ∧ tile.rows.length = n ∧
        tile.fmt = (portFormat sel).1 ∧ tile.scale = (portFormat sel).2 ∧
        ∀ i < n, (portFormat sel).2 = 0 →
          tile.rows.getD i [] = (accRow m (h0 + i)).map fun x => w32 (drainConvert sel x).1)) ∧
  (∀ s core c rest since sel h0 n p, let m := matrixOf s core
    m.queue = c :: rest → c.op = .drainPort sel h0 n p → m.rel = false → m.held = some since →
    (ctxD s (m.owner.getD 0)).waitBound.toNat / 0x10000 ≠ 0 →
    ((xpOf s core p).state ≠ .fault → 2 ≤ (xpOf s core p).port.length →
      Answers (.drainPortBoundExpire core) s fun t => t.mem = s.mem ∧ (matrixOf t core).fault = true ∧
        (matrixOf t core).cause = 0x29 ∧ (matrixOf t core).queue = [] ∧ (matrixOf t core).acc = m.acc) ∧
    ((xpOf s core p).state = .fault ∨ (xpOf s core p).port.length < 2 → exec (.drainPortBoundExpire core) s = .next s)) ∧
  (∀ s core ctx, let m := matrixOf s core
    m.owner = some ctx →
    ((∀ gk g, (gk, g) ∈ residents s core → g.ctx ≠ ctx) →
      (m.queue = [] ∨ ∃ c ts ta h0 rows kp z tl q j, m.queue = [c] ∧ c.op = .mtile ts ta h0 rows kp z tl ∧
        m.run = some (q, j + 1) ∧ (j = 0 ∨ (q * rows + j) % 32 = 0)) →
      Answers (.matrixStateSave core) s fun t => t.mem = s.mem ∧ matrixOf t core = {} ∧
        sget none (coreOf t core).saved ctx = some m) ∧
    (m.queue ≠ [] → m.run = none → exec (.matrixStateSave core) s = .next s)) ∧
  (∀ s core ctx m, (matrixOf s core).owner = none → restorable s core = some (ctx, m) →
    Answers (.matrixStateRestore core) s fun t => t.mem = s.mem ∧ matrixOf t core = m ∧
      sget none (coreOf t core).saved ctx = none)

/-- A wait that passes its bound raises its cause in the waiting unit: 0x1E at a cohort, whose joiner is removed, 0x1F
at a barrier, 0x29 at a timeline, 0x12 at a version or at a line that is staged still. A YIELD ends after its clocks, a
hold lapses with the latches once it is over, a ready group's age reaches the limit, a pending cause is delivered lowest
code first, a waiting instance takes a free register set, a run past SYS.RUN_BOUND raises 0x3E, and a failed transfer over the Ridge becomes a pending 0x37 (R24, R27, R66,
R120, R125, R131, R188, R307, R309, R311, R320). -/
def Obligations.BoundsAndLateCauses : Prop :=
  (∀ s ref u on since, viewOf s ref = some u → u.region = none → waitOf s u = some ⟨on, since⟩ →
    let after (b : Nat) : State := usecTo (since + b) s
    let bound := (ctxD s u.ctx).waitBound.toNat
    (∀ key gk gid, on = .cohort key → u.kind = .grp gid → u.gk = some gk → bound % 0x10000 ≠ 0 → (gk, gid) ∈ (cohOf s key).joiners →
      ∃ s1, exec (.cohJoinTimeout ref) s = .next (raise { code := 0x1E, d0 := w32 (key % 32), source := 1 } u.lanes u s1) ∧
        s1.mem = s.mem ∧ s1.gangs = s.gangs ∧ (cohOf s1 key).joiners = (cohOf s key).joiners.filter (· ≠ (gk, gid)) ∧
        ((cohOf s key).phase = .forming → (cohOf s1 key).phase =
          if (cohOf s key).joiners.all (· = (gk, gid)) then .free else .forming)) ∧
    (∀ key tok, on = .bar key tok → bound % 0x10000 ≠ 0 → ¬ phaseOver (barOf s key).phase tok → (barOf s key).poison = false →
      exec (.barWaitBoundExpire ref) s = .next (raise { code := 0x1F, d0 := w32 (key % 256), source := 1 } u.lanes u
        (after (bound % 0x10000)))) ∧
    (∀ k n, on = .tl k n → bound / 0x10000 ≠ 0 → (tlOf s u.ctx k).toNat < n.toNat →
      exec (.tlWaitBoundExpire ref) s = .next (raise { code := 0x29, d0 := w32 k, source := 1 } u.lanes u
        (after (bound / 0x10000)))) ∧
    (∀ rows got b, on = .version rows got → b ≠ 0 → (∃ e ∈ rows, regionBound s u.ctx e.2.1 = b) →
      (∀ e ∈ rows, regionBound s u.ctx e.2.1 = 0 ∨ b ≤ regionBound s u.ctx e.2.1) →
      exec (.versionWaitBoundExpire ref) s = .next (raise { code := 0x12, d0 := (rows.map fun e => e.2.2).headD 0 }
        ((rows.filter fun e => regionBound s u.ctx e.2.1 ≠ 0 &&
          decide (since + regionBound s u.ctx e.2.1 ≤ max s.usec (since + b))).map Prod.fst) u (after b))) ∧
    (∀ line, on = .staged line → let b := regionBound s u.ctx (line * 64)
      (isStaged s u.ctx line = true → b ≠ 0 → exec (.versionWaitBoundExpire ref) s = .next (raise
        { code := 0x12, d0 := storedVersion s u } u.lanes u (after b))) ∧
      (isStaged s u.ctx line = false → exec (.versionWaitBoundExpire ref) s = .next s)) ∧
    (∀ c, on = .yield c → (c ≤ s.clk → Answers (.yieldExpire ref) s fun t => t.mem = s.mem ∧ waitOf t u = none) ∧
      (s.clk < c → exec (.yieldExpire ref) s = .next s))) ∧
  (∀ s us, (usecTo us s).usec = max s.usec us ∧ (usecTo us s).mem = s.mem ∧ (usecTo us s).gangs = s.gangs) ∧
  (∀ s ref u p k last start, viewOf s ref = some u → holdOf s u.core ref p = some (k, last, start) →
    (min (last + 32) (start + 64) ≤ s.clk → Answers (.holdLapse ref p) s fun t => t.mem = s.mem ∧
      sget none (coreOf t u.core).holds k = none ∧ ∀ p', ∀ l ∈ latches t u p', l.st ≠ .valid) ∧
    (s.clk < min (last + 32) (start + 64) → exec (.holdLapse ref p) s = .next s)) ∧
  (∀ s gk gid g r, gang? s gk = some g → group? g gid = some r → r.wait = none → g.place = .resident → g.dead = false →
    Answers (.ageLimitReached (.grp gk gid)) s fun t => t.mem = s.mem ∧ ∃ g' r', gang? t gk = some g' ∧
      group? g' gid = some r' ∧ r'.age = max r.age (ccOf s g.ctx g.core).ageLimit) ∧
  (∀ s gk gid g r p, LiveGang s gk g → g.region = none → g.place = .resident → g.dead = false → p ∈ g.pending →
    (∀ q ∈ g.pending, q = p ∨ p.cause.code < q.cause.code) → p.group = some gid → group? g gid = some r → isStopped g gid = false →
    (p.defer = true → exec (.deferredCauseDelivery gk) s = .next (raiseGroup gk gid p.cause (p.lanes.filter g.live.contains) true p.pc
      p.scode (setGang s gk (some { g with pending := g.pending.erase p })))) ∧
    (p.defer = false → inTurn s g = true → exec (.deferredCauseDelivery gk) s = .next (raiseGroup gk gid p.cause
      (p.lanes.filter g.live.contains) false p.pc p.scode
      (noteStart g (setGang s gk (some { g with pending := g.pending.erase p, idle := false })))))) ∧
  (∀ s core n, freeSet s core = some n → (∃ id i, (id, i) ∈ sentries s.insts ∧ i.core = core ∧ i.set = none) →
    Answers (.handlerInstanceStart core) s fun t => t.mem = s.mem ∧ ∃ id i, (id, i) ∈ sentries s.insts ∧ i.core = core ∧
      i.set = none ∧ inst? t id = some { i with set := some n, since := s.usec }) ∧
  (∀ s gk gid g r, LiveGang s gk g → g.region = none → sentries g.groups = [(gid, r)] → isStopped g gid = false →
    g.place = .resident → g.dead = false → (ctxD s g.ctx).faulted = false → watchdogServed s gk = false →
    let b := (ctxD s g.ctx).runBound
    let now := max s.usec (g.since + b * 1000 + 1)
    b ≠ 0 → exec (.runBoundWatchdog (.grp gk 0)) s = .next (raiseGroup gk gid
      { code := 0x3E, d0 := w32 ((now - g.since) / 1000), source := 7 } (groupLanes g r) false 0 false
      (usecTo (g.since + b * 1000 + 1) s))) ∧
  (∀ s gk g lanes target pc, LiveGang s gk g →
    Answers (.ridgeLinkError gk lanes target pc) s fun t => t.mem = s.mem ∧ ∃ p, gang? t gk = some { g with pending := g.pending ++ [p] } ∧
      p.cause.code = 0x37 ∧ p.cause.d0 = w32 target ∧ ∀ l, l ∈ p.lanes ↔ l < 32 ∧ lanes.testBit l = true ∧ l ∈ g.live)

/-- A unit of a node is admitted: each core named holds the gangs of its batch, whose lanes start at the entry with
their thread numbers in v0 and the node's arguments in the gang's registers. A unit skipped too long blocks others.
A save leaves a gang evicted with its registers, its queued accesses to be issued again; a readmission puts it back in a
free slot, and a swap saves a resident gang and then puts the evicted one in a free slot. A node whose work is complete stores its DONE word and frees its entry (R12–R16, R293, R295, R296, R326, R329, R330). -/
def Obligations.PoolAndEvictions : Prop :=
  (∀ s key n cores, sget none s.pool key = some n → mayAdmit s key n (dieNo (cores.headD 0)) = true →
    placementOk s key n cores = true → betterFits s key n (dieNo (cores.headD 0)) = false → rTdCount n.rcd = 0 → n.legacy = false →
    Answers (.admitUnit key cores) s fun t => t.mem = s.mem ∧
      (∃ n', sget none t.pool key = some n' ∧ n'.phase = .running ∧ n'.nextUnit = n.nextUnit + 1) ∧
      ∀ i < n.c, let b := n.nextUnit * n.c + i
        ∀ k, 32 * k < batchThreads n b → ∃ gk g r, gang? t gk = some g ∧ g.core = cores.getD i 0 ∧ g.ctx = n.ctx ∧ g.node = key ∧
          g.batch = b ∧ g.tid0 = b * n.b + 32 * k ∧ (n.c = 1 → g.slot ∈ freeSlots s g.core) ∧ g.place = .resident ∧
          (∀ l, l ∈ g.live ↔ l < 32 ∧ 32 * k + l < batchThreads n b) ∧
          (∀ l ∈ g.live, sget 0 g.v (l * 64) = w32 (b * n.b + 32 * k + l)) ∧
          sget 0 g.g 0 = rWord n.rcd 2 ∧ sget 0 g.g 1 = rWord n.rcd 3 ∧ sget 0 g.g 2 = w32 n.n ∧ sget 0 g.g 3 = w32 b ∧
          sget 0 g.g 4 = w32 k ∧ sget 0 g.g 5 = w32 (b % n.c) ∧ sentries g.groups = [(0, r)] ∧ r.pc = n.entry ∧ r.wait = none) ∧
  (∀ s key n since, sget none s.pool key = some n → n.skippedSince = some since → pendingUnit n = true →
    Answers (.admissionSkipTimeout key) s fun t => t.mem = s.mem ∧ (sget none t.pool key).map Node.blocking = some true ∧
      since + 64 ≤ t.usec) ∧
  (∀ s gk g req, gang? s gk = some g → g.place = .saving req → queuesStand s gk = true → g.swapFor ≠ some gk →
    Answers (.gangSaveComplete gk) s fun t => ∃ g', gang? t gk = some g' ∧ g'.place = .evicted req g.since ∧
      g'.evictions = g.evictions + 1 ∧ g'.v = g.v ∧ g'.g = g.g ∧ g'.q = g.q ∧ g'.live = g.live ∧
      g'.redo = (s.queue.filter fun e => e.gk = some gk).map fun e => { e with held := false }) ∧
  (∀ s gk g clock since slot rest, gang? s gk = some g → g.place = .evicted clock since → g.legacy = false →
    (coreOf s g.core).fenced = false → freeSlots s g.core = slot :: rest → claimedAbove s g.core g.prio = false →
    (∀ k x, (k, x) ∈ evictedOn s g.core → k ≠ gk → readmitBefore s x g = false) →
    Answers (.gangReadmit gk) s fun t => t.mem = s.mem ∧ t.queue = s.queue ++ g.redo ∧ ∃ g', gang? t gk = some g' ∧
      g'.place = .resident ∧ g'.slot = slot ∧ g'.home = g.home ∧ g'.v = g.v ∧ g'.g = g.g ∧ g'.q = g.q ∧ g'.live = g.live) ∧
  (∀ s ctx core gk g v x y clock since, oldestEvicted s ctx core = some (gk, g) → gang? s gk = some g →
    gang? s v = some y → y.place = .resident → g.place = .evicted clock since →
    (coreOf s core).fenced = false → swapping s ctx core = false →
    let b := (ctxD s ctx).readmit
    b ≠ 0 → swapVictim (usecTo (since + b + 1) s) ctx core b = some (v, x) →
    Answers (.readmitBoundSwap ctx core) s fun t => since + b < t.usec ∧ gang? t gk = some g ∧
      ∃ y', gang? t v = some y' ∧ y'.place = .saving s.next ∧ y'.swapFor = some gk ∧ y'.v = y.v ∧ y'.g = y.g) ∧
  (∀ s gk g req k h, gang? s gk = some g → g.place = .saving req → queuesStand s gk = true → g.swapFor = some k → k ≠ gk →
    gang? s k = some h → h.core = g.core → (∃ c u, h.place = .evicted c u) → h.legacy = false → g.slot < 32 →
    (∀ j x, (j, x) ∈ gangsOn s g.core → j ≠ gk → x.slot ≠ g.slot ∧ x.place ≠ .saving req) →
    Answers (.gangSaveComplete gk) s fun t => ∃ g' h', gang? t gk = some g' ∧ gang? t k = some h' ∧
      g'.place = .evicted req g.since ∧ h'.place = .resident ∧ h'.swapped = some s.usec ∧ h'.v = h.v ∧ h'.g = h.g ∧
      ∀ j x, (j, x) ∈ gangsOn s g.core → j ≠ gk → x.slot ≠ h'.slot) ∧
  (∀ s key n, sget none s.pool key = some n → n.phase = .draining → nodeBusy s key n = false →
    (rPair n.rcd 12 = 0 → Answers (.nodeComplete key) s fun t => t.mem = s.mem ∧ sget none t.pool key = none) ∧
    (∀ pa, (rPair n.rcd 12).toNat < 2 ^ 56 → rPair n.rcd 12 ≠ 0 → (∀ e ∈ n.refused, e.1 ≠ 128) → pa + 4 ≤ 2 ^ 52 →
      resolve s (dispatchAgent n) .plain 0 (rPair n.rcd 12) 4 2 = .ok (.view pa) →
      Answers (.nodeComplete key) s fun t => Wrote s t (placed (viewLoc n.die pa) (natLe 4 (rWord n.rcd 14).toNat)) ∧
        sget none t.pool key = none))

/-- A kept buffer is renewed before it fades, a buffer whose time is up is latched expired, a renewal ends, a saved buffer is
copied back from its save area when an access has wanted it and takes a fresh tag (R171, R172, R327, R328). A quiesce asks every gang of the context to
stop, is complete once all stand at one mark with the engines idle, and is released on request or at its bound (R331, R332). -/
def Obligations.BuffersAndQuiesces : Prop :=
  (∀ s ctx core idx, let g := tagOf s ctx core idx
    (g.live = true → g.kept = true → g.rewrite = none → residentHere s ctx core = false →
      (∀ e ∈ s.cc, e.1 % 1024 = core → ∀ x ∈ e.2.tags, x.2.kept = true → x.2.rewrite = none) →
      (∀ x ∈ (ccOf s ctx core).tags, x.2.kept = true → x.1 = idx) →
      Answers (.sweeperRenew ctx core idx) s fun t => (tagOf t ctx core idx).rewrite ≠ none ∧
        (tagOf t ctx core idx).expiry = (fadeTick t + g.life) % 2 ^ 32) ∧
    (g.live = true → g.saved = false → g.kept = false → g.expiry < 2 ^ 32 → s.ctl.resetAt ≤ s.usec →
      Answers (.bufferExpiry ctx core idx) s fun t => t.mem = s.mem ∧ expired t (tagOf t ctx core idx) = true ∧
        tagOf t ctx core idx = { g with stale := true }) ∧
    (g.live = true → g.rewrite ≠ none → g.more = [] →
      Answers (.renewalComplete ctx core idx) s fun t => t.mem = s.mem ∧ tagOf t ctx core idx = { g with rewrite := none }) ∧
    (∀ pa, let va := saveVa s ctx core g.base
      g.live = true → g.saved = true → g.todo = [] → g.restoring = none → g.wanted = true → 0 < g.size →
      (∀ i < g.size, saveVa s ctx core (g.base + i) = va + i) → va % 0x10000 + g.size ≤ 0x10000 →
      regionAt s ctx (va / 0x10000 * 0x10000) = none → translate s (dieNo core) ctx (va / 0x10000 * 0x10000) 2 = some pa →
      (∀ i < g.size, isBad s (viewLoc (dieNo core) (pa + (va + i) % 0x10000)) 1 = false) →
      Answers (.bufferRestoreStart ctx core idx) s fun t =>
        tagOf t ctx core idx = { g with restoring := some (fadeTick s), todo := [] } ∧
        Wrote s t ((List.range g.size).map fun i => (spLoc core (g.base + i),
          viewByte s (dataKey s ctx) (viewLoc (dieNo core) (pa + (va + i) % 0x10000))))) ∧
    (∀ tick, g.live = true → g.saved = true → g.todo = [] → g.restoring = some tick →
      Answers (.bufferRestoreComplete ctx core idx) s fun t => t.mem = s.mem ∧ tagOf t ctx core idx =
        { g with saved := false, restoring := none, stale := false, wanted := false, kept := !residentHere s ctx core, expiry := (tick + g.life) % 2 ^ 32 })) ∧
  (∀ s ctx x, HasContext s ctx x →
    let released (t : State) : Prop := ∀ gk g, gang? t gk = some g → g.ctx = ctx → g.live ≠ [] → g.quiesce = false
    (x.qState ≠ 1 → x.qState ≠ 2 → Answers (.quiesceRequest ctx) s fun t => t.mem = s.mem ∧ (ctxD t ctx).qState = 1 ∧
      ∀ gk g, gang? s gk = some g → gang? t gk = some (if g.ctx = ctx then { g with quiesce := true } else g)) ∧
    (x.qState = 2 → Answers (.quiesceRelease ctx) s fun t => t.mem = s.mem ∧ (ctxD t ctx).qState = 0 ∧ released t) ∧
    (∀ k, x.qState = 1 → gangsOf s ctx ≠ [] → (∀ gk g, (gk, g) ∈ gangsOf s ctx → gangStopped s gk g = true ∧ g.stepCount.toNat = k) →
      enginesIdle s ctx = true →
      Answers (.quiesceCutComplete ctx) s fun t => t.mem = s.mem ∧ (ctxD t ctx).qState = 2 ∧ (ctxD t ctx).qTarget = k) ∧
    (x.qState = 1 → x.qBound ≠ 0 → Answers (.quiesceBoundExpire ctx) s fun t => t.mem = s.mem ∧ (ctxD t ctx).qState = 3 ∧
      released t ∧ x.qSince + x.qBound * 1000 ≤ t.usec))

/-- Commands of hosts: a batch of records enters the pool, a write of memory lands in the die's view and a read gives
its bytes, a FLUSH is answered at once when nothing of its session is on its way, quiesces start and end, a collective
joins its die's queue, completes with the fold of its members' data, and goes on without a member that fails; a message
with a malformed header is answered with status 1, an unreliable packet is dropped (R343–R352). -/
def Obligations.HostCommands : Prop :=
  (∀ s m x, Commands s m x →
    (∀ rcd n, rcd.length = 48 → checkRecord s (hostReader s m.die m.ctx) m.ctx m.die [] rcd = .ok n → n.ctx = m.ctx →
      Answers (.submit m [rcd]) s fun t => t.mem = s.mem ∧ Replies s t m 1 0 (natLe 4 n.id.toNat) ∧
        (∃ n', sget none t.pool s.next = some n' ∧ n'.id = n.id ∧ n'.rcd = n.rcd ∧ n'.ctx = m.ctx) ∧
        (ctxD t m.ctx).nextNode = nextId n.id) ∧
    (∀ addr d off bs, bs ≠ [] → bs.length ≤ 65536 → hostSpot s m.ctx addr bs.length true = .eaves d off →
      Answers (.memwr m addr bs) s fun t => Replies s t m 2 0 [] ∧ Wrote s t (placed (eavesLoc d off) bs)) ∧
    (∀ (addr : Dword) pa bs, bs ≠ [] → addr.toNat % 0x10000 + bs.length ≤ 0x10000 → addr.toNat + bs.length ≤ 2 ^ 56 → m.die < 8 →
      touchesRegion s m.ctx addr.toNat bs.length = false → MarkedLeaf s m.die m.ctx addr.toNat pa → pa + bs.length ≤ 2 ^ 52 →
      Answers (.memwr m addr bs) s fun t => Wrote s t (placed (viewLoc m.die pa) bs) ∧ SentFrom t m.die (placed pa bs) ∧
        t.outbox = s.outbox ∧ ∃ w, t.hostWaits = s.hostWaits ++ [w] ∧ w.ses = m.ses ∧ w.op = 2 ∧ w.tag = m.tag) ∧
    (∀ addr n d off, 0 < n → n ≤ 65536 → hostSpot s m.ctx addr n false = .eaves d off → isBad s (eavesLoc d off) n = false →
      Answers (.memrd m addr n) s fun t => Replies s t m 3 0 (readBytes s (eavesLoc d off) n) ∧ t.mem = s.mem) ∧
    (∀ (addr : Dword) pa n, 0 < n → addr.toNat % 0x10000 + n ≤ 0x10000 → addr.toNat + n ≤ 2 ^ 56 →
      (∀ i < n, regionAt s m.ctx (addr.toNat + i) = none) → MarkedLeaf s m.die m.ctx addr.toNat pa →
      (∀ i < n, isBad s (viewLoc m.die (pa + i)) 1 = false) →
      Answers (.memrd m addr n) s fun t => t.mem = s.mem ∧
        Replies s t m 3 0 ((List.range n).map fun i => viewByte s (dataKey s m.ctx) (viewLoc m.die (pa + i)))) ∧
    (∀ addr d off n, 0 < n → hostSpot s m.ctx addr n false = .eaves d off → s.hostWaits = [] → (∀ p ∈ s.pubs, p.msg = none) →
      Answers (.hostFlush m addr n) s fun t => t.mem = s.mem ∧ Replies s t m 4 0 []) ∧
    (Answers (.hostQuiesceRequest m) s fun t => t.mem = s.mem ∧ Replies s t m 5 0 [] ∧
      (ctxD t m.ctx).qState = if x.qState = 1 ∨ x.qState = 2 then x.qState else 1) ∧
    (Answers (.hostQuiesceRelease m) s fun t => t.mem = s.mem ∧ Replies s t m 5 0 [] ∧
      (ctxD t m.ctx).qState = if x.qState = 2 ∨ x.qState = 3 then 0 else x.qState) ∧
    (∀ rcd, collOk rcd = true → Answers (.coll m rcd) s fun t => t.mem = s.mem ∧ t.outbox = s.outbox ∧
      (dieOf t m.die).colls = (dieOf s m.die).colls ++ [⟨m.ctx, m.ses, m.tag, rcd, false⟩])) ∧
  (∀ s die c rest peers own pa, die < 8 → s.ctl.off = false → (dieOf s die).colls = c :: rest → collCount c.rcd = 1 →
    let mem := (groupOf s c.ctx (collGroup c.rcd)).2
    let addr := (rPair c.rcd 3).toNat
    peersOk mem 1 peers = true → hostReader s die c.ctx 1 (rPair c.rcd 1) = .ok [own] →
    regionAt s c.ctx addr = none → addr < 2 ^ 56 → addr % 4 = 0 → (rPair c.rcd 1).toNat + 4 ≤ 2 ^ 56 → MarkedLeaf s die c.ctx addr pa → pa + 4 ≤ 2 ^ 52 →
    ∀ data : List (Nat × List Word), data.Perm (((mem.headD (0, true)).1, [own]) :: peers) → data.Pairwise (fun a b => a.1 < b.1) →
      Answers (.collComplete die peers) s fun t => (dieOf t die).colls = rest ∧
        Wrote s t (placed (viewLoc die pa) (natLe 4 ((collResult (collOp c.rcd) 1 (data.map Prod.snd)).headD 0).toNat)) ∧
        ∃ w ∈ t.hostWaits, w.ses = c.ses ∧ w.op = 6 ∧ w.tag = c.tag ∧ w.status = (if c.shrank then 256 else 0) ∧
          w.tl = some ((rWord c.rcd 0).toNat / 0x10000 % 16, rPair c.rcd 6)) ∧
  (∀ s ctx x group rank, HasContext s ctx x → group ≤ 15 → let g := groupOf s ctx group
    (rank, false) ∉ g.2 → (g.2.headD (0, true)).1 ≠ rank →
    Answers (.collMemberFail ctx group rank) s fun t => t.mem = s.mem ∧ (groupOf t ctx group).1 = g.1 + 1 ∧
      (rank, false) ∈ (groupOf t ctx group).2 ∧ (rank, true) ∉ (groupOf t ctx group).2 ∧
      ∀ d c, c ∈ (dieOf t d).colls → c.ctx = ctx → collGroup c.rcd = group → c.shrank = true) ∧
  (∀ s, Answers .unreliablePacketDrop s fun t => sameButLast s t ∧ t.outbox = s.outbox ∧ t.ctl.drops = s.ctl.drops + 1) ∧
  (∀ s ses h n, s.ctl.off = false →
    (Malformed h n → exec (.malformedMessage ses ⟨h, n⟩) s = .next { s with outbox := s.outbox ++ [⟨ses,
      (h.getD 0 0).toNat / 2 ^ 24 % 128 + 0x80, (h.getD 0 0).toNat % 2 ^ 16, h.getD 1 0, 1, []⟩] }) ∧
    (¬ Malformed h n → exec (.malformedMessage ses ⟨h, n⟩) s = .next s))

/-- Loading and contexts: a piece that starts the object or goes on where the one before ended is held until the last one,
any other is refused and drops what is held; an object, once no write to a region that it designates is on its
way (log entry 107), that passes every check joins the context's
objects, one that fails is refused with its status; an object no longer used is unloaded; HANDLER names the trap entry;
CACHEINV drops translated modules; OPEN makes a context and binds the session, END ends one and zeroes its Eaves pages;
HEALTH answers SYS.POWER and SYS.CAPACITY (R177, R357–R364, R368). -/
def Obligations.LoadingAndContexts : Prop :=
  (∀ s m x, Commands s m x → mgmtBusy s m.ctx = false →
    let cleared : State := setSession m.ses (fun y => { y with load := [], holding := none }) s
    (∀ (piece : Word) bs whole, PieceOf s m.ses 0x10 piece bs whole → whole.length < 2 ^ 31 →
      (piece.toNat < 2 ^ 31 → Answers (.loadObj m piece bs) s fun t => t.mem = s.mem ∧ Replies s t m 0x10 0 [] ∧
        (sessionOf t m.ses).load = whole ∧ (sessionOf t m.ses).holding = some 0x10) ∧
      (2 ^ 31 ≤ piece.toNat → spansBusy s m.ctx whole = false →
        (∀ n d, loadObject m.ctx (some s.next) whole (taken cleared) = .error (n, d) →
          Answers (.loadObj m piece bs) s fun t => t.mem = s.mem ∧ Replies s t m 0x10 (d * 256 + n) [] ∧ t.ctxs = s.ctxs) ∧
        (∀ s' handle pay, loadObject m.ctx (some s.next) whole (taken cleared) = .ok (s', handle, pay) →
          Answers (.loadObj m piece bs) s fun t => t.mem = s'.mem ∧ RepliesLater t m 0x10 pay ∧ handle = x.nextHandle ∧
            ∃ o, (ctxD t m.ctx).objs = x.objs ++ [o] ∧ o.handle = handle))) ∧
    (∀ (piece : Word) bs, (∀ whole, ¬ PieceOf s m.ses 0x10 piece bs whole) →
      Answers (.loadObj m piece bs) s fun t => t.mem = s.mem ∧ Replies s t m 0x10 1 [] ∧ (sessionOf t m.ses).load = [] ∧
        (sessionOf t m.ses).holding = none) ∧
    (∀ (piece : Word) bs whole, PieceOf s m.ses 0x11 piece bs whole → whole.length < 2 ^ 31 →
      (piece.toNat < 2 ^ 31 → Answers (.loadp m piece bs) s fun t => t.mem = s.mem ∧ Replies s t m 0x11 0 [] ∧
        (sessionOf t m.ses).load = whole ∧ (sessionOf t m.ses).holding = some 0x11) ∧
      (∀ f s' handle pay, 2 ^ 31 ≤ piece.toNat → flashOf s (sha256 whole) = some f → spansBusy s m.ctx f.bytes = false →
        f.committed = true → loadObject m.ctx (some s.next) f.bytes (taken cleared) = .ok (s', handle, pay) →
        Answers (.loadp m piece bs) s fun t => t.mem = s'.mem ∧ RepliesLater t m 0x11 pay ∧
          ∃ o, (ctxD t m.ctx).objs = x.objs ++ [o] ∧ o.handle = handle) ∧
      (2 ^ 31 ≤ piece.toNat → flashOf s (sha256 whole) = none → parberBad whole ≠ 0 →
        Answers (.loadp m piece bs) s fun t => t.mem = s.mem ∧ Replies s t m 0x11 (parberBad whole * 256 + 24) [])) ∧
    (∀ (handle : Word), (∀ o ∈ x.objs, o.handle ≠ handle.toNat) →
      Answers (.unload m handle) s fun t => t.mem = s.mem ∧ Replies s t m 0x12 25 []) ∧
    (∀ (handle : Word) o s1 s2, x.objs.find? (fun o => o.handle = handle.toNat) = some o → unloadRefused s m.ctx o = false →
      unsealAll m.ctx o.images s = .ok s1 → releaseAllRegions m.ctx o.regions s1 = .ok s2 →
      Answers (.unload m handle) s fun t => RepliesLater t m 0x12 [] ∧
        (ctxD t m.ctx).objs = x.objs.filter (fun y => y.handle ≠ o.handle) ∧
        (∀ d ∈ (ctxD t m.ctx).serving, d.handle ≠ o.handle)) ∧
    (∀ name d e, x.serving.find? (fun d => d.name = name) = some d → handlerEntry s m.ctx d = some e →
      Answers (.handlerName m name) s fun t => t.mem = s.mem ∧ Replies s t m 0x13 0 (natLe 4 e) ∧
        (ctxD t m.ctx).trapEntry = w32 e ∧ (ctxD t m.ctx).trapValid = true) ∧
    (∀ key, key.length = 32 → Answers (.cacheinv m key) s fun t => t.mem = s.mem ∧ Replies s t m 0x14 0 [] ∧
      t.ctl.flashing = s.ctl.flashing.filter fun f => beNat key ≠ 0 ∧ f.digest ≠ beNat key)) ∧
  (∀ s m (w1 : Word), s.ctl.off = false → s.ctl.up = true → m.ctx = 0 → (sessionOf s m.ses).ctx = 0 →
    (w1.toNat < 0x10000 → s.ctl.lifecycle ≠ 3 → s.ctl.lifecycle ≠ 4 → heapFits s 1048576 = true → s.ctl.nextCtx ≤ 0xFFFF →
      (∀ k y, (k, y) ∈ sentries s.ctxs → y.eaves &&& w1.setWidth 16 = 0) →
      Answers (.openCtx m [0, w1] []) s fun t => let n := s.ctl.nextCtx
        t.mem = s.mem ∧ (∃ y, HasContext t n y ∧ y.eaves = w1.setWidth 16 ∧ y.vheap = 1048576) ∧ (sessionOf t m.ses).ctx = n ∧
        t.ctl.nextCtx = n + 1 ∧ t.outbox.getLast? = some (replyTo m 0x19 0 (natLe 4 n))) ∧
    (∀ psk, w1 = 0 → sha256 psk ∈ s.ctl.mgmtKeys →
      Answers (.openCtx m [1, w1] psk) s fun t => t.mem = s.mem ∧ (sessionOf t m.ses).ctx = 1 ∧
        t.outbox.getLast? = some (replyTo m 0x19 0 (natLe 4 1)))) ∧
  (∀ s m x, Commands s m x → m.ctx ≠ 1 →
    Answers (.endCtx m) s fun t => ctx? t m.ctx = none ∧ t.outbox.getLast? = some (replyTo m 0x1A 0 []) ∧
      (∀ gk g, gang? t gk = some g → g.ctx ≠ m.ctx) ∧ (∀ e ∈ t.queue, e.ctx ≠ m.ctx) ∧ (∀ e ∈ t.tlb, e.ctx ≠ m.ctx) ∧
      ∀ page < 16, x.eaves.getLsbD page = true → ∀ d < 8, ∀ i < 0x1000, readByte t (eavesLoc d (page * 0x1000 + i)) = 0) ∧
  (∀ s m x, Commands s m x → s.ctl.up = true →
    Answers (.healthQ m) s fun t => t.mem = s.mem ∧
      Replies s t m 0x1B 0 (natLe 4 (powerWord s).toNat ++ natLe 4 (capacityWord s).toNat))

/-- The controller: firmware that passes every check takes the dies out of reset, an image that fails one does not; the
security commands start and end, and an accepted token opens the debug port and ends every tenant; the lifecycle goes
forward only; the operating point changes by one step; power that is lost leaves fuses and flash; a core with an
uncorrectable control error, or a predicted failure, is fenced (R335–R340, R364–R373, R377). -/
def Obligations.ControllerActs : Prop :=
  (∀ s m (piece : Word) bs, s.ctl.off = false → s.ctl.up = false → m.ctx = 0 → bs.length ≤ 0x2FFFC → s.ctl.fwBad = false →
    piece.toNat % 2 ^ 31 = s.ctl.fwNext →
    (piece.toNat < 2 ^ 31 → Answers (.fwload m piece bs) s fun t => t.mem = s.mem ∧ Replies s t m 0x18 0 [] ∧
      t.ctl.fw = s.ctl.fw ++ bs ∧ t.ctl.fwNext = s.ctl.fwNext + bs.length ∧ t.ctl.up = false) ∧
    (2 ^ 31 ≤ piece.toNat → fwStatus s false (s.ctl.fw ++ bs) = 0 →
      Answers (.fwload m piece bs) s fun t => t.mem = s.mem ∧ Replies s t m 0x18 0 [] ∧ t.ctl.up = true ∧
        (∃ x, HasContext t 1 x) ∧ ∀ i, (measOf t i).2 = (measOf s i).2 + if i < 3 then 1 else 0) ∧
    (∀ n, 2 ^ 31 ≤ piece.toNat → fwStatus s false (s.ctl.fw ++ bs) = n → n ≠ 0 →
      Answers (.fwload m piece bs) s fun t => t.mem = s.mem ∧ Replies s t m 0x18 n [] ∧ t.ctl.up = false)) ∧
  (∀ s core x i op, HasContext s 1 x → s.ctl.secBusy = none → (i, op) ∈ [(Instr.secUnlock core, 1), (.secAttest core, 2), (.secIdentity core, 3)] →
    Answers i s fun t => sameButLast s t ∧ t.ctl.secOp = op ∧ t.ctl.secBusy = some { op := op, core := core, ctx := 1, addr := x.secAddr }) ∧
  (∀ s c, s.ctl.secBusy = some c →
    (∀ n lo hi, c.worked = some (n, lo, hi) → (∀ p ∈ s.pubs, ¬(lo ≤ p.id ∧ p.id < hi)) →
      Answers .secCommandDone s fun t => sameButLast s t ∧ t.ctl.secBusy = none ∧ t.ctl.secStatus = n) ∧
    (∀ token, c.op = 1 → c.worked = none → hostReader s (dieNo c.core) c.ctx 128 c.addr = .ok token →
      (tokenStatus s token ≠ 0 → Answers .secCommandDone s fun t => sameButLast s t ∧ t.ctl.secBusy = none ∧
        t.ctl.secStatus = tokenStatus s token ∧ t.ctl.port = s.ctl.port) ∧
      (tokenStatus s token = 0 → Answers .secCommandDone s fun t => t.ctl.secBusy = none ∧ t.ctl.secStatus = 0 ∧
        t.ctl.port = true ∧ t.ctl.dbgu = true ∧ (measOf t 7).2 = (measOf s 7).2 + 1 ∧ ∀ k, k ≠ 1 → ctx? t k = none))) ∧
  (∀ s, Answers .powerLoss s fun t => t.mem = [] ∧ t.ctl.off = true ∧ t.ctl.up = false ∧ t.gangs = [] ∧ t.ctxs = [] ∧
    t.ctl.lifecycle = s.ctl.lifecycle ∧ t.ctl.flashing = s.ctl.flashing ∧
    ((s.cores.map Prod.fst).Nodup → ∀ c, (coreOf t c).fenced = (coreOf s c).fenced)) ∧
  (∀ s, s.ctl.off = true → Answers .powerUp s fun t => sameButLast s t ∧ t.ctl.off = false ∧ t.ctl.up = false ∧
    ∀ f, f ∈ t.ctl.flashing ↔ f ∈ s.ctl.flashing ∧ f.committed = true) ∧
  (∀ s (st : BitVec 3), portOpen s = true →
    Answers (.lifecycleAdvance st) s fun t => sameButLast s t ∧ t.ctl.lifecycle =
      if st = 4 ∨ s.ctl.lifecycle.toNat < 3 ∧ st = s.ctl.lifecycle + 1 then st else s.ctl.lifecycle) ∧
  (∀ s u v (step : Bool) bp, portOpen s = true → viewOf s u = some v → debuggable s v = true → v.region = none →
    ∃ src, exec (.debugPortRequest u step bp) s = .next (drawn (raise
      { code := if step then 0x3C else 0x3B, d0 := if step then 0 else bp, source := src } v.lanes v s))) ∧
  (∀ s, s.ctl.off = false → s.ctl.oppChanging = false →
    (s.ctl.opp < 2 → Answers .oppLower s fun t => sameButLast s t ∧ t.ctl.opp = s.ctl.opp + 1 ∧ t.ctl.oppChanging = true) ∧
    (∀ since, s.ctl.oppAbsent = some since → s.ctl.opp ≠ 0 →
      Answers .oppRaise s fun t => sameButLast s t ∧ t.ctl.opp = s.ctl.opp - 1 ∧ t.ctl.oppChanging = true ∧ since + 100000 ≤ t.usec)) ∧
  (∀ s, s.ctl.oppChanging = true → Answers .oppChangeComplete s fun t => sameButLast s t ∧ t.ctl.oppChanging = false ∧
    t.ctl.opp = s.ctl.opp ∧ t.usec = max s.usec (s.ctl.oppSince + 20)) ∧
  (∀ s (rail : Bool) core, s.ctl.off = false → rail = true ∨ s.ctl.opp = 2 →
    Answers (.overLimitShutdown rail core) s fun t => t.ctl.off = true ∧ t.gangs = [] ∧ t.ctxs = [] ∧ t.mem = []) ∧
  (∀ s (purlin : Bool) unit addr, (purlin = true → unit < 8 ∧ addr < 0x80000000) → (purlin = false → unit < 1024 ∧ addr < 0x180000) →
    Answers (.scrubVisit purlin unit addr) s fun t => sameButLast s t ∧
      let first := (if purlin then purlinLoc unit (addr / 256 * 256) else spLoc unit (addr / 256 * 256)) / 4
      ∀ e, e ∈ t.bad ↔ e ∈ s.bad ∧ ¬(first ≤ e.1 ∧ e.1 < first + 64 ∧ e.2 = 1)) ∧
  (∀ s core, s.ctl.up = true → core < 1024 →
    Answers (.controlParityError core) s fun t => t.mem = s.mem ∧ (coreOf t core).fenced = true ∧
      ∀ k g, (k, g) ∈ sentries s.gangs → g.core = core → ctx? s g.ctx ≠ none → (ctxD t g.ctx).faulted = true) ∧
  (∀ s core, s.ctl.off = false → core < 1024 →
    ((coreOf s core).noUndervolt = false → Answers (.railUndervolt core) s fun t => sameButLast s t ∧ (coreOf t core).undervolt = true) ∧
    ((coreOf s core).watch = none → Answers (.errorRateThreshold core) s fun t => sameButLast s t ∧
      (coreOf t core).undervolt = false ∧ (coreOf t core).noUndervolt = true ∧ (coreOf t core).watch ≠ none)) ∧
  (∀ s core, Answers (.errorRateBelowThreshold core) s fun t => sameButLast s t ∧ (coreOf t core).watch = none ∧
    (coreOf t core).pf = (coreOf s core).pf) ∧
  (∀ s core since, (coreOf s core).watch = some since →
    Answers (.predictiveFailureTimeout core) s fun t => t.mem = s.mem ∧ (coreOf t core).pf = true ∧
      (coreOf t core).fenced = true ∧ since + 10000000 ≤ t.usec)

/-! ## Whole steps -/

/-- A STEP RUNS THE DECODED INSTRUCTION. The unit that the issue logic chooses on a pipe, without a pending cause, runs the
instruction that the four bytes at its counter decode to (in state code, the word of the sealed image); around it the step only
notes the choice, the hold of a W = 1 chain and that the gang has issued. A copy processor that is ready runs the instruction of its word; a step that the
module takes by itself, and an event of the agenda, run as themselves. -/
def Obligations.StepRunsDecodedWord : Prop :=
  (∀ s core pipe s0 ref u i, Turn s (.unit core pipe) s0 → choose s0 core pipe = some ref → pendingFor s0 ref = none →
    let s1 := prepare core pipe ref s0
    unitView s1 = some u →
    ((∃ p w, u.region = none ∧ vaCheck s1 (agentOf u) (4 * u.pc) 4 4 (BitVec.ofNat 64 (4 * u.pc)) false = .ok p ∧
        leNat (spotBytes s1 u.core u.ctx none p 4) = w ∧ decodeCompute (BitVec.ofNat 32 w) = .ok i) ∨
      (∃ r im, u.region = some r ∧ imageOf s1 u.ctx r.img = some im ∧ decodeCompute (im.code.getD u.pc 0) = .ok i)) →
    s1.mem = s.mem ∧ s1.cur = some ref ∧
    (∀ t, exec i s1 = .next t →
      let n := noteIssue ref s1 (noteHold core pipe ref s1 t)
      step s = .next n ∧ n.mem = t.mem ∧ n.insts = t.insts ∧
        ∀ gk, gang? n gk = gang? t gk ∨ gang? n gk = (gang? t gk).map fun g => { g with idle := false })) ∧
  (∀ s core p s0 w line i, Turn s (.copy core p) s0 → copyReady s0 core p = true →
    xpFetch s0 core p (xpOf s0 core p) = .word w line → decodeXp w = .ok i →
    step s = exec i { fillCache core p line s0 with cur := some (.xp core p) }) ∧
  (∀ s e s0, Turn s (.ev e) s0 → step s = exec e.instr s0) ∧
  (∀ s i rest, s.agenda = .event i :: rest → insideWord i = false → step s = exec i (tick { s with agenda := rest }))

/-- THE MACHINE NEVER STOPS: every step answers a next state. An instruction answers a next state in every state, but for a
word that no unit issues. -/
def Obligations.StepNeverStops : Prop :=
  (∀ s, ∃ t, step s = .next t) ∧ ∀ i s, (∃ t, exec i s = .next t) ∨ exec i s = .fault .noUnit

/-- THE FORM OF MEMORY IS KEPT by every step, from every state that has it; so is that of the granule owners. -/
def Obligations.StepKeepsForm : Prop :=
  ∀ s t, Canonical s → step s = .next t → Canonical t

/-- Right after power-up the dies are held in reset: no context, gang, instance or session exists, every queue is empty, and
memory has the canonical form, every byte reading as zero (log entry 3). The lifecycle is PRODUCTION (log entry 2), the operating
point the highest. A new context's bounds are those of R24, R132, R320, R330 and R332. -/
def Obligations.ResetState : Prop :=
  let s := State.reset
  Canonical s ∧ (∀ loc, readByte s loc = 0) ∧ s.ctxs = [] ∧ s.gangs = [] ∧ s.insts = [] ∧ s.sessions = [] ∧ s.pool = [] ∧
    s.queue = [] ∧ s.sb = [] ∧ s.pubs = [] ∧ s.homeq = [] ∧ s.gutter = [] ∧ s.tlb = [] ∧ s.ctl.up = false ∧ s.ctl.off = false ∧
    s.ctl.lifecycle = 2 ∧ s.ctl.opp = 0 ∧ s.ctl.secBusy = none ∧ s.ctl.port = false ∧ (∀ i, measOf s i = (0, 0)) ∧
    (∀ d, (dieOf s d).clock = List.replicate 8 0 ∧ (dieOf s d).stagger = 64 ∧ (dieOf s d).spread = true) ∧
    (∀ ctx core, (ccOf s ctx core).ageLimit = 512 ∧ ∀ n, dValid (descOf s ctx core n) = false) ∧
    let x : Context := {}
    x.waitBound = 1000 * 65536 + 1000 ∧ x.runBound = 1000 ∧ x.readmit = 64 ∧ x.budget = 40 ∧ x.qBound = 100 ∧ x.qState = 0 ∧
      x.trapValid = false ∧ x.nextNode = 1 ∧ ∀ k, sget 0 x.tl k = 0

end
end

