-- ==== Sys2Proof/Laws/Encoding.lean ====
section
/-!
SUPPORT. The fields of the words that the encoder builds: what each field of a layout reads.
-/
namespace Sys2Proof

theorem getLsbD_append_hi {v w : Nat} (x : BitVec v) (y : BitVec w) (i : Nat) (h : w ≤ i) :
    (x ++ y).getLsbD i = x.getLsbD (i - w) := by
  rw [BitVec.getLsbD_append, if_neg (by omega)]

theorem getLsbD_append_lo {v w : Nat} (x : BitVec v) (y : BitVec w) (i : Nat) (h : i < w) :
    (x ++ y).getLsbD i = y.getLsbD i := by
  rw [BitVec.getLsbD_append, if_pos h]

/-! ## Format A -/

theorem fOp_encA (p : Pipe) (op : BitVec 8) (d a b : BitVec 6) (s : BitVec 2) (w : Bool) (h : BitVec 2) : fOp (encA p op d a b s w h) = op := by
  unfold fOp encA
  change @BitVec.extractLsb' (1 + 8 + 6 + 6 + 6 + 2 + 1 + 2) 23 8 _ = _
  repeat rw [BitVec.extractLsb'_append_eq_of_le (by decide)]
  rw [BitVec.extractLsb'_append_eq_of_add_le (by decide), BitVec.extractLsb'_eq_self]

theorem fD_encA (p : Pipe) (op : BitVec 8) (d a b : BitVec 6) (s : BitVec 2) (w : Bool) (h : BitVec 2) : fD (encA p op d a b s w h) = d := by
  unfold fD encA
  change @BitVec.extractLsb' (1 + 8 + 6 + 6 + 6 + 2 + 1 + 2) 17 6 _ = _
  repeat rw [BitVec.extractLsb'_append_eq_of_le (by decide)]
  rw [BitVec.extractLsb'_append_eq_of_add_le (by decide), BitVec.extractLsb'_eq_self]

theorem fA_encA (p : Pipe) (op : BitVec 8) (d a b : BitVec 6) (s : BitVec 2) (w : Bool) (h : BitVec 2) : fA (encA p op d a b s w h) = a := by
  unfold fA encA
  change @BitVec.extractLsb' (1 + 8 + 6 + 6 + 6 + 2 + 1 + 2) 11 6 _ = _
  repeat rw [BitVec.extractLsb'_append_eq_of_le (by decide)]
  rw [BitVec.extractLsb'_append_eq_of_add_le (by decide), BitVec.extractLsb'_eq_self]

theorem fB_encA (p : Pipe) (op : BitVec 8) (d a b : BitVec 6) (s : BitVec 2) (w : Bool) (h : BitVec 2) : fB (encA p op d a b s w h) = b := by
  unfold fB encA
  change @BitVec.extractLsb' (1 + 8 + 6 + 6 + 6 + 2 + 1 + 2) 5 6 _ = _
  repeat rw [BitVec.extractLsb'_append_eq_of_le (by decide)]
  rw [BitVec.extractLsb'_append_eq_of_add_le (by decide), BitVec.extractLsb'_eq_self]

theorem fS_encA (p : Pipe) (op : BitVec 8) (d a b : BitVec 6) (s : BitVec 2) (w : Bool) (h : BitVec 2) : fS (encA p op d a b s w h) = s := by
  unfold fS encA
  change @BitVec.extractLsb' (1 + 8 + 6 + 6 + 6 + 2 + 1 + 2) 3 2 _ = _
  repeat rw [BitVec.extractLsb'_append_eq_of_le (by decide)]
  rw [BitVec.extractLsb'_append_eq_of_add_le (by decide), BitVec.extractLsb'_eq_self]

theorem fH_encA (p : Pipe) (op : BitVec 8) (d a b : BitVec 6) (s : BitVec 2) (w : Bool) (h : BitVec 2) : fH (encA p op d a b s w h) = h := by
  unfold fH encA
  change @BitVec.extractLsb' (1 + 8 + 6 + 6 + 6 + 2 + 1 + 2) 0 2 _ = _
  rw [BitVec.extractLsb'_append_eq_of_add_le (by decide), BitVec.extractLsb'_eq_self]

theorem fW_encA (p : Pipe) (op : BitVec 8) (d a b : BitVec 6) (s : BitVec 2) (w : Bool) (h : BitVec 2) : fW (encA p op d a b s w h) = w := by
  unfold fW encA
  change @BitVec.getLsbD (1 + 8 + 6 + 6 + 6 + 2 + 1 + 2) _ 2 = w
  rw [getLsbD_append_hi _ _ _ (by decide), getLsbD_append_lo _ _ _ (by decide)]
  cases w <;> rfl

theorem fPipe_encA (p : Pipe) (op : BitVec 8) (d a b : BitVec 6) (s : BitVec 2) (w : Bool) (h : BitVec 2) : fPipe (encA p op d a b s w h) = p := by
  have e : (encA p op d a b s w h).getLsbD 31 = (pipeBit p).getLsbD 0 := by
    unfold encA
    change @BitVec.getLsbD (1 + 8 + 6 + 6 + 6 + 2 + 1 + 2) _ 31 = _
    repeat rw [getLsbD_append_hi _ _ _ (by decide)]
  unfold fPipe
  rw [e]
  cases p <;> rfl

/-! ## Format W -/

theorem fOp_encW (p : Pipe) (op : BitVec 8) (d : BitVec 6) (m : BitVec 16) (hs : Bool) : fOp (encW p op d m hs) = op := by
  unfold fOp encW
  change @BitVec.extractLsb' (1 + 8 + 6 + 16 + 1) 23 8 _ = _
  repeat rw [BitVec.extractLsb'_append_eq_of_le (by decide)]
  rw [BitVec.extractLsb'_append_eq_of_add_le (by decide), BitVec.extractLsb'_eq_self]

theorem fD_encW (p : Pipe) (op : BitVec 8) (d : BitVec 6) (m : BitVec 16) (hs : Bool) : fD (encW p op d m hs) = d := by
  unfold fD encW
  change @BitVec.extractLsb' (1 + 8 + 6 + 16 + 1) 17 6 _ = _
  repeat rw [BitVec.extractLsb'_append_eq_of_le (by decide)]
  rw [BitVec.extractLsb'_append_eq_of_add_le (by decide), BitVec.extractLsb'_eq_self]

theorem fImm16_encW (p : Pipe) (op : BitVec 8) (d : BitVec 6) (m : BitVec 16) (hs : Bool) : fImm16 (encW p op d m hs) = m := by
  unfold fImm16 encW
  change @BitVec.extractLsb' (1 + 8 + 6 + 16 + 1) 1 16 _ = _
  repeat rw [BitVec.extractLsb'_append_eq_of_le (by decide)]
  rw [BitVec.extractLsb'_append_eq_of_add_le (by decide), BitVec.extractLsb'_eq_self]

theorem fHs_encW (p : Pipe) (op : BitVec 8) (d : BitVec 6) (m : BitVec 16) (hs : Bool) : fHs (encW p op d m hs) = hs := by
  unfold fHs encW
  change @BitVec.getLsbD (1 + 8 + 6 + 16 + 1) _ 0 = hs
  rw [getLsbD_append_lo _ _ _ (by decide)]
  cases hs <;> rfl

theorem fPipe_encW (p : Pipe) (op : BitVec 8) (d : BitVec 6) (m : BitVec 16) (hs : Bool) : fPipe (encW p op d m hs) = p := by
  have e : (encW p op d m hs).getLsbD 31 = (pipeBit p).getLsbD 0 := by
    unfold encW
    change @BitVec.getLsbD (1 + 8 + 6 + 16 + 1) _ 31 = _
    repeat rw [getLsbD_append_hi _ _ _ (by decide)]
  unfold fPipe
  rw [e]
  cases p <;> rfl

/-! ## Format B -/

theorem fOp_encB (op : BitVec 8) (q : BitVec 3) (pol : Bool) (f : BitVec 19) : fOp (encB op q pol f) = op := by
  unfold fOp encB
  change @BitVec.extractLsb' (1 + 8 + 3 + 1 + 19) 23 8 _ = _
  repeat rw [BitVec.extractLsb'_append_eq_of_le (by decide)]
  rw [BitVec.extractLsb'_append_eq_of_add_le (by decide), BitVec.extractLsb'_eq_self]

theorem fQi_encB (op : BitVec 8) (q : BitVec 3) (pol : Bool) (f : BitVec 19) : fQi (encB op q pol f) = q := by
  unfold fQi encB
  change @BitVec.extractLsb' (1 + 8 + 3 + 1 + 19) 20 3 _ = _
  repeat rw [BitVec.extractLsb'_append_eq_of_le (by decide)]
  rw [BitVec.extractLsb'_append_eq_of_add_le (by decide), BitVec.extractLsb'_eq_self]

theorem fOff19_encB (op : BitVec 8) (q : BitVec 3) (pol : Bool) (f : BitVec 19) : fOff19 (encB op q pol f) = f := by
  unfold fOff19 encB
  change @BitVec.extractLsb' (1 + 8 + 3 + 1 + 19) 0 19 _ = _
  rw [BitVec.extractLsb'_append_eq_of_add_le (by decide), BitVec.extractLsb'_eq_self]

theorem fPol_encB (op : BitVec 8) (q : BitVec 3) (pol : Bool) (f : BitVec 19) : fPol (encB op q pol f) = pol := by
  unfold fPol encB
  change @BitVec.getLsbD (1 + 8 + 3 + 1 + 19) _ 19 = pol
  rw [getLsbD_append_hi _ _ _ (by decide), getLsbD_append_lo _ _ _ (by decide)]
  cases pol <;> rfl

theorem fPipe_encB (op : BitVec 8) (q : BitVec 3) (pol : Bool) (f : BitVec 19) : fPipe (encB op q pol f) = .gang := by
  have e : (encB op q pol f).getLsbD 31 = (1#1).getLsbD 0 := by
    unfold encB
    change @BitVec.getLsbD (1 + 8 + 3 + 1 + 19) _ 31 = _
    repeat rw [getLsbD_append_hi _ _ _ (by decide)]
  unfold fPipe
  rw [e]
  rfl

/-! ## AUTO.ENTER -/

theorem fOp_encE (op : BitVec 8) (i : BitVec 6) (f : BitVec 17) : fOp (encE op i f) = op := by
  unfold fOp encE
  change @BitVec.extractLsb' (1 + 8 + 6 + 17) 23 8 _ = _
  repeat rw [BitVec.extractLsb'_append_eq_of_le (by decide)]
  rw [BitVec.extractLsb'_append_eq_of_add_le (by decide), BitVec.extractLsb'_eq_self]

theorem fD_encE (op : BitVec 8) (i : BitVec 6) (f : BitVec 17) : fD (encE op i f) = i := by
  unfold fD encE
  change @BitVec.extractLsb' (1 + 8 + 6 + 17) 17 6 _ = _
  repeat rw [BitVec.extractLsb'_append_eq_of_le (by decide)]
  rw [BitVec.extractLsb'_append_eq_of_add_le (by decide), BitVec.extractLsb'_eq_self]

theorem fOff17_encE (op : BitVec 8) (i : BitVec 6) (f : BitVec 17) : fOff17 (encE op i f) = f := by
  unfold fOff17 encE
  change @BitVec.extractLsb' (1 + 8 + 6 + 17) 0 17 _ = _
  rw [BitVec.extractLsb'_append_eq_of_add_le (by decide), BitVec.extractLsb'_eq_self]

theorem fPipe_encE (op : BitVec 8) (i : BitVec 6) (f : BitVec 17) : fPipe (encE op i f) = .gang := by
  have e : (encE op i f).getLsbD 31 = (1#1).getLsbD 0 := by
    unfold encE
    change @BitVec.getLsbD (1 + 8 + 6 + 17) _ 31 = _
    repeat rw [getLsbD_append_hi _ _ _ (by decide)]
  unfold fPipe
  rw [e]
  rfl

/-- Format A fields within B, as XRED, XSCAN and MDRAIN have them. -/
theorem fSel5_of_fB (w : Word) (x : BitVec 1) (e : BitVec 5) (h : fB w = x ++ e) : fSel5 w = e := by
  have : fSel5 w = (fB w).extractLsb' 0 5 := by
    unfold fSel5 fB
    ext i hi
    simp
    omega
  rw [this, h]
  change @BitVec.extractLsb' (1 + 5) 0 5 _ = _
  rw [BitVec.extractLsb'_append_eq_of_add_le (by decide), BitVec.extractLsb'_eq_self]

theorem fX_of_fB (w : Word) (x : Bool) (e : BitVec 5) (h : fB w = BitVec.ofBool x ++ e) : fX w = x := by
  have : fX w = (fB w).getLsbD 5 := by
    unfold fX fB
    simp
  rw [this, h]
  change @BitVec.getLsbD (1 + 5) _ 5 = x
  rw [getLsbD_append_hi _ _ _ (by decide)]
  cases x <;> rfl

theorem fSel3_of_fB (w : Word) (e : BitVec 3) (h : fB w = 0#3 ++ e) : fSel3 w = e := by
  have : fSel3 w = (fB w).extractLsb' 0 3 := by
    unfold fSel3 fB
    ext i hi
    simp
    omega
  rw [this, h]
  change @BitVec.extractLsb' (3 + 3) 0 3 _ = _
  rw [BitVec.extractLsb'_append_eq_of_add_le (by decide), BitVec.extractLsb'_eq_self]

theorem sysNo_append (n : BitVec 12) : n.extractLsb' 6 6 ++ n.extractLsb' 0 6 = n := by
  apply BitVec.eq_of_getLsbD_eq
  intro i hi
  by_cases h : i < 6
  · rw [getLsbD_append_lo _ _ _ h]
    simp [h]
  · rw [getLsbD_append_hi _ _ _ (by omega)]
    simp only [BitVec.getLsbD_extractLsb']
    rw [show 6 + (i - 6) = i by omega]
    simp
    omega

/-! ## The decoder on a word of the encoder -/

theorem decode_encA_shared (p : Pipe) (op : BitVec 8) (d a b : BitVec 6) (s : BitVec 2) (w : Bool)
    (h : BitVec 2) (ho : op.toNat < 0x40) :
    decodeCompute (encA p op d a b s w h) = decodeShared p (encA p op d a b s w h) op.toNat := by
  unfold decodeCompute
  rw [fOp_encA, fPipe_encA]
  exact if_pos ho

theorem decode_encA_lane (op : BitVec 8) (d a b : BitVec 6) (s : BitVec 2) (w : Bool) (h : BitVec 2)
    (ho : ¬ op.toNat < 0x40) :
    decodeCompute (encA .lane op d a b s w h) = decodeLane (encA .lane op d a b s w h) op.toNat := by
  unfold decodeCompute
  rw [fOp_encA, fPipe_encA]
  exact if_neg ho

theorem decode_encA_gang (op : BitVec 8) (d a b : BitVec 6) (s : BitVec 2) (w : Bool) (h : BitVec 2)
    (ho : ¬ op.toNat < 0x40) :
    decodeCompute (encA .gang op d a b s w h) = decodeGang (encA .gang op d a b s w h) op.toNat := by
  unfold decodeCompute
  rw [fOp_encA, fPipe_encA]
  exact if_neg ho

theorem decode_encW (p : Pipe) (d : BitVec 6) (m : BitVec 16) (hs : Bool) :
    decodeCompute (encW p 0x3E#8 d m hs) =
      if hs then .ok (.movh p d m) else .ok (.movl p d m) := by
  unfold decodeCompute
  rw [fOp_encW, fPipe_encW]
  refine (if_pos (by decide)).trans ?_
  change (if fHs (encW p 0x3E#8 d m hs) then Except.ok (Instr.movh p (fD _) (fImm16 _))
    else Except.ok (Instr.movl p (fD _) (fImm16 _))) = _
  rw [fHs_encW, fD_encW, fImm16_encW]

theorem decode_encB (op : BitVec 8) (q : BitVec 3) (pol : Bool) (f : BitVec 19) (ho : ¬ op.toNat < 0x40) :
    decodeCompute (encB op q pol f) = decodeGang (encB op q pol f) op.toNat := by
  unfold decodeCompute
  rw [fOp_encB, fPipe_encB]
  exact if_neg ho

theorem decode_encE (op : BitVec 8) (i : BitVec 6) (f : BitVec 17) (ho : ¬ op.toNat < 0x40) :
    decodeCompute (encE op i f) = decodeGang (encE op i f) op.toNat := by
  unfold decodeCompute
  rw [fOp_encE, fPipe_encE]
  exact if_neg ho

theorem rO3_encA (p : Pipe) (op : BitVec 8) (o : O3) : rO3 (encA p op o.d o.a o.b o.s o.w o.h) = o := by
  unfold rO3
  rw [fD_encA, fA_encA, fB_encA, fS_encA, fW_encA, fH_encA]

theorem rO2_encA (p : Pipe) (op : BitVec 8) (o : O2) (b : BitVec 6) :
    rO2 (encA p op o.d o.a b o.s o.w o.h) = o := by
  unfold rO2
  rw [fD_encA, fA_encA, fS_encA, fW_encA, fH_encA]

theorem rO3n_encA (p : Pipe) (op : BitVec 8) (o : O3n) (w : Bool) :
    rO3n (encA p op o.d o.a o.b o.s w o.h) = o := by
  unfold rO3n
  rw [fD_encA, fA_encA, fB_encA, fS_encA, fH_encA]

theorem rOAB_encA (p : Pipe) (op : BitVec 8) (o : OAB) (d : BitVec 6) (w : Bool) :
    rOAB (encA p op d o.a o.b o.s w o.h) = o := by
  unfold rOAB
  rw [fA_encA, fB_encA, fS_encA, fH_encA]

theorem rOA_encA (p : Pipe) (op : BitVec 8) (o : OA) (d b : BitVec 6) (w : Bool) :
    rOA (encA p op d o.a b o.s w o.h) = o := by
  unfold rOA
  rw [fA_encA, fS_encA, fH_encA]

theorem rOD_encA (p : Pipe) (op : BitVec 8) (o : OD) (a b : BitVec 6) :
    rOD (encA p op o.d a b o.s o.w o.h) = o := by
  unfold rOD
  rw [fD_encA, fS_encA, fW_encA, fH_encA]

theorem need_ok {c : Bool} {i : Instr} (h : c = true) : need c i = .ok i := by
  unfold need
  rw [h]
  rfl

theorem xneed_ok {c : Bool} {i : Instr} (h : c = true) : xneed c i = .ok i := by
  unfold xneed
  rw [h]
  rfl

theorem decodeXp_op {w : Word} {op : BitVec 6} (h30 : w.extractLsb' 30 2 ≠ 0x3#2)
    (h26 : w.extractLsb' 26 6 = op) : decodeXp w = decodeXpOp w op.toNat := by
  unfold decodeXp
  rw [h26, if_neg (by simpa using h30)]

/-- A port selector's upper three bits are not those of the lane forms (R277). -/
theorem drainPortOk_hi (b : BitVec 6) (h : drainPortOk b = true) : ¬ (b.extractLsb' 3 3 == 0#3) = true := by
  revert b
  decide

end Sys2Proof
end

