-- ==== Sys2Proof/Laws/Exec.lean ====
section
/-!
SUPPORT. The dispatch, arm by arm: what `exec` of each instruction is, so that no proof unfolds the
whole of it.
-/
namespace Sys2Proof.Machine

theorem exec_iaddA p o (s : State) : exec (.iaddA p o) s = execIaddA p o s := rfl
theorem exec_iaddI p o (s : State) : exec (.iaddI p o) s = execIaddI p o s := rfl
theorem exec_isubA p o (s : State) : exec (.isubA p o) s = execIsubA p o s := rfl
theorem exec_isubI p o (s : State) : exec (.isubI p o) s = execIsubI p o s := rfl
theorem exec_imulA p o (s : State) : exec (.imulA p o) s = execImulA p o s := rfl
theorem exec_imulI p o (s : State) : exec (.imulI p o) s = execImulI p o s := rfl
theorem exec_imulhS32 p o (s : State) : exec (.imulhS32 p o) s = execImulhS32 p o s := rfl
theorem exec_imulhN32 p o (s : State) : exec (.imulhN32 p o) s = execImulhN32 p o s := rfl
theorem exec_imad p o (s : State) : exec (.imad p o) s = execImad p o s := rfl
theorem exec_iaddSatS32 p o (s : State) : exec (.iaddSatS32 p o) s = execIaddSatS32 p o s := rfl
theorem exec_iaddSatN32 p o (s : State) : exec (.iaddSatN32 p o) s = execIaddSatN32 p o s := rfl
theorem exec_isubSatS32 p o (s : State) : exec (.isubSatS32 p o) s = execIsubSatS32 p o s := rfl
theorem exec_isubSatN32 p o (s : State) : exec (.isubSatN32 p o) s = execIsubSatN32 p o s := rfl
theorem exec_iminS32 p o (s : State) : exec (.iminS32 p o) s = execIminS32 p o s := rfl
theorem exec_iminN32 p o (s : State) : exec (.iminN32 p o) s = execIminN32 p o s := rfl
theorem exec_imaxS32 p o (s : State) : exec (.imaxS32 p o) s = execImaxS32 p o s := rfl
theorem exec_imaxN32 p o (s : State) : exec (.imaxN32 p o) s = execImaxN32 p o s := rfl
theorem exec_iabs p o (s : State) : exec (.iabs p o) s = execIabs p o s := rfl
theorem exec_iabsSat p o (s : State) : exec (.iabsSat p o) s = execIabsSat p o s := rfl
theorem exec_andA p o (s : State) : exec (.andA p o) s = execAndA p o s := rfl
theorem exec_orB p o (s : State) : exec (.orB p o) s = execOrB p o s := rfl
theorem exec_xorB p o (s : State) : exec (.xorB p o) s = execXorB p o s := rfl
theorem exec_andn p o (s : State) : exec (.andn p o) s = execAndn p o s := rfl
theorem exec_andI p o (s : State) : exec (.andI p o) s = execAndI p o s := rfl
theorem exec_shlA p o (s : State) : exec (.shlA p o) s = execShlA p o s := rfl
theorem exec_shlI p o (s : State) : exec (.shlI p o) s = execShlI p o s := rfl
theorem exec_shrA p o (s : State) : exec (.shrA p o) s = execShrA p o s := rfl
theorem exec_shrI p o (s : State) : exec (.shrI p o) s = execShrI p o s := rfl
theorem exec_sarA p o (s : State) : exec (.sarA p o) s = execSarA p o s := rfl
theorem exec_sarI p o (s : State) : exec (.sarI p o) s = execSarI p o s := rfl
theorem exec_rotA p o (s : State) : exec (.rotA p o) s = execRotA p o s := rfl
theorem exec_rotI p o (s : State) : exec (.rotI p o) s = execRotI p o s := rfl
theorem exec_bfxN32 p o (s : State) : exec (.bfxN32 p o) s = execBfxN32 p o s := rfl
theorem exec_bfxS32 p o (s : State) : exec (.bfxS32 p o) s = execBfxS32 p o s := rfl
theorem exec_bfi p o (s : State) : exec (.bfi p o) s = execBfi p o s := rfl
theorem exec_popc p o (s : State) : exec (.popc p o) s = execPopc p o s := rfl
theorem exec_clz p o (s : State) : exec (.clz p o) s = execClz p o s := rfl
theorem exec_brev p o (s : State) : exec (.brev p o) s = execBrev p o s := rfl
theorem exec_mov p o (s : State) : exec (.mov p o) s = execMov p o s := rfl
theorem exec_lea p o (s : State) : exec (.lea p o) s = execLea p o s := rfl
theorem exec_icmpEq p o (s : State) : exec (.icmpEq p o) s = execIcmpEq p o s := rfl
theorem exec_icmpNe p o (s : State) : exec (.icmpNe p o) s = execIcmpNe p o s := rfl
theorem exec_icmpLtS32 p o (s : State) : exec (.icmpLtS32 p o) s = execIcmpLtS32 p o s := rfl
theorem exec_icmpLeS32 p o (s : State) : exec (.icmpLeS32 p o) s = execIcmpLeS32 p o s := rfl
theorem exec_icmpGtS32 p o (s : State) : exec (.icmpGtS32 p o) s = execIcmpGtS32 p o s := rfl
theorem exec_icmpGeS32 p o (s : State) : exec (.icmpGeS32 p o) s = execIcmpGeS32 p o s := rfl
theorem exec_icmpLtN32 p o (s : State) : exec (.icmpLtN32 p o) s = execIcmpLtN32 p o s := rfl
theorem exec_icmpLeN32 p o (s : State) : exec (.icmpLeN32 p o) s = execIcmpLeN32 p o s := rfl
theorem exec_sel p o (s : State) : exec (.sel p o) s = execSel p o s := rfl
theorem exec_icmpGtN32 p o (s : State) : exec (.icmpGtN32 p o) s = execIcmpGtN32 p o s := rfl
theorem exec_icmpGeN32 p o (s : State) : exec (.icmpGeN32 p o) s = execIcmpGeN32 p o s := rfl
theorem exec_iaddSatS16 p o (s : State) : exec (.iaddSatS16 p o) s = execIaddSatS16 p o s := rfl
theorem exec_iaddSatN16 p o (s : State) : exec (.iaddSatN16 p o) s = execIaddSatN16 p o s := rfl
theorem exec_isubSatS16 p o (s : State) : exec (.isubSatS16 p o) s = execIsubSatS16 p o s := rfl
theorem exec_isubSatN16 p o (s : State) : exec (.isubSatN16 p o) s = execIsubSatN16 p o s := rfl
theorem exec_iaddS16 p o (s : State) : exec (.iaddS16 p o) s = execIaddS16 p o s := rfl
theorem exec_iaddN16 p o (s : State) : exec (.iaddN16 p o) s = execIaddN16 p o s := rfl
theorem exec_isubS16 p o (s : State) : exec (.isubS16 p o) s = execIsubS16 p o s := rfl
theorem exec_isubN16 p o (s : State) : exec (.isubN16 p o) s = execIsubN16 p o s := rfl
theorem exec_imulS16 p o (s : State) : exec (.imulS16 p o) s = execImulS16 p o s := rfl
theorem exec_imulN16 p o (s : State) : exec (.imulN16 p o) s = execImulN16 p o s := rfl
theorem exec_imulSat p o (s : State) : exec (.imulSat p o) s = execImulSat p o s := rfl
theorem exec_movl p d m (s : State) : exec (.movl p d m) s = execMovl p d m s := rfl
theorem exec_movh p d m (s : State) : exec (.movh p d m) s = execMovh p d m s := rfl
theorem exec_faddF32 o (s : State) : exec (.faddF32 o) s = execFaddF32 o s := rfl
theorem exec_fsubF32 o (s : State) : exec (.fsubF32 o) s = execFsubF32 o s := rfl
theorem exec_fmulF32 o (s : State) : exec (.fmulF32 o) s = execFmulF32 o s := rfl
theorem exec_ffmaF32 o (s : State) : exec (.ffmaF32 o) s = execFfmaF32 o s := rfl
theorem exec_fminF32 o (s : State) : exec (.fminF32 o) s = execFminF32 o s := rfl
theorem exec_fmaxF32 o (s : State) : exec (.fmaxF32 o) s = execFmaxF32 o s := rfl
theorem exec_faddF16 o (s : State) : exec (.faddF16 o) s = execFaddF16 o s := rfl
theorem exec_fsubF16 o (s : State) : exec (.fsubF16 o) s = execFsubF16 o s := rfl
theorem exec_fmulF16 o (s : State) : exec (.fmulF16 o) s = execFmulF16 o s := rfl
theorem exec_ffmaF16 o (s : State) : exec (.ffmaF16 o) s = execFfmaF16 o s := rfl
theorem exec_fminF16 o (s : State) : exec (.fminF16 o) s = execFminF16 o s := rfl
theorem exec_fmaxF16 o (s : State) : exec (.fmaxF16 o) s = execFmaxF16 o s := rfl
theorem exec_faddBf16 o (s : State) : exec (.faddBf16 o) s = execFaddBf16 o s := rfl
theorem exec_fsubBf16 o (s : State) : exec (.fsubBf16 o) s = execFsubBf16 o s := rfl
theorem exec_fmulBf16 o (s : State) : exec (.fmulBf16 o) s = execFmulBf16 o s := rfl
theorem exec_ffmaBf16 o (s : State) : exec (.ffmaBf16 o) s = execFfmaBf16 o s := rfl
theorem exec_fminBf16 o (s : State) : exec (.fminBf16 o) s = execFminBf16 o s := rfl
theorem exec_fmaxBf16 o (s : State) : exec (.fmaxBf16 o) s = execFmaxBf16 o s := rfl
theorem exec_fcmpEq o (s : State) : exec (.fcmpEq o) s = execFcmpEq o s := rfl
theorem exec_fcmpLt o (s : State) : exec (.fcmpLt o) s = execFcmpLt o s := rfl
theorem exec_fcmpLe o (s : State) : exec (.fcmpLe o) s = execFcmpLe o s := rfl
theorem exec_fcmpUn o (s : State) : exec (.fcmpUn o) s = execFcmpUn o s := rfl
theorem exec_fscale o (s : State) : exec (.fscale o) s = execFscale o s := rfl
theorem exec_fabs o (s : State) : exec (.fabs o) s = execFabs o s := rfl
theorem exec_fneg o (s : State) : exec (.fneg o) s = execFneg o s := rfl
theorem exec_frcp o (s : State) : exec (.frcp o) s = execFrcp o s := rfl
theorem exec_frsq o (s : State) : exec (.frsq o) s = execFrsq o s := rfl
theorem exec_fsqrt o (s : State) : exec (.fsqrt o) s = execFsqrt o s := rfl
theorem exec_fexp2 o (s : State) : exec (.fexp2 o) s = execFexp2 o s := rfl
theorem exec_flog2 o (s : State) : exec (.flog2 o) s = execFlog2 o s := rfl
theorem exec_fcvt o (s : State) : exec (.fcvt o) s = execFcvt o s := rfl
theorem exec_fclass o (s : State) : exec (.fclass o) s = execFclass o s := rfl
theorem exec_byteq o (s : State) : exec (.byteq o) s = execByteq o s := rfl
theorem exec_bfind o (s : State) : exec (.bfind o) s = execBfind o s := rfl
theorem exec_bperm o (s : State) : exec (.bperm o) s = execBperm o s := rfl
theorem exec_crcC o (s : State) : exec (.crcC o) s = execCrcC o s := rfl
theorem exec_hmix o (s : State) : exec (.hmix o) s = execHmix o s := rfl
theorem exec_dfaStep4 o (s : State) : exec (.dfaStep4 o) s = execDfaStep4 o s := rfl
theorem exec_rngSeed o (s : State) : exec (.rngSeed o) s = execRngSeed o s := rfl
theorem exec_rngNext o (s : State) : exec (.rngNext o) s = execRngNext o s := rfl
theorem exec_prune o (s : State) : exec (.prune o) s = execPrune o s := rfl
theorem exec_ballot o (s : State) : exec (.ballot o) s = execBallot o s := rfl
theorem exec_shflIdx o (s : State) : exec (.shflIdx o) s = execShflIdx o s := rfl
theorem exec_shflXor o (s : State) : exec (.shflXor o) s = execShflXor o s := rfl
theorem exec_shflUp o (s : State) : exec (.shflUp o) s = execShflUp o s := rfl
theorem exec_shflDown o (s : State) : exec (.shflDown o) s = execShflDown o s := rfl
theorem exec_xred o e (s : State) : exec (.xred o e) s = execXred o e s := rfl
theorem exec_xscan o x e (s : State) : exec (.xscan o x e) s = execXscan o x e s := rfl
theorem exec_isect o (s : State) : exec (.isect o) s = execIsect o s := rfl
theorem exec_matchL o (s : State) : exec (.matchL o) s = execMatchL o s := rfl
theorem exec_bcast o (s : State) : exec (.bcast o) s = execBcast o s := rfl
theorem exec_bnext o (s : State) : exec (.bnext o) s = execBnext o s := rfl
theorem exec_setblk o (s : State) : exec (.setblk o) s = execSetblk o s := rfl
theorem exec_ldS16A o (s : State) : exec (.ldS16A o) s = execLdS16A o s := rfl
theorem exec_ldS16I o (s : State) : exec (.ldS16I o) s = execLdS16I o s := rfl
theorem exec_ldN16A o (s : State) : exec (.ldN16A o) s = execLdN16A o s := rfl
theorem exec_ldN16I o (s : State) : exec (.ldN16I o) s = execLdN16I o s := rfl
theorem exec_ldB32A o (s : State) : exec (.ldB32A o) s = execLdB32A o s := rfl
theorem exec_ldB32I o (s : State) : exec (.ldB32I o) s = execLdB32I o s := rfl
theorem exec_stB32A o (s : State) : exec (.stB32A o) s = execStB32A o s := rfl
theorem exec_stB32I o (s : State) : exec (.stB32I o) s = execStB32I o s := rfl
theorem exec_stN16A o (s : State) : exec (.stN16A o) s = execStN16A o s := rfl
theorem exec_stN16I o (s : State) : exec (.stN16I o) s = execStN16I o s := rfl
theorem exec_ldc o (s : State) : exec (.ldc o) s = execLdc o s := rfl
theorem exec_stc o (s : State) : exec (.stc o) s = execStc o s := rfl
theorem exec_atomAdd o (s : State) : exec (.atomAdd o) s = execAtomAdd o s := rfl
theorem exec_atomAnd o (s : State) : exec (.atomAnd o) s = execAtomAnd o s := rfl
theorem exec_atomOr o (s : State) : exec (.atomOr o) s = execAtomOr o s := rfl
theorem exec_atomXor o (s : State) : exec (.atomXor o) s = execAtomXor o s := rfl
theorem exec_atomMinS32 o (s : State) : exec (.atomMinS32 o) s = execAtomMinS32 o s := rfl
theorem exec_atomMaxS32 o (s : State) : exec (.atomMaxS32 o) s = execAtomMaxS32 o s := rfl
theorem exec_atomMinN32 o (s : State) : exec (.atomMinN32 o) s = execAtomMinN32 o s := rfl
theorem exec_atomMaxN32 o (s : State) : exec (.atomMaxN32 o) s = execAtomMaxN32 o s := rfl
theorem exec_atomXchg o (s : State) : exec (.atomXchg o) s = execAtomXchg o s := rfl
theorem exec_atomCas o (s : State) : exec (.atomCas o) s = execAtomCas o s := rfl
theorem exec_redMAdd o (s : State) : exec (.redMAdd o) s = execRedMAdd o s := rfl
theorem exec_redMAddF32 o (s : State) : exec (.redMAddF32 o) s = execRedMAddF32 o s := rfl
theorem exec_redMMinS32 o (s : State) : exec (.redMMinS32 o) s = execRedMMinS32 o s := rfl
theorem exec_redMMaxS32 o (s : State) : exec (.redMMaxS32 o) s = execRedMMaxS32 o s := rfl
theorem exec_redMMinN32 o (s : State) : exec (.redMMinN32 o) s = execRedMMinN32 o s := rfl
theorem exec_redMMaxN32 o (s : State) : exec (.redMMaxN32 o) s = execRedMMaxN32 o s := rfl
theorem exec_ldv o (s : State) : exec (.ldv o) s = execLdv o s := rfl
theorem exec_stv o (s : State) : exec (.stv o) s = execStv o s := rfl
theorem exec_vlatest o (s : State) : exec (.vlatest o) s = execVlatest o s := rfl
theorem exec_ldgA o (s : State) : exec (.ldgA o) s = execLdgA o s := rfl
theorem exec_ldgI o (s : State) : exec (.ldgI o) s = execLdgI o s := rfl
theorem exec_stgA o (s : State) : exec (.stgA o) s = execStgA o s := rfl
theorem exec_stgI o (s : State) : exec (.stgI o) s = execStgI o s := rfl
theorem exec_vpin o (s : State) : exec (.vpin o) s = execVpin o s := rfl
theorem exec_vunpin o (s : State) : exec (.vunpin o) s = execVunpin o s := rfl
theorem exec_vfloor o (s : State) : exec (.vfloor o) s = execVfloor o s := rfl
theorem exec_spalloc o (s : State) : exec (.spalloc o) s = execSpalloc o s := rfl
theorem exec_sprenew o (s : State) : exec (.sprenew o) s = execSprenew o s := rfl
theorem exec_sprenewZ o (s : State) : exec (.sprenewZ o) s = execSprenewZ o s := rfl
theorem exec_spfree o (s : State) : exec (.spfree o) s = execSpfree o s := rfl
theorem exec_spinfo o (s : State) : exec (.spinfo o) s = execSpinfo o s := rfl
theorem exec_pkst o (s : State) : exec (.pkst o) s = execPkst o s := rfl
theorem exec_pkld o (s : State) : exec (.pkld o) s = execPkld o s := rfl
theorem exec_fence o (s : State) : exec (.fence o) s = execFence o s := rfl
theorem exec_flush o (s : State) : exec (.flush o) s = execFlush o s := rfl
theorem exec_tdLoad o (s : State) : exec (.tdLoad o) s = execTdLoad o s := rfl
theorem exec_tdSet o (s : State) : exec (.tdSet o) s = execTdSet o s := rfl
theorem exec_mload o (s : State) : exec (.mload o) s = execMload o s := rfl
theorem exec_mswap sx h (s : State) : exec (.mswap sx h) s = execMswap sx h s := rfl
theorem exec_mstream o (s : State) : exec (.mstream o) s = execMstream o s := rfl
theorem exec_mzero o (s : State) : exec (.mzero o) s = execMzero o s := rfl
theorem exec_mdrain o e (s : State) : exec (.mdrain o e) s = execMdrain o e s := rfl
theorem exec_mdrainXp o (s : State) : exec (.mdrainXp o) s = execMdrainXp o s := rfl
theorem exec_mtile o (s : State) : exec (.mtile o) s = execMtile o s := rfl
theorem exec_mstat o (s : State) : exec (.mstat o) s = execMstat o s := rfl
theorem exec_bra f (s : State) : exec (.bra f) s = execBra f s := rfl
theorem exec_brcAny q pol f (s : State) : exec (.brcAny q pol f) s = execBrcAny q pol f s := rfl
theorem exec_brcAll q pol f (s : State) : exec (.brcAll q pol f) s = execBrcAll q pol f s := rfl
theorem exec_call f (s : State) : exec (.call f) s = execCall f s := rfl
theorem exec_ret o (s : State) : exec (.ret o) s = execRet o s := rfl
theorem exec_regang sx (s : State) : exec (.regang sx) s = execRegang sx s := rfl
theorem exec_exitG sx (s : State) : exec (.exitG sx) s = execExitG sx s := rfl
theorem exec_nop sx (s : State) : exec (.nop sx) s = execNop sx s := rfl
theorem exec_yield sx (s : State) : exec (.yield sx) s = execYield sx s := rfl
theorem exec_autoEnter i f (s : State) : exec (.autoEnter i f) s = execAutoEnter i f s := rfl
theorem exec_autoStep (s : State) : exec (.autoStep) s = execAutoStep s := rfl
theorem exec_autoExit (s : State) : exec (.autoExit) s = execAutoExit s := rfl
theorem exec_barInit o (s : State) : exec (.barInit o) s = execBarInit o s := rfl
theorem exec_barArrive o (s : State) : exec (.barArrive o) s = execBarArrive o s := rfl
theorem exec_barWait o (s : State) : exec (.barWait o) s = execBarWait o s := rfl
theorem exec_barArm o (s : State) : exec (.barArm o) s = execBarArm o s := rfl
theorem exec_barTest o (s : State) : exec (.barTest o) s = execBarTest o s := rfl
theorem exec_cohJoin o (s : State) : exec (.cohJoin o) s = execCohJoin o s := rfl
theorem exec_cohLeave o (s : State) : exec (.cohLeave o) s = execCohLeave o s := rfl
theorem exec_cohInfo o (s : State) : exec (.cohInfo o) s = execCohInfo o s := rfl
theorem exec_nodePost o (s : State) : exec (.nodePost o) s = execNodePost o s := rfl
theorem exec_tlWait o (s : State) : exec (.tlWait o) s = execTlWait o s := rfl
theorem exec_tlRead o (s : State) : exec (.tlRead o) s = execTlRead o s := rfl
theorem exec_xpStart o (s : State) : exec (.xpStart o) s = execXpStart o s := rfl
theorem exec_xpStatus o (s : State) : exec (.xpStatus o) s = execXpStatus o s := rfl
theorem exec_idem sx (s : State) : exec (.idem sx) s = execIdem sx s := rfl
theorem exec_contOpen a sx (s : State) : exec (.contOpen a sx) s = execContOpen a sx s := rfl
theorem exec_contClose sx (s : State) : exec (.contClose sx) s = execContClose sx s := rfl
theorem exec_trap n sx (s : State) : exec (.trap n sx) s = execTrap n sx s := rfl
theorem exec_rett (s : State) : exec .rett s = execRett s := rfl
theorem exec_sysrd d n sx w h (s : State) : exec (.sysrd d n sx w h) s = execSysrd d n sx w h s := rfl
theorem exec_syswr d n sx h (s : State) : exec (.syswr d n sx h) s = execSyswr d n sx h s := rfl
theorem exec_stepMark sx (s : State) : exec (.stepMark sx) s = execStepMark sx s := rfl
theorem exec_movsGet d i w h (s : State) : exec (.movsGet d i w h) s = execMovsGet d i w h s := rfl
theorem exec_movsPut i a h (s : State) : exec (.movsPut i a h) s = execMovsPut i a h s := rfl
theorem exec_xpNop (s : State) : exec (.xpNop) s = execXpNop s := rfl
theorem exec_xpHalt (s : State) : exec (.xpHalt) s = execXpHalt s := rfl
theorem exec_xpMovi d hs m (s : State) : exec (.xpMovi d hs m) s = execXpMovi d hs m s := rfl
theorem exec_xpLdx d l o (s : State) : exec (.xpLdx d l o) s = execXpLdx d l o s := rfl
theorem exec_xpAddReg o (s : State) : exec (.xpAddReg o) s = execXpAddReg o s := rfl
theorem exec_xpAddImm o (s : State) : exec (.xpAddImm o) s = execXpAddImm o s := rfl
theorem exec_xpSubReg o (s : State) : exec (.xpSubReg o) s = execXpSubReg o s := rfl
theorem exec_xpSubImm o (s : State) : exec (.xpSubImm o) s = execXpSubImm o s := rfl
theorem exec_xpMulReg o (s : State) : exec (.xpMulReg o) s = execXpMulReg o s := rfl
theorem exec_xpMulImm o (s : State) : exec (.xpMulImm o) s = execXpMulImm o s := rfl
theorem exec_xpShlReg o (s : State) : exec (.xpShlReg o) s = execXpShlReg o s := rfl
theorem exec_xpShlImm o (s : State) : exec (.xpShlImm o) s = execXpShlImm o s := rfl
theorem exec_xpShrReg o (s : State) : exec (.xpShrReg o) s = execXpShrReg o s := rfl
theorem exec_xpShrImm o (s : State) : exec (.xpShrImm o) s = execXpShrImm o s := rfl
theorem exec_xpAndReg o (s : State) : exec (.xpAndReg o) s = execXpAndReg o s := rfl
theorem exec_xpAndImm o (s : State) : exec (.xpAndImm o) s = execXpAndImm o s := rfl
theorem exec_xpOrReg o (s : State) : exec (.xpOrReg o) s = execXpOrReg o s := rfl
theorem exec_xpOrImm o (s : State) : exec (.xpOrImm o) s = execXpOrImm o s := rfl
theorem exec_xpCmpEqReg o (s : State) : exec (.xpCmpEqReg o) s = execXpCmpEqReg o s := rfl
theorem exec_xpCmpEqImm o (s : State) : exec (.xpCmpEqImm o) s = execXpCmpEqImm o s := rfl
theorem exec_xpCmpNeReg o (s : State) : exec (.xpCmpNeReg o) s = execXpCmpNeReg o s := rfl
theorem exec_xpCmpNeImm o (s : State) : exec (.xpCmpNeImm o) s = execXpCmpNeImm o s := rfl
theorem exec_xpCmpLtReg o (s : State) : exec (.xpCmpLtReg o) s = execXpCmpLtReg o s := rfl
theorem exec_xpCmpLtImm o (s : State) : exec (.xpCmpLtImm o) s = execXpCmpLtImm o s := rfl
theorem exec_xpCmpLtuReg o (s : State) : exec (.xpCmpLtuReg o) s = execXpCmpLtuReg o s := rfl
theorem exec_xpCmpLtuImm o (s : State) : exec (.xpCmpLtuImm o) s = execXpCmpLtuImm o s := rfl
theorem exec_xpBr f (s : State) : exec (.xpBr f) s = execXpBr f s := rfl
theorem exec_xpBz a f (s : State) : exec (.xpBz a f) s = execXpBz a f s := rfl
theorem exec_xpBnz a f (s : State) : exec (.xpBnz a f) s = execXpBnz a f s := rfl
theorem exec_xpLoopReg a f (s : State) : exec (.xpLoopReg a f) s = execXpLoopReg a f s := rfl
theorem exec_xpLoopImm a m f (s : State) : exec (.xpLoopImm a m f) s = execXpLoopImm a m f s := rfl
theorem exec_xpEndl (s : State) : exec (.xpEndl) s = execXpEndl s := rfl
theorem exec_xpCurSet k n (s : State) : exec (.xpCurSet k n) s = execXpCurSet k n s := rfl
theorem exec_xpCurStepReg k d a (s : State) : exec (.xpCurStepReg k d a) s = execXpCurStepReg k d a s := rfl
theorem exec_xpCurStepImm k d m (s : State) : exec (.xpCurStepImm k d m) s = execXpCurStepImm k d m s := rfl
theorem exec_xpCurAt k d w a (s : State) : exec (.xpCurAt k d w a) s = execXpCurAt k d w a s := rfl
theorem exec_xpMove d sx nb st b (s : State) : exec (.xpMove d sx nb st b) s = execXpMove d sx nb st b s := rfl
theorem exec_xpMoveA d nb st b (s : State) : exec (.xpMoveA d nb st b) s = execXpMoveA d nb st b s := rfl
theorem exec_xpMovePk d nb st b (s : State) : exec (.xpMovePk d nb st b) s = execXpMovePk d nb st b s := rfl
theorem exec_xpVpub d sx nb st b v (s : State) : exec (.xpVpub d sx nb st b v) s = execXpVpub d sx nb st b v s := rfl
theorem exec_xpFollow sx a r z (s : State) : exec (.xpFollow sx a r z) s = execXpFollow sx a r z s := rfl
theorem exec_xpPsel sx q l k (s : State) : exec (.xpPsel sx q l k) s = execXpPsel sx q l k s := rfl
theorem exec_xpArrive n (s : State) : exec (.xpArrive n) s = execXpArrive n s := rfl
theorem exec_xpWaitb a n (s : State) : exec (.xpWaitb a n) s = execXpWaitb a n s := rfl
theorem exec_xpTlsig k l (s : State) : exec (.xpTlsig k l) s = execXpTlsig k l s := rfl
theorem exec_xpMoveG k d sx l st b (s : State) : exec (.xpMoveG k d sx l st b) s = execXpMoveG k d sx l st b s := rfl
theorem exec_autoSeal ctx core v (s : State) : exec (.autoSeal ctx core v) s = execAutoSeal ctx core v s := rfl
theorem exec_autoUnseal ctx v (s : State) : exec (.autoUnseal ctx v) s = execAutoUnseal ctx v s := rfl
theorem exec_vregDesignate ctx core v (s : State) : exec (.vregDesignate ctx core v) s = execVregDesignate ctx core v s := rfl
theorem exec_vregRelease ctx core v (s : State) : exec (.vregRelease ctx core v) s = execVregRelease ctx core v s := rfl
theorem exec_secUnlock core (s : State) : exec (.secUnlock core) s = execSecUnlock core s := rfl
theorem exec_secAttest core (s : State) : exec (.secAttest core) s = execSecAttest core s := rfl
theorem exec_secIdentity core (s : State) : exec (.secIdentity core) s = execSecIdentity core s := rfl
theorem exec_secCommandDone (s : State) : exec (.secCommandDone) s = execSecCommandDone s := rfl
theorem exec_tlbInvPage ctx v (s : State) : exec (.tlbInvPage ctx v) s = execTlbInvPage ctx v s := rfl
theorem exec_tlbInvAll ctx v (s : State) : exec (.tlbInvAll ctx v) s = execTlbInvAll ctx v s := rfl
theorem exec_tlbInvComplete ctx (s : State) : exec (.tlbInvComplete ctx) s = execTlbInvComplete ctx s := rfl
theorem exec_ptRootWrite ctx high v (s : State) : exec (.ptRootWrite ctx high v) s = execPtRootWrite ctx high v s := rfl
theorem exec_quiesceRequest ctx (s : State) : exec (.quiesceRequest ctx) s = execQuiesceRequest ctx s := rfl
theorem exec_quiesceRelease ctx (s : State) : exec (.quiesceRelease ctx) s = execQuiesceRelease ctx s := rfl
theorem exec_waitBoundWrite ctx v (s : State) : exec (.waitBoundWrite ctx v) s = execWaitBoundWrite ctx v s := rfl
theorem exec_runBoundWrite ctx v (s : State) : exec (.runBoundWrite ctx v) s = execRunBoundWrite ctx v s := rfl
theorem exec_vdirDataRead ctx (s : State) : exec (.vdirDataRead ctx) s = execVdirDataRead ctx s := rfl
theorem exec_submit m recs (s : State) : exec (.submit m recs) s = execSubmit m recs s := rfl
theorem exec_memwr m addr bytes (s : State) : exec (.memwr m addr bytes) s = execMemwr m addr bytes s := rfl
theorem exec_memrd m addr len (s : State) : exec (.memrd m addr len) s = execMemrd m addr len s := rfl
theorem exec_hostFlush m addr len (s : State) : exec (.hostFlush m addr len) s = execHostFlush m addr len s := rfl
theorem exec_hostQuiesceRequest m (s : State) : exec (.hostQuiesceRequest m) s = execHostQuiesceRequest m s := rfl
theorem exec_hostQuiesceRelease m (s : State) : exec (.hostQuiesceRelease m) s = execHostQuiesceRelease m s := rfl
theorem exec_coll m rec (s : State) : exec (.coll m rec) s = execColl m rec s := rfl
theorem exec_collComplete die peers (s : State) : exec (.collComplete die peers) s = execCollComplete die peers s := rfl
theorem exec_collMemberFail ctx group rank (s : State) : exec (.collMemberFail ctx group rank) s = execCollMemberFail ctx group rank s := rfl
theorem exec_loadObj m piece bytes (s : State) : exec (.loadObj m piece bytes) s = execLoadObj m piece bytes s := rfl
theorem exec_loadp m piece bytes (s : State) : exec (.loadp m piece bytes) s = execLoadp m piece bytes s := rfl
theorem exec_unload m handle (s : State) : exec (.unload m handle) s = execUnload m handle s := rfl
theorem exec_handlerName m name (s : State) : exec (.handlerName m name) s = execHandlerName m name s := rfl
theorem exec_cacheinv m key (s : State) : exec (.cacheinv m key) s = execCacheinv m key s := rfl
theorem exec_fwload m piece bytes (s : State) : exec (.fwload m piece bytes) s = execFwload m piece bytes s := rfl
theorem exec_openCtx m payload psk (s : State) : exec (.openCtx m payload psk) s = execOpenCtx m payload psk s := rfl
theorem exec_endCtx m (s : State) : exec (.endCtx m) s = execEndCtx m s := rfl
theorem exec_healthQ m (s : State) : exec (.healthQ m) s = execHealthQ m s := rfl
theorem exec_pageServiceAnswer rec resolved (s : State) : exec (.pageServiceAnswer rec resolved) s = execPageServiceAnswer rec resolved s := rfl
theorem exec_unreliablePacketDrop (s : State) : exec (.unreliablePacketDrop) s = execUnreliablePacketDrop s := rfl
theorem exec_issueQueuePerform id lane (s : State) : exec (.issueQueuePerform id lane) s = execIssueQueuePerform id lane s := rfl
theorem exec_storeBufferApply id (s : State) : exec (.storeBufferApply id) s = execStoreBufferApply id s := rfl
theorem exec_applyQueueTake die id (s : State) : exec (.applyQueueTake die id) s = execApplyQueueTake die id s := rfl
theorem exec_homeUpdateArrival id (s : State) : exec (.homeUpdateArrival id) s = execHomeUpdateArrival id s := rfl
theorem exec_gutterReplay id (s : State) : exec (.gutterReplay id) s = execGutterReplay id s := rfl
theorem exec_translationWalkComplete die ctx page (s : State) : exec (.translationWalkComplete die ctx page) s = execTranslationWalkComplete die ctx page s := rfl
theorem exec_barArrivalCounted id (s : State) : exec (.barArrivalCounted id) s = execBarArrivalCounted id s := rfl
theorem exec_cohJoinTimeout u (s : State) : exec (.cohJoinTimeout u) s = execCohJoinTimeout u s := rfl
theorem exec_barWaitBoundExpire u (s : State) : exec (.barWaitBoundExpire u) s = execBarWaitBoundExpire u s := rfl
theorem exec_tlWaitBoundExpire u (s : State) : exec (.tlWaitBoundExpire u) s = execTlWaitBoundExpire u s := rfl
theorem exec_versionWaitBoundExpire u (s : State) : exec (.versionWaitBoundExpire u) s = execVersionWaitBoundExpire u s := rfl
theorem exec_vpubPublish core xp cmd (s : State) : exec (.vpubPublish core xp cmd) s = execVpubPublish core xp cmd s := rfl
theorem exec_copyProgramBegin core xp (s : State) : exec (.copyProgramBegin core xp) s = execCopyProgramBegin core xp s := rfl
theorem exec_copyWriteComplete core xp cmd dst (s : State) : exec (.copyWriteComplete core xp cmd dst) s = execCopyWriteComplete core xp cmd dst s := rfl
theorem exec_copyCommandComplete core xp cmd (s : State) : exec (.copyCommandComplete core xp cmd) s = execCopyCommandComplete core xp cmd s := rfl
theorem exec_copyWaitBoundExpire core xp (s : State) : exec (.copyWaitBoundExpire core xp) s = execCopyWaitBoundExpire core xp s := rfl
theorem exec_followMtileIssue core xp slot (s : State) : exec (.followMtileIssue core xp slot) s = execFollowMtileIssue core xp slot s := rfl
theorem exec_matrixCommandExecute core (s : State) : exec (.matrixCommandExecute core) s = execMatrixCommandExecute core s := rfl
theorem exec_drainPortBoundExpire core (s : State) : exec (.drainPortBoundExpire core) s = execDrainPortBoundExpire core s := rfl
theorem exec_matrixStateSave core (s : State) : exec (.matrixStateSave core) s = execMatrixStateSave core s := rfl
theorem exec_matrixStateRestore core (s : State) : exec (.matrixStateRestore core) s = execMatrixStateRestore core s := rfl
theorem exec_purlinRefreshStart die (s : State) : exec (.purlinRefreshStart die) s = execPurlinRefreshStart die s := rfl
theorem exec_purlinRefreshEnd die (s : State) : exec (.purlinRefreshEnd die) s = execPurlinRefreshEnd die s := rfl
theorem exec_holdLapse u p (s : State) : exec (.holdLapse u p) s = execHoldLapse u p s := rfl
theorem exec_yieldExpire u (s : State) : exec (.yieldExpire u) s = execYieldExpire u s := rfl
theorem exec_ageLimitReached u (s : State) : exec (.ageLimitReached u) s = execAgeLimitReached u s := rfl
theorem exec_deferredCauseDelivery gk (s : State) : exec (.deferredCauseDelivery gk) s = execDeferredCauseDelivery gk s := rfl
theorem exec_handlerInstanceStart core (s : State) : exec (.handlerInstanceStart core) s = execHandlerInstanceStart core s := rfl
theorem exec_runBoundWatchdog u (s : State) : exec (.runBoundWatchdog u) s = execRunBoundWatchdog u s := rfl
theorem exec_admitUnit node cores (s : State) : exec (.admitUnit node cores) s = execAdmitUnit node cores s := rfl
theorem exec_admissionSkipTimeout node (s : State) : exec (.admissionSkipTimeout node) s = execAdmissionSkipTimeout node s := rfl
theorem exec_gangSaveComplete gk (s : State) : exec (.gangSaveComplete gk) s = execGangSaveComplete gk s := rfl
theorem exec_gangReadmit gk (s : State) : exec (.gangReadmit gk) s = execGangReadmit gk s := rfl
theorem exec_readmitBoundSwap ctx core (s : State) : exec (.readmitBoundSwap ctx core) s = execReadmitBoundSwap ctx core s := rfl
theorem exec_sweeperRenew ctx core idx (s : State) : exec (.sweeperRenew ctx core idx) s = execSweeperRenew ctx core idx s := rfl
theorem exec_bufferRestoreStart ctx core idx (s : State) : exec (.bufferRestoreStart ctx core idx) s = execBufferRestoreStart ctx core idx s := rfl
theorem exec_bufferRestoreComplete ctx core idx (s : State) : exec (.bufferRestoreComplete ctx core idx) s = execBufferRestoreComplete ctx core idx s := rfl
theorem exec_quiesceCutComplete ctx (s : State) : exec (.quiesceCutComplete ctx) s = execQuiesceCutComplete ctx s := rfl
theorem exec_quiesceBoundExpire ctx (s : State) : exec (.quiesceBoundExpire ctx) s = execQuiesceBoundExpire ctx s := rfl
theorem exec_nodeComplete node (s : State) : exec (.nodeComplete node) s = execNodeComplete node s := rfl
theorem exec_scrubVisit purlin unit addr (s : State) : exec (.scrubVisit purlin unit addr) s = execScrubVisit purlin unit addr s := rfl
theorem exec_controlParityError core (s : State) : exec (.controlParityError core) s = execControlParityError core s := rfl
theorem exec_errorRateThreshold core (s : State) : exec (.errorRateThreshold core) s = execErrorRateThreshold core s := rfl
theorem exec_predictiveFailureTimeout core (s : State) : exec (.predictiveFailureTimeout core) s = execPredictiveFailureTimeout core s := rfl
theorem exec_oppLower (s : State) : exec (.oppLower) s = execOppLower s := rfl
theorem exec_oppRaise (s : State) : exec (.oppRaise) s = execOppRaise s := rfl
theorem exec_oppChangeComplete (s : State) : exec (.oppChangeComplete) s = execOppChangeComplete s := rfl
theorem exec_overLimitShutdown rail core (s : State) : exec (.overLimitShutdown rail core) s = execOverLimitShutdown rail core s := rfl
theorem exec_powerUp (s : State) : exec (.powerUp) s = execPowerUp s := rfl
theorem exec_lifecycleAdvance st (s : State) : exec (.lifecycleAdvance st) s = execLifecycleAdvance st s := rfl
theorem exec_bufferExpiry ctx core idx (s : State) : exec (.bufferExpiry ctx core idx) s = execBufferExpiry ctx core idx s := rfl
theorem exec_renewalComplete ctx core idx (s : State) : exec (.renewalComplete ctx core idx) s = execRenewalComplete ctx core idx s := rfl
theorem exec_ridgeLinkError gk lanes target pc (s : State) : exec (.ridgeLinkError gk lanes target pc) s = execRidgeLinkError gk lanes target pc s := rfl
theorem exec_powerLoss (s : State) : exec (.powerLoss) s = execPowerLoss s := rfl
theorem exec_debugPortRequest u step bp (s : State) : exec (.debugPortRequest u step bp) s = execDebugPortRequest u step bp s := rfl
theorem exec_malformedMessage ses m (s : State) :
    exec (.malformedMessage ses m) s = execMalformedMessage ses m s := rfl
theorem exec_railUndervolt core (s : State) : exec (.railUndervolt core) s = execRailUndervolt core s := rfl
theorem exec_errorRateBelowThreshold core (s : State) : exec (.errorRateBelowThreshold core) s = execErrorRateBelowThreshold core s := rfl

end Sys2Proof.Machine
end

