-- ==== Sys2Proof/Laws/Integer.lean ====
section
/-!
SUPPORT. The functions of the integer instructions in exact arithmetic: each equals its result in whole
numbers, wrapped, clamped or cut as the manual says.
-/
namespace Sys2Proof.Machine
open Sys2Proof.Claims

theorem imm6_toInt (f : BitVec 6) : (imm6 f).toInt = imm f := by
  unfold imm6 imm; exact BitVec.toInt_signExtend_of_le (by decide)

theorem exact_add (a b : Word) : a + b = int32 (a.toInt + b.toInt) := by
  unfold int32; rw [BitVec.ofInt_add]; simp

theorem exact_sub (a b : Word) : a - b = int32 (a.toInt - b.toInt) := by
  unfold int32; rw [Int.sub_eq_add_neg, BitVec.ofInt_add, BitVec.ofInt_neg, BitVec.sub_eq_add_neg]; simp

theorem exact_mul (a b : Word) : a * b = int32 (a.toInt * b.toInt) := by
  unfold int32; rw [BitVec.ofInt_mul]; simp

theorem exact_addI (a : Word) (b : BitVec 6) : a + imm6 b = int32 (a.toInt + imm b) := by rw [exact_add, imm6_toInt]

theorem exact_mad (a b d : Word) : a * b + d = int32 (a.toInt * b.toInt + d.toInt) := by
  unfold int32; rw [BitVec.ofInt_add, BitVec.ofInt_mul]; simp

theorem exact_mulhS (a b : Word) : mulhS a b = int32 (a.toInt * b.toInt / 2 ^ 32) := by
  unfold mulhS int32
  apply BitVec.eq_of_toNat_eq
  simp [BitVec.toNat_ofInt, BitVec.extractLsb'_toNat, Nat.shiftRight_eq_div_pow]
  omega

theorem exact_mulhN (a b : Word) : mulhN a b = w32 (a.toNat * b.toNat / 2 ^ 32) := by
  unfold mulhN w32
  apply BitVec.eq_of_toNat_eq
  have := a.isLt; have := b.isLt
  have : a.toNat * b.toNat < 2^64 := by
    calc a.toNat * b.toNat < 2^32 * 2^32 := Nat.mul_lt_mul'' a.isLt b.isLt
      _ = 2^64 := by norm_num
  simp [BitVec.extractLsb'_toNat, Nat.shiftRight_eq_div_pow]
  omega

theorem exact_clampI (lo hi x : Int) (h : lo ≤ hi) : clampI lo hi x = clamped lo hi x := by
  unfold clampI clamped; split <;> [skip; split] <;> omega

theorem exact_satS32 (x : Int) : satS32 x = int32 (clamped (-2^31) (2^31-1) x) := by
  unfold satS32 wordI int32; rw [exact_clampI _ _ _ (by decide)]; rfl

theorem exact_satN32 (x : Int) : satN32 x = int32 (clamped 0 (2^32-1) x) := by
  unfold satN32 wordI int32; rw [exact_clampI _ _ _ (by decide)]; rfl

theorem exact_satS16 (x : Int) : satS16 x = int32 (clamped (-2^15) (2^15-1) x) := by
  unfold satS16 wordI int32; rw [exact_clampI _ _ _ (by decide)]; rfl

theorem exact_satN16 (x : Int) : satN16 x = int32 (clamped 0 (2^16-1) x) := by
  unfold satN16 wordI int32; rw [exact_clampI _ _ _ (by decide)]; rfl

theorem int32_toInt (a : Word) : int32 a.toInt = a := by unfold int32; simp

theorem w32_toNat (a : Word) : w32 a.toNat = a := by unfold w32; simp

theorem exact_minS (a b : Word) : (if b.slt a then b else a) = int32 (min a.toInt b.toInt) := by
  rw [BitVec.slt_eq_decide]
  by_cases h : b.toInt < a.toInt
  · rw [min_eq_right (by omega), int32_toInt]; simp [h]
  · rw [min_eq_left (by omega), int32_toInt]; simp [h]

theorem exact_maxS (a b : Word) : (if a.slt b then b else a) = int32 (max a.toInt b.toInt) := by
  rw [BitVec.slt_eq_decide]
  by_cases h : a.toInt < b.toInt
  · rw [max_eq_right (by omega), int32_toInt]; simp [h]
  · rw [max_eq_left (by omega), int32_toInt]; simp [h]

theorem exact_minN (a b : Word) : (if b.ult a then b else a) = w32 (min a.toNat b.toNat) := by
  rw [BitVec.ult_eq_decide]
  by_cases h : b.toNat < a.toNat
  · rw [min_eq_right (by omega), w32_toNat]; simp [h]
  · rw [min_eq_left (by omega), w32_toNat]; simp [h]

theorem exact_maxN (a b : Word) : (if a.ult b then b else a) = w32 (max a.toNat b.toNat) := by
  rw [BitVec.ult_eq_decide]
  by_cases h : a.toNat < b.toNat
  · rw [max_eq_right (by omega), w32_toNat]; simp [h]
  · rw [max_eq_left (by omega), w32_toNat]; simp [h]

theorem exact_abs (a : Word) : absW a = int32 a.toInt.natAbs := by
  unfold absW
  rw [BitVec.msb_eq_toInt]
  by_cases h : a.toInt < 0
  · rw [if_pos (by simpa using h)]
    have : (a.toInt.natAbs : Int) = 0 - a.toInt := by omega
    rw [this, exact_sub]; rfl
  · rw [if_neg (by simpa using h)]
    have : (a.toInt.natAbs : Int) = a.toInt := by omega
    rw [this, int32_toInt]

theorem exact_absSat (a : Word) : absSatW a = int32 (min (2^31-1) a.toInt.natAbs) := by
  unfold absSatW
  have hl := BitVec.le_toInt a; have hu := BitVec.toInt_lt (x := a)
  by_cases h : a = 0x80000000#32
  · subst h; rfl
  · rw [if_neg h, exact_abs, min_eq_right]
    have : a.toInt ≠ -2^31 := by
      intro e; apply h; apply BitVec.eq_of_toInt_eq; rw [e]; rfl
    simp at hl hu
    omega

theorem exact_shl (a : Word) (n : Nat) : (if n ≥ 32 then 0 else a <<< n) = w32 (a.toNat * 2 ^ n) := by
  apply BitVec.eq_of_toNat_eq
  unfold w32
  split
  · rename_i h
    obtain ⟨k, rfl⟩ : ∃ k, n = 32 + k := ⟨n - 32, by omega⟩
    have : a.toNat * 2 ^ (32 + k) = (a.toNat * 2 ^ k) * 4294967296 := by rw [Nat.pow_add]; ring
    simp [this]
  · simp [Nat.shiftLeft_eq]

theorem exact_shr (a : Word) (n : Nat) : (if n ≥ 32 then 0 else a >>> n) = w32 (a.toNat / 2 ^ n) := by
  apply BitVec.eq_of_toNat_eq
  unfold w32
  have := a.isLt
  split
  · rename_i h
    have : a.toNat < 2 ^ n := lt_of_lt_of_le this (Nat.pow_le_pow_right (by decide) h)
    simp [Nat.div_eq_of_lt this]
  · have : a.toNat / 2 ^ n ≤ a.toNat := Nat.div_le_self _ _
    have e : a.toNat / 2 ^ n % 4294967296 = a.toNat / 2 ^ n := Nat.mod_eq_of_lt (by omega)
    simp [Nat.shiftRight_eq_div_pow, e]

theorem exact_sar (a : Word) (n : Nat) : (if n ≥ 32 then a.sshiftRight 31 else a.sshiftRight n) = int32 (a.toInt / 2 ^ n) := by
  apply BitVec.eq_of_toInt_eq
  unfold int32
  have hl := BitVec.le_toInt a; have hu := BitVec.toInt_lt (x := a)
  simp at hl hu
  have hb : ∀ k : Nat, -2147483648 ≤ a.toInt / 2 ^ k ∧ a.toInt / 2 ^ k < 2147483648 := by
    intro k
    have hp : (0 : Int) < 2 ^ k := by positivity
    constructor
    · rw [Int.le_ediv_iff_mul_le hp]; nlinarith
    · rw [Int.ediv_lt_iff_lt_mul hp]; nlinarith
  have hr : (BitVec.ofInt 32 (a.toInt / 2 ^ n)).toInt = a.toInt / 2 ^ n := by
    rw [BitVec.toInt_ofInt]
    have := hb n
    apply Int.bmod_eq_of_le <;> simp <;> omega
  rw [hr]
  split
  · rename_i h
    rw [BitVec.toInt_sshiftRight, Int.shiftRight_eq_div_pow]
    have hp : (2:Int) ^ 31 ≤ 2 ^ n := by exact_mod_cast Nat.pow_le_pow_right (by decide) (by omega)
    rcases lt_or_ge a.toInt 0 with h0 | h0
    · have e1 : a.toInt / 2 ^ n = -1 := by
        have hp' : (0 : Int) < 2 ^ n := by positivity
        have l1 : -1 ≤ a.toInt / 2 ^ n := by rw [Int.le_ediv_iff_mul_le hp']; omega
        have l2 : a.toInt / 2 ^ n < 0 := by rw [Int.ediv_lt_iff_lt_mul hp']; omega
        omega
      rw [e1]; omega
    · have e1 : a.toInt / 2 ^ n = 0 := Int.ediv_eq_zero_of_lt h0 (by omega)
      rw [e1]; omega
  · rw [BitVec.toInt_sshiftRight, Int.shiftRight_eq_div_pow]
    norm_cast

theorem exact_rot (a : Word) (k : Nat) (h : k < 32) : a.rotateLeft k = w32 (rotated a.toNat k) := by
  apply BitVec.eq_of_toNat_eq
  unfold w32 rotated
  have ha := a.isLt
  rw [BitVec.rotateLeft_def, Nat.mod_eq_of_lt h]
  have e1 : a.toNat / 2 ^ (32 - k) < 2 ^ k := by
    rw [Nat.div_lt_iff_lt_mul (by positivity), ← Nat.pow_add]
    have : k + (32 - k) = 32 := by omega
    rw [this]; exact ha
  have e2 : a.toNat * 2 ^ k % 2 ^ 32 = 2 ^ k * (a.toNat % 2 ^ (32 - k)) := by
    have : 2 ^ 32 = 2 ^ k * 2 ^ (32 - k) := by rw [← Nat.pow_add]; congr 1; omega
    rw [this, Nat.mul_comm a.toNat, Nat.mul_mod_mul_left]
  rw [BitVec.toNat_or, BitVec.toNat_shiftLeft, BitVec.toNat_ushiftRight, Nat.shiftLeft_eq, Nat.shiftRight_eq_div_pow, e2,
    ← Nat.two_pow_add_eq_or_of_lt e1, BitVec.toNat_ofNat]
  symm
  apply Nat.mod_eq_of_lt
  have h3 : a.toNat % 2 ^ (32 - k) < 2 ^ (32 - k) := Nat.mod_lt _ (by positivity)
  have h4 : 2 ^ 32 = 2 ^ k * 2 ^ (32 - k) := by rw [← Nat.pow_add]; congr 1; omega
  rw [h4]
  nlinarith [Nat.mul_le_mul_left (2 ^ k) (Nat.succ_le_of_lt h3)]

theorem mask_and (x p w : Nat) : x &&& ((2 ^ w - 1) * 2 ^ p) = x / 2 ^ p % 2 ^ w * 2 ^ p := by
  apply Nat.eq_of_testBit_eq
  intro i
  rw [Nat.testBit_and, Nat.testBit_mul_two_pow, Nat.testBit_mul_two_pow, Nat.testBit_two_pow_sub_one, Nat.testBit_mod_two_pow, Nat.testBit_div_two_pow]
  by_cases h : p ≤ i
  · simp [h, Bool.and_comm]
  · simp [h]

theorem fieldPos_eq (b : Word) : fieldPos b = fieldAt b := rfl

theorem fieldWidth_eq (b : Word) : fieldWidth b = fieldBits b := rfl

theorem exact_bfxN (a b : Word) : bfxN a b = w32 (a.toNat / 2 ^ fieldAt b % 2 ^ fieldBits b) := by
  apply BitVec.eq_of_toNat_eq
  unfold bfxN fieldMask w32
  rw [fieldPos_eq, fieldWidth_eq]
  have hw : fieldAt b + fieldBits b ≤ 32 := by unfold fieldAt fieldBits; omega
  have hm : (2 ^ fieldBits b - 1) * 2 ^ fieldAt b < 2 ^ 32 := by
    have h1 : 2 ^ fieldBits b * 2 ^ fieldAt b ≤ 2 ^ 32 := by
      rw [← Nat.pow_add]; exact Nat.pow_le_pow_right (by decide) (by omega)
    have h2 : 0 < 2 ^ fieldBits b := by positivity
    have h3 : 0 < 2 ^ fieldAt b := by positivity
    calc _ < 2 ^ fieldBits b * 2 ^ fieldAt b := Nat.mul_lt_mul_of_pos_right (by omega) h3
      _ ≤ _ := h1
  rw [BitVec.toNat_ushiftRight, BitVec.toNat_and, BitVec.toNat_ofNat, Nat.mod_eq_of_lt hm, mask_and, Nat.shiftRight_eq_div_pow,
    Nat.mul_div_cancel _ (by positivity), BitVec.toNat_ofNat]
  symm
  apply Nat.mod_eq_of_lt
  calc _ ≤ a.toNat / 2 ^ fieldAt b := Nat.mod_le _ _
    _ ≤ a.toNat := Nat.div_le_self _ _
    _ < _ := a.isLt

theorem ofInt_congr {x y : Int} (h : x % 4294967296 = y % 4294967296) : BitVec.ofInt 32 x = BitVec.ofInt 32 y := by
  apply BitVec.eq_of_toNat_eq
  rw [BitVec.toNat_ofInt, BitVec.toNat_ofInt]
  norm_num
  rw [h]

theorem w32_int (n : Nat) : w32 n = int32 n := by
  unfold w32 int32
  exact (BitVec.ofInt_natCast 32 n).symm

theorem bmod_word (y w : Nat) (hw : w ≤ 32) (h0 : w ≠ 0) :
    (if y % 2 ^ w ≥ 2 ^ (w - 1) then w32 (y % 2 ^ w + 0x100000000 - 2 ^ w) else w32 (y % 2 ^ w)) =
      int32 (Int.bmod y (2 ^ w)) := by
  obtain ⟨k, rfl⟩ : ∃ k, w = k + 1 := ⟨w - 1, by omega⟩
  have hp : 2 ^ (k + 1) = 2 * 2 ^ k := by ring
  have hle : 2 ^ (k + 1) ≤ 4294967296 := by
    calc 2 ^ (k + 1) ≤ 2 ^ 32 := Nat.pow_le_pow_right (by decide) hw
      _ = 4294967296 := by norm_num
  have hc : (y : Int) % ((2 ^ (k + 1) : Nat) : Int) = ((y % 2 ^ (k + 1) : Nat) : Int) := (Int.natCast_mod _ _).symm
  have hm : y % 2 ^ (k + 1) < 2 ^ (k + 1) := Nat.mod_lt _ (by positivity)
  unfold Int.bmod
  rw [hc]
  simp only [Nat.add_sub_cancel]
  generalize y % 2 ^ (k + 1) = r at *
  rw [hp] at *
  generalize 2 ^ k = q at *
  rw [w32_int, w32_int]
  by_cases h : r ≥ q
  · rw [if_pos h, if_neg (by push_cast; omega)]
    apply ofInt_congr
    push_cast
    omega
  · rw [if_neg h, if_pos (by push_cast; omega)]

theorem exact_bfxS (a b : Word) : bfxS a b = int32 (Int.bmod (a.toNat / 2 ^ fieldAt b) (2 ^ fieldBits b)) := by
  unfold bfxS
  rw [exact_bfxN, fieldWidth_eq]
  have hw : fieldBits b ≤ 32 := by unfold fieldBits; omega
  have e : (w32 (a.toNat / 2 ^ fieldAt b % 2 ^ fieldBits b)).toNat = a.toNat / 2 ^ fieldAt b % 2 ^ fieldBits b := by
    unfold w32
    rw [BitVec.toNat_ofNat]
    apply Nat.mod_eq_of_lt
    calc _ ≤ a.toNat / 2 ^ fieldAt b := Nat.mod_le _ _
      _ ≤ a.toNat := Nat.div_le_self _ _
      _ < _ := a.isLt
  have hd : ((a.toNat : Int) / 2 ^ fieldAt b) = ((a.toNat / 2 ^ fieldAt b : Nat) : Int) := by norm_cast
  rw [hd]
  simp only [e]
  generalize a.toNat / 2 ^ fieldAt b = y at *
  by_cases h0 : fieldBits b = 0
  · rw [if_pos h0, h0]
    simp [Int.bmod_one, int32]
  · rw [if_neg h0]
    exact bmod_word y _ hw h0

theorem mask_bit (b : Word) (k : Nat) (hk : k < 32) : (fieldMask b).getLsbD k = (decide (fieldAt b ≤ k) && decide (k < fieldAt b + fieldBits b)) := by
  unfold fieldMask w32
  rw [fieldPos_eq, fieldWidth_eq, BitVec.getLsbD_ofNat, Nat.testBit_mul_two_pow, Nat.testBit_two_pow_sub_one]
  by_cases h : fieldAt b ≤ k
  · simp [h, hk]; omega
  · simp [h]

theorem ofList_bit (f : Nat → Bool) (k : Nat) (hk : k < 32) :
    (BitVec.ofBoolListLE ((List.range 32).map f)).getLsbD k = f k := by
  rw [BitVec.getLsbD_ofBoolListLE]
  simp [hk]

theorem ofList_eq (f : Nat → Bool) (x : Word) (h : ∀ k, k < 32 → x.getLsbD k = f k) : x = BitVec.ofBoolListLE ((List.range 32).map f) := by
  apply BitVec.eq_of_getLsbD_eq
  intro i hi
  have e := ofList_bit f i hi
  rw [h i hi]
  exact e.symm

theorem exact_bfi (d a b : Word) : bfiW d a b = BitVec.ofBoolListLE ((List.range 32).map fun k =>
    if fieldAt b ≤ k ∧ k < fieldAt b + fieldBits b then a.getLsbD (k - fieldAt b) else d.getLsbD k) := by
  apply ofList_eq
  intro k hk
  unfold bfiW
  rw [BitVec.getLsbD_or, BitVec.getLsbD_and, BitVec.getLsbD_and, BitVec.getLsbD_not, mask_bit b k hk, BitVec.getLsbD_shiftLeft, fieldPos_eq]
  by_cases h1 : fieldAt b ≤ k <;> by_cases h2 : k < fieldAt b + fieldBits b
  · simp [h1, h2, hk]
  · simp [h1, h2, hk]
  · simp [h1, h2, hk]
  · simp [h1, h2, hk]

theorem onesBelow_eq (x : Word) (n : Nat) : onesBelow x n = (List.range n).countP fun k => x.getLsbD k := by
  induction n with
  | zero => rfl
  | succ n ih =>
    rw [List.range_succ, List.countP_append, ← ih]
    simp [onesBelow, List.countP_cons]

theorem exact_popc (a : Word) : popcW a = w32 ((List.range 32).countP fun k => a.getLsbD k) := by
  unfold popcW; rw [onesBelow_eq]

theorem zerosFrom_eq (x : Word) (n : Nat) (h : x.toNat < 2 ^ n) :
    zerosFrom x n = if x = 0 then n else n - 1 - Nat.log2 x.toNat := by
  induction n with
  | zero =>
    have : x = 0 := by apply BitVec.eq_of_toNat_eq; simp at h ⊢; exact h
    simp [this, zerosFrom]
  | succ n ih =>
    unfold zerosFrom
    split
    · rename_i hb
      have hne : x ≠ 0 := by rintro rfl; simp at hb
      have hge : 2 ^ n ≤ x.toNat := by
        have : x.toNat.testBit n = true := by simpa [BitVec.testBit_toNat] using hb
        exact Nat.ge_two_pow_of_testBit this
      rw [if_neg hne]
      have : Nat.log2 x.toNat = n := by
        rw [Nat.log2_eq_iff (by intro e; apply hne; exact BitVec.eq_of_toNat_eq (by simpa using e))]
        exact ⟨hge, h⟩
      omega
    · rename_i hb
      have hlt : x.toNat < 2 ^ n := by
        by_contra hc
        apply hb
        rw [← BitVec.testBit_toNat, Nat.testBit_eq_decide_div_mod_eq]
        have : x.toNat / 2 ^ n = 1 := by
          have hp : 0 < 2 ^ n := by positivity
          apply Nat.div_eq_of_lt_le <;> omega
        simp [this]
      rw [ih hlt]
      split
      · rfl
      · rename_i hne
        have : Nat.log2 x.toNat < n := (Nat.log2_lt (by intro e; apply hne; exact BitVec.eq_of_toNat_eq (by simpa using e))).2 hlt
        omega

theorem exact_clz (a : Word) : clzW a = w32 (if a = 0 then 32 else 31 - Nat.log2 a.toNat) := by
  unfold clzW; rw [zerosFrom_eq a 32 a.isLt]

theorem exact_brev (a : Word) : brevW a = BitVec.ofBoolListLE ((List.range 32).map fun k => a.getLsbD (31 - k)) := by
  apply ofList_eq
  intro k hk
  unfold brevW
  rw [BitVec.getLsbD_reverse, BitVec.getMsbD_eq_getLsbD]
  simp [hk]

theorem low16_toInt (a : Word) : (low16 a).toInt = s16 a := rfl

theorem low16_toNat (a : Word) : ((low16 a).toNat : Int) = n16 a := by
  unfold low16 n16; simp [BitVec.extractLsb'_toNat]

theorem exact_sext16 (x : Half) : sext16 x = int32 x.toInt := by
  unfold sext16 int32; rfl 

theorem exact_zext16 (x : Half) : zext16 x = int32 x.toNat := by
  unfold zext16 int32; apply BitVec.eq_of_toNat_eq; simp

theorem exact_movh (m : BitVec 16) (x : Word) : (m ++ x.extractLsb' 0 16 : Word) = w32 (m.toNat * 0x10000 + x.toNat % 0x10000) := by
  apply BitVec.eq_of_toNat_eq
  have h1 := m.isLt
  change (m ++ x.extractLsb' 0 16).toNat = _
  rw [BitVec.toNat_append]
  unfold w32
  rw [BitVec.toNat_ofNat, BitVec.extractLsb'_toNat]
  rw [← Nat.shiftLeft_add_eq_or_of_lt (by omega)]
  simp [Nat.shiftLeft_eq]
  omega

theorem half_s_add (a b : Word) : sext16 (low16 a + low16 b) = int32 (Int.bmod (s16 a + s16 b) (2 ^ 16)) := by
  rw [exact_sext16, BitVec.toInt_add]; rfl

theorem half_s_sub (a b : Word) : sext16 (low16 a - low16 b) = int32 (Int.bmod (s16 a - s16 b) (2 ^ 16)) := by
  rw [exact_sext16, BitVec.toInt_sub]; rfl

theorem half_s_mul (a b : Word) : sext16 (low16 a * low16 b) = int32 (Int.bmod (s16 a * s16 b) (2 ^ 16)) := by
  rw [exact_sext16, BitVec.toInt_mul]; rfl

theorem half_n_add (a b : Word) : zext16 (low16 a + low16 b) = int32 ((n16 a + n16 b) % 2 ^ 16) := by
  rw [exact_zext16, BitVec.toNat_add, ← low16_toNat, ← low16_toNat]; push_cast; rfl

theorem half_n_mul (a b : Word) : zext16 (low16 a * low16 b) = int32 ((n16 a * n16 b) % 2 ^ 16) := by
  rw [exact_zext16, BitVec.toNat_mul, ← low16_toNat, ← low16_toNat]; push_cast; rfl

theorem half_n_sub (a b : Word) : zext16 (low16 a - low16 b) = int32 ((n16 a - n16 b) % 2 ^ 16) := by
  rw [exact_zext16, BitVec.toNat_sub, ← low16_toNat, ← low16_toNat]
  have h1 := (low16 a).isLt; have h2 := (low16 b).isLt
  congr 1
  omega

theorem imm6_toNat (b : BitVec 6) (h : countOk b = true) : (imm6 b).toNat = b.toNat := by
  revert b; decide

theorem count_lt (b : BitVec 6) (h : countOk b = true) : b.toNat < 32 := by
  revert b; decide

end Sys2Proof.Machine
end

