-- ==== Sys2Proof/Laws/Sparse.lean ====
section
/-!
SUPPORT. Laws of the sparse maps: reading after writing, and the canonical form.
-/
namespace Sys2Proof.Machine

variable {α : Type}

theorem sget_sdel (d : α) (m : Sparse α) (k i : Nat) :
    sget d (sdel m k) i = if i = k then d else sget d m i := by
  induction m with
  | nil => simp [sdel, sget]
  | cons e m ih =>
    obtain ⟨j, v⟩ := e
    simp only [sdel]
    split
    · subst j
      rw [ih]
      split
      · rfl
      · rename_i h
        simp [sget, Ne.symm h]
    · rename_i h
      simp only [sget, ih]
      split
      · subst j
        simp [h]
      · rfl

theorem sget_sins (d : α) (m : Sparse α) (k i : Nat) (v : α) (h : ∀ x ∈ m, x.1 ≠ k) :
    sget d (sins m k v) i = if i = k then v else sget d m i := by
  induction m with
  | nil => simp [sins, sget, eq_comm]
  | cons e m ih =>
    obtain ⟨j, w⟩ := e
    have hj : j ≠ k := h (j, w) (by simp)
    simp only [sins]
    split
    · simp [sget, eq_comm]
    · simp only [sget]
      rw [ih fun x hx => h x (by simp [hx])]
      split
      · subst j
        simp [hj]
      · rfl

theorem sdel_ne (m : Sparse α) (k : Nat) : ∀ x ∈ sdel m k, x.1 ≠ k := by
  induction m with
  | nil => simp [sdel]
  | cons e m ih =>
    obtain ⟨j, w⟩ := e
    simp only [sdel]
    split
    · exact ih
    · rename_i h
      intro x hx
      rcases List.mem_cons.1 hx with rfl | hx
      · exact h
      · exact ih x hx

/-- READ AFTER WRITE: the key written reads as the value, every other key as before. -/
theorem sget_sset [DecidableEq α] (d : α) (m : Sparse α) (k i : Nat) (v : α) :
    sget d (sset d m k v) i = if i = k then v else sget d m i := by
  unfold sset
  split
  · subst v
    exact sget_sdel d m k i
  · rw [sget_sins d _ k i v (sdel_ne m k), sget_sdel]
    split <;> rfl

@[simp] theorem sget_sset_same [DecidableEq α] (d : α) (m : Sparse α) (k : Nat) (v : α) :
    sget d (sset d m k v) k = v := by
  simp [sget_sset]

theorem sget_sset_ne [DecidableEq α] (d : α) (m : Sparse α) {k i : Nat} (v : α) (h : i ≠ k) :
    sget d (sset d m k v) i = sget d m i := by
  simp [sget_sset, h]

theorem ssets_nil [DecidableEq α] (d : α) (m : Sparse α) : ssets d m [] = m := rfl

theorem ssets_cons [DecidableEq α] (d : α) (m : Sparse α) (e : Nat × α) (kvs : List (Nat × α)) :
    ssets d m (e :: kvs) = ssets d (sset d m e.1 e.2) kvs := rfl

/-- A key that is not among those written reads as before. -/
theorem sget_ssets_other [DecidableEq α] (d : α) (kvs : List (Nat × α)) (i : Nat) :
    ∀ m : Sparse α, i ∉ kvs.map Prod.fst → sget d (ssets d m kvs) i = sget d m i := by
  induction kvs with
  | nil => intro m _; rfl
  | cons e kvs ih =>
    intro m h
    simp only [List.map_cons, List.mem_cons, not_or] at h
    rw [ssets_cons, ih _ h.2, sget_sset_ne d m _ h.1]

/-- Keys written once each read as their values. -/
theorem sget_ssets_mem [DecidableEq α] (d : α) (kvs : List (Nat × α)) (i : Nat) (v : α) :
    ∀ m : Sparse α, (kvs.map Prod.fst).Nodup → (i, v) ∈ kvs → sget d (ssets d m kvs) i = v := by
  induction kvs with
  | nil => intro m _ h; cases h
  | cons e kvs ih =>
    intro m hn h
    simp only [List.map_cons, List.nodup_cons] at hn
    rw [ssets_cons]
    rcases List.mem_cons.1 h with rfl | h
    · rw [sget_ssets_other d kvs i _ hn.1, sget_sset_same]
    · exact ih _ hn.2 h

/-! ## The canonical form -/

/-- The canonical form, as a statement about all entries. -/
theorem swf_iff [DecidableEq α] (d : α) (m : Sparse α) :
    swf d m = true ↔ (∀ e ∈ m, e.2 ≠ d) ∧ m.Pairwise fun a b => a.1 < b.1 := by
  induction m with
  | nil => simp [swf]
  | cons e m ih =>
    obtain ⟨k, v⟩ := e
    cases m with
    | nil => simp [swf]
    | cons f m =>
      obtain ⟨i, x⟩ := f
      simp only [swf, Bool.and_eq_true, decide_eq_true_eq, ih, List.pairwise_cons, List.mem_cons]
      constructor
      · rintro ⟨⟨hv, hk⟩, hd, ⟨hi, hp⟩⟩
        refine ⟨?_, ?_, hi, hp⟩
        · rintro e (rfl | he)
          · exact hv
          · exact hd e he
        · rintro e (rfl | he)
          · exact hk
          · exact Nat.lt_trans hk (hi e he)
      · rintro ⟨hd, hk, hi, hp⟩
        exact ⟨⟨hd (k, v) (.inl rfl), hk (i, x) (.inl rfl)⟩, fun e he => hd e (.inr he), hi, hp⟩

theorem mem_sdel (m : Sparse α) (k : Nat) (e : Nat × α) (h : e ∈ sdel m k) : e ∈ m := by
  induction m with
  | nil => exact h
  | cons f m ih =>
    obtain ⟨j, w⟩ := f
    simp only [sdel] at h
    split at h
    · exact List.mem_cons_of_mem _ (ih h)
    · rcases List.mem_cons.1 h with rfl | h
      · simp
      · exact List.mem_cons_of_mem _ (ih h)

theorem sdel_pairwise (m : Sparse α) (k : Nat) (h : m.Pairwise fun a b => a.1 < b.1) :
    (sdel m k).Pairwise fun a b => a.1 < b.1 := by
  induction m with
  | nil => exact h
  | cons f m ih =>
    obtain ⟨j, w⟩ := f
    simp only [List.pairwise_cons] at h
    simp only [sdel]
    split
    · exact ih h.2
    · exact List.pairwise_cons.2 ⟨fun e he => h.1 e (mem_sdel m k e he), ih h.2⟩

theorem mem_sins (m : Sparse α) (k : Nat) (v : α) (e : Nat × α) (h : e ∈ sins m k v) :
    e = (k, v) ∨ e ∈ m := by
  induction m with
  | nil => simpa [sins] using h
  | cons f m ih =>
    obtain ⟨j, w⟩ := f
    simp only [sins] at h
    split at h
    · simpa using h
    · rcases List.mem_cons.1 h with rfl | h
      · simp
      · rcases ih h with h | h
        · exact .inl h
        · exact .inr (List.mem_cons_of_mem _ h)

theorem sins_pairwise (m : Sparse α) (k : Nat) (v : α) (hk : ∀ x ∈ m, x.1 ≠ k)
    (h : m.Pairwise fun a b => a.1 < b.1) : (sins m k v).Pairwise fun a b => a.1 < b.1 := by
  induction m with
  | nil => simp [sins]
  | cons f m ih =>
    obtain ⟨j, w⟩ := f
    simp only [List.pairwise_cons] at h
    simp only [sins]
    split
    · rename_i hlt
      refine List.pairwise_cons.2 ⟨?_, List.pairwise_cons.2 ⟨h.1, h.2⟩⟩
      intro e he
      rcases List.mem_cons.1 he with rfl | he
      · exact hlt
      · exact Nat.lt_trans hlt (h.1 e he)
    · rename_i hge
      refine List.pairwise_cons.2 ⟨?_, ih (fun x hx => hk x (by simp [hx])) h.2⟩
      intro e he
      rcases mem_sins m k v e he with rfl | he
      · have : j ≠ k := hk (j, w) (by simp)
        simp only at hge ⊢
        omega
      · exact h.1 e he

theorem sdel_swf [DecidableEq α] (d : α) (m : Sparse α) (k : Nat) (h : swf d m = true) :
    swf d (sdel m k) = true := by
  rw [swf_iff] at h ⊢
  exact ⟨fun e he => h.1 e (mem_sdel m k e he), sdel_pairwise m k h.2⟩

/-- Writing a key keeps the canonical form. -/
theorem sset_swf [DecidableEq α] (d : α) (m : Sparse α) (k : Nat) (v : α) (h : swf d m = true) :
    swf d (sset d m k v) = true := by
  unfold sset
  split
  · exact sdel_swf d m k h
  · rename_i hv
    have hd := sdel_swf d m k h
    rw [swf_iff] at hd ⊢
    refine ⟨?_, sins_pairwise _ k v (sdel_ne m k) hd.2⟩
    intro e he
    rcases mem_sins _ k v e he with rfl | he
    · exact hv
    · exact hd.1 e he

theorem ssets_swf [DecidableEq α] (d : α) (kvs : List (Nat × α)) :
    ∀ m : Sparse α, swf d m = true → swf d (ssets d m kvs) = true := by
  induction kvs with
  | nil => intro m h; exact h
  | cons e kvs ih => intro m h; exact ih _ (sset_swf d m e.1 e.2 h)

theorem filter_swf [DecidableEq α] (d : α) (m : Sparse α) (p : Nat × α → Bool) (h : swf d m = true) :
    swf d (m.filter p) = true := by
  rw [swf_iff] at h ⊢
  exact ⟨fun e he => h.1 e (List.mem_filter.1 he).1, h.2.filter _⟩

/-- A key that a filter keeps reads as before; one that it drops reads as the default. -/
theorem sget_filter (d : α) (m : Sparse α) (p : Nat → Bool) (i : Nat) :
    sget d (m.filter fun e => p e.1) i = if p i then sget d m i else d := by
  induction m with
  | nil => simp [sget]
  | cons e m ih =>
    obtain ⟨j, v⟩ := e
    by_cases hj : p j = true
    · rw [List.filter_cons_of_pos (by simpa using hj)]
      simp only [sget, ih]
      split
      · subst j
        simp [hj]
      · rfl
    · rw [List.filter_cons_of_neg (by simpa using hj), ih]
      split
      · rename_i hi
        have : j ≠ i := by
          rintro rfl
          exact hj hi
        simp [sget, this]
      · rfl

/-- Two canonical maps that read alike everywhere are the same list. -/
theorem swf_ext [DecidableEq α] (d : α) (m n : Sparse α) (hm : swf d m = true) (hn : swf d n = true)
    (h : ∀ i, sget d m i = sget d n i) : m = n := by
  induction m generalizing n with
  | nil =>
    cases n with
    | nil => rfl
    | cons f n =>
      obtain ⟨j, w⟩ := f
      have hj := h j
      rw [swf_iff] at hn
      simp only [sget, if_true] at hj
      exact absurd hj.symm (hn.1 (j, w) (by simp))
  | cons e m ih =>
    obtain ⟨k, v⟩ := e
    have low : ∀ (l : Sparse α) (a b : Nat), (∀ x ∈ l, a < x.1) → b ≤ a → sget d l b = d := by
      intro l a b hl hb
      induction l with
      | nil => rfl
      | cons f l ihl =>
        obtain ⟨j, w⟩ := f
        have hlt : a < j := hl (j, w) (by simp)
        simp only [sget]
        rw [if_neg (by omega)]
        exact ihl fun x hx => hl x (by simp [hx])
    cases n with
    | nil =>
      have hk := h k
      rw [swf_iff] at hm
      simp only [sget, if_true] at hk
      exact absurd hk (hm.1 (k, v) (by simp))
    | cons f n =>
      obtain ⟨j, w⟩ := f
      have hm' := (swf_iff d _).1 hm
      have hn' := (swf_iff d _).1 hn
      simp only [List.pairwise_cons] at hm' hn'
      have hkj : k = j := by
        rcases Nat.lt_trichotomy k j with hlt | he | hgt
        · have := h k
          simp only [sget, if_true] at this
          rw [if_neg (by omega), low n j k hn'.2.1 (by omega)] at this
          exact absurd this (hm'.1 (k, v) (by simp))
        · exact he
        · have := h j
          simp only [sget, if_true] at this
          rw [if_neg (by omega), low m k j hm'.2.1 (by omega)] at this
          exact absurd this.symm (hn'.1 (j, w) (by simp))
      subst hkj
      have hv := h k
      simp only [sget, if_true] at hv
      subst hv
      congr 1
      refine ih n ?_ ?_ ?_
      · rw [swf_iff]
        exact ⟨fun e he => hm'.1 e (by simp [he]), hm'.2.2⟩
      · rw [swf_iff]
        exact ⟨fun e he => hn'.1 e (by simp [he]), hn'.2.2⟩
      · intro i
        have hi := h i
        simp only [sget] at hi
        split at hi
        · subst i
          rw [low m k k hm'.2.1 (Nat.le_refl _), low n k k hn'.2.1 (Nat.le_refl _)]
        · exact hi

end Sys2Proof.Machine
end

