-- ==== Sys2Proof/Laws/State.lean ====
section
/-!
SUPPORT. The laws of `State`: what each basic update writes reads back, and every other field is
as it was, one lemma for each field and update.
-/
namespace Sys2Proof.Machine

@[simp] theorem gang?_setGang_same (s : State) (gk : Nat) (g : Option Gang) :
    gang? (setGang s gk g) gk = g := by
  simp [gang?, setGang]

theorem gang?_setGang (s : State) (gk i : Nat) (g : Option Gang) :
    gang? (setGang s gk g) i = if i = gk then g else gang? s i := by
  simp [gang?, setGang, sget_sset]

@[simp] theorem group?_setGroup_same (g : Gang) (gid : Nat) (r : Option Group) :
    group? (setGroup g gid r) gid = r := by
  simp [group?, setGroup]

theorem group?_setGroup (g : Gang) (gid i : Nat) (r : Option Group) :
    group? (setGroup g gid r) i = if i = gid then r else group? g i := by
  simp [group?, setGroup, sget_sset]

@[simp] theorem inst?_setInst_same (s : State) (id : Nat) (i : Option Inst) :
    inst? (setInst s id i) id = i := by
  simp [inst?, setInst]

theorem inst?_setInst (s : State) (id j : Nat) (i : Option Inst) :
    inst? (setInst s id i) j = if j = id then i else inst? s j := by
  simp [inst?, setInst, sget_sset]

@[simp] theorem inst?_setGang (s : State) (gk i : Nat) (g : Option Gang) :
    inst? (setGang s gk g) i = inst? s i := rfl

@[simp] theorem gang?_setInst (s : State) (id i : Nat) (x : Option Inst) :
    gang? (setInst s id x) i = gang? s i := rfl

theorem gang?_updGang (s : State) (gk i : Nat) (f : Gang → Gang) :
    gang? (updGang s gk f) i = if i = gk then (gang? s gk).map f else gang? s i := by
  unfold updGang
  split
  · rename_i g h
    simp [gang?_setGang, h]
  · rename_i h
    by_cases e : i = gk
    · subst e; simp [h]
    · simp [e]

theorem inst?_updInst (s : State) (id j : Nat) (f : Inst → Inst) :
    inst? (updInst s id f) j = if j = id then (inst? s id).map f else inst? s j := by
  unfold updInst
  split
  · rename_i g h
    simp [inst?_setInst, h]
  · rename_i h
    by_cases e : j = id
    · subst e; simp [h]
    · simp [e]

theorem ctx?_updCtx (s : State) (c i : Nat) (f : Context → Context) :
    ctx? (updCtx s c f) i = if i = c then (ctx? s c).map f else ctx? s i := by
  unfold updCtx
  split
  · rename_i g h
    unfold ctx? at h ⊢
    simp only [sget_sset]
    simp [h]
  · rename_i h
    by_cases e : i = c
    · subst e; simp [h]
    · simp [e]

theorem ccOf_updCc (s : State) (ctx core : Nat) (f : CtxCore → CtxCore) :
    ccOf (updCc s ctx core f) ctx core = f (ccOf s ctx core) := by
  simp [ccOf, updCc]

theorem coreOf_updCore (s : State) (c i : Nat) (f : CoreSt → CoreSt) :
    coreOf (updCore s c f) i = if i = c then f (coreOf s c) else coreOf s i := by
  simp [coreOf, updCore, sget_sset]

theorem dieOf_updDie (s : State) (d i : Nat) (f : DieSt → DieSt) :
    dieOf (updDie s d f) i = if i = d then f (dieOf s d) else dieOf s i := by
  simp [dieOf, updDie, sget_sset]

@[simp] theorem taken_next (s : State) : (taken s).next = s.next + 1 := rfl
@[simp] theorem drawn_fresh (s : State) : (drawn s).fresh = s.fresh + 1 := rfl

/-! ### `setGang` -/

@[simp] theorem setGang_mem (s : State) (gk : Nat) (g : Option Gang) : (setGang s gk g).mem = s.mem := rfl
@[simp] theorem setGang_keys (s : State) (gk : Nat) (g : Option Gang) : (setGang s gk g).keys = s.keys := rfl
@[simp] theorem setGang_enc (s : State) (gk : Nat) (g : Option Gang) : (setGang s gk g).enc = s.enc := rfl
@[simp] theorem setGang_bad (s : State) (gk : Nat) (g : Option Gang) : (setGang s gk g).bad = s.bad := rfl
@[simp] theorem setGang_insts (s : State) (gk : Nat) (g : Option Gang) : (setGang s gk g).insts = s.insts := rfl
@[simp] theorem setGang_ctxs (s : State) (gk : Nat) (g : Option Gang) : (setGang s gk g).ctxs = s.ctxs := rfl
@[simp] theorem setGang_cc (s : State) (gk : Nat) (g : Option Gang) : (setGang s gk g).cc = s.cc := rfl
@[simp] theorem setGang_bars (s : State) (gk : Nat) (g : Option Gang) : (setGang s gk g).bars = s.bars := rfl
@[simp] theorem setGang_cohs (s : State) (gk : Nat) (g : Option Gang) : (setGang s gk g).cohs = s.cohs := rfl
@[simp] theorem setGang_cores (s : State) (gk : Nat) (g : Option Gang) : (setGang s gk g).cores = s.cores := rfl
@[simp] theorem setGang_dies (s : State) (gk : Nat) (g : Option Gang) : (setGang s gk g).dies = s.dies := rfl
@[simp] theorem setGang_owner (s : State) (gk : Nat) (g : Option Gang) : (setGang s gk g).owner = s.owner := rfl
@[simp] theorem setGang_queue (s : State) (gk : Nat) (g : Option Gang) : (setGang s gk g).queue = s.queue := rfl
@[simp] theorem setGang_sent (s : State) (gk : Nat) (g : Option Gang) : (setGang s gk g).sent = s.sent := rfl
@[simp] theorem setGang_sb (s : State) (gk : Nat) (g : Option Gang) : (setGang s gk g).sb = s.sb := rfl
@[simp] theorem setGang_gutter (s : State) (gk : Nat) (g : Option Gang) : (setGang s gk g).gutter = s.gutter := rfl
@[simp] theorem setGang_pubs (s : State) (gk : Nat) (g : Option Gang) : (setGang s gk g).pubs = s.pubs := rfl
@[simp] theorem setGang_homeq (s : State) (gk : Nat) (g : Option Gang) : (setGang s gk g).homeq = s.homeq := rfl
@[simp] theorem setGang_tlb (s : State) (gk : Nat) (g : Option Gang) : (setGang s gk g).tlb = s.tlb := rfl
@[simp] theorem setGang_walks (s : State) (gk : Nat) (g : Option Gang) : (setGang s gk g).walks = s.walks := rfl
@[simp] theorem setGang_pageRecs (s : State) (gk : Nat) (g : Option Gang) : (setGang s gk g).pageRecs = s.pageRecs := rfl
@[simp] theorem setGang_pool (s : State) (gk : Nat) (g : Option Gang) : (setGang s gk g).pool = s.pool := rfl
@[simp] theorem setGang_sessions (s : State) (gk : Nat) (g : Option Gang) : (setGang s gk g).sessions = s.sessions := rfl
@[simp] theorem setGang_outbox (s : State) (gk : Nat) (g : Option Gang) : (setGang s gk g).outbox = s.outbox := rfl
@[simp] theorem setGang_held (s : State) (gk : Nat) (g : Option Gang) : (setGang s gk g).held = s.held := rfl
@[simp] theorem setGang_hostWaits (s : State) (gk : Nat) (g : Option Gang) : (setGang s gk g).hostWaits = s.hostWaits := rfl
@[simp] theorem setGang_ctl (s : State) (gk : Nat) (g : Option Gang) : (setGang s gk g).ctl = s.ctl := rfl
@[simp] theorem setGang_clk (s : State) (gk : Nat) (g : Option Gang) : (setGang s gk g).clk = s.clk := rfl
@[simp] theorem setGang_usec (s : State) (gk : Nat) (g : Option Gang) : (setGang s gk g).usec = s.usec := rfl
@[simp] theorem setGang_next (s : State) (gk : Nat) (g : Option Gang) : (setGang s gk g).next = s.next := rfl
@[simp] theorem setGang_cur (s : State) (gk : Nat) (g : Option Gang) : (setGang s gk g).cur = s.cur := rfl
@[simp] theorem setGang_chosen (s : State) (gk : Nat) (g : Option Gang) : (setGang s gk g).chosen = s.chosen := rfl
@[simp] theorem setGang_agenda (s : State) (gk : Nat) (g : Option Gang) : (setGang s gk g).agenda = s.agenda := rfl
@[simp] theorem setGang_defers (s : State) (gk : Nat) (g : Option Gang) : (setGang s gk g).defers = s.defers := rfl
@[simp] theorem setGang_turn (s : State) (gk : Nat) (g : Option Gang) : (setGang s gk g).turn = s.turn := rfl
@[simp] theorem setGang_fresh (s : State) (gk : Nat) (g : Option Gang) : (setGang s gk g).fresh = s.fresh := rfl
@[simp] theorem setGang_shadow (s : State) (gk : Nat) (g : Option Gang) : (setGang s gk g).shadow = s.shadow := rfl

/-! ### `setInst` -/

@[simp] theorem setInst_mem (s : State) (id : Nat) (i : Option Inst) : (setInst s id i).mem = s.mem := rfl
@[simp] theorem setInst_keys (s : State) (id : Nat) (i : Option Inst) : (setInst s id i).keys = s.keys := rfl
@[simp] theorem setInst_enc (s : State) (id : Nat) (i : Option Inst) : (setInst s id i).enc = s.enc := rfl
@[simp] theorem setInst_bad (s : State) (id : Nat) (i : Option Inst) : (setInst s id i).bad = s.bad := rfl
@[simp] theorem setInst_gangs (s : State) (id : Nat) (i : Option Inst) : (setInst s id i).gangs = s.gangs := rfl
@[simp] theorem setInst_ctxs (s : State) (id : Nat) (i : Option Inst) : (setInst s id i).ctxs = s.ctxs := rfl
@[simp] theorem setInst_cc (s : State) (id : Nat) (i : Option Inst) : (setInst s id i).cc = s.cc := rfl
@[simp] theorem setInst_bars (s : State) (id : Nat) (i : Option Inst) : (setInst s id i).bars = s.bars := rfl
@[simp] theorem setInst_cohs (s : State) (id : Nat) (i : Option Inst) : (setInst s id i).cohs = s.cohs := rfl
@[simp] theorem setInst_cores (s : State) (id : Nat) (i : Option Inst) : (setInst s id i).cores = s.cores := rfl
@[simp] theorem setInst_dies (s : State) (id : Nat) (i : Option Inst) : (setInst s id i).dies = s.dies := rfl
@[simp] theorem setInst_owner (s : State) (id : Nat) (i : Option Inst) : (setInst s id i).owner = s.owner := rfl
@[simp] theorem setInst_queue (s : State) (id : Nat) (i : Option Inst) : (setInst s id i).queue = s.queue := rfl
@[simp] theorem setInst_sent (s : State) (id : Nat) (i : Option Inst) : (setInst s id i).sent = s.sent := rfl
@[simp] theorem setInst_sb (s : State) (id : Nat) (i : Option Inst) : (setInst s id i).sb = s.sb := rfl
@[simp] theorem setInst_gutter (s : State) (id : Nat) (i : Option Inst) : (setInst s id i).gutter = s.gutter := rfl
@[simp] theorem setInst_pubs (s : State) (id : Nat) (i : Option Inst) : (setInst s id i).pubs = s.pubs := rfl
@[simp] theorem setInst_homeq (s : State) (id : Nat) (i : Option Inst) : (setInst s id i).homeq = s.homeq := rfl
@[simp] theorem setInst_tlb (s : State) (id : Nat) (i : Option Inst) : (setInst s id i).tlb = s.tlb := rfl
@[simp] theorem setInst_walks (s : State) (id : Nat) (i : Option Inst) : (setInst s id i).walks = s.walks := rfl
@[simp] theorem setInst_pageRecs (s : State) (id : Nat) (i : Option Inst) : (setInst s id i).pageRecs = s.pageRecs := rfl
@[simp] theorem setInst_pool (s : State) (id : Nat) (i : Option Inst) : (setInst s id i).pool = s.pool := rfl
@[simp] theorem setInst_sessions (s : State) (id : Nat) (i : Option Inst) : (setInst s id i).sessions = s.sessions := rfl
@[simp] theorem setInst_outbox (s : State) (id : Nat) (i : Option Inst) : (setInst s id i).outbox = s.outbox := rfl
@[simp] theorem setInst_held (s : State) (id : Nat) (i : Option Inst) : (setInst s id i).held = s.held := rfl
@[simp] theorem setInst_hostWaits (s : State) (id : Nat) (i : Option Inst) : (setInst s id i).hostWaits = s.hostWaits := rfl
@[simp] theorem setInst_ctl (s : State) (id : Nat) (i : Option Inst) : (setInst s id i).ctl = s.ctl := rfl
@[simp] theorem setInst_clk (s : State) (id : Nat) (i : Option Inst) : (setInst s id i).clk = s.clk := rfl
@[simp] theorem setInst_usec (s : State) (id : Nat) (i : Option Inst) : (setInst s id i).usec = s.usec := rfl
@[simp] theorem setInst_next (s : State) (id : Nat) (i : Option Inst) : (setInst s id i).next = s.next := rfl
@[simp] theorem setInst_cur (s : State) (id : Nat) (i : Option Inst) : (setInst s id i).cur = s.cur := rfl
@[simp] theorem setInst_chosen (s : State) (id : Nat) (i : Option Inst) : (setInst s id i).chosen = s.chosen := rfl
@[simp] theorem setInst_agenda (s : State) (id : Nat) (i : Option Inst) : (setInst s id i).agenda = s.agenda := rfl
@[simp] theorem setInst_defers (s : State) (id : Nat) (i : Option Inst) : (setInst s id i).defers = s.defers := rfl
@[simp] theorem setInst_turn (s : State) (id : Nat) (i : Option Inst) : (setInst s id i).turn = s.turn := rfl
@[simp] theorem setInst_fresh (s : State) (id : Nat) (i : Option Inst) : (setInst s id i).fresh = s.fresh := rfl
@[simp] theorem setInst_shadow (s : State) (id : Nat) (i : Option Inst) : (setInst s id i).shadow = s.shadow := rfl

/-! ### `updCc` -/

@[simp] theorem updCc_mem (s : State) (ctx core : Nat) (f : CtxCore → CtxCore) : (updCc s ctx core f).mem = s.mem := rfl
@[simp] theorem updCc_keys (s : State) (ctx core : Nat) (f : CtxCore → CtxCore) : (updCc s ctx core f).keys = s.keys := rfl
@[simp] theorem updCc_enc (s : State) (ctx core : Nat) (f : CtxCore → CtxCore) : (updCc s ctx core f).enc = s.enc := rfl
@[simp] theorem updCc_bad (s : State) (ctx core : Nat) (f : CtxCore → CtxCore) : (updCc s ctx core f).bad = s.bad := rfl
@[simp] theorem updCc_gangs (s : State) (ctx core : Nat) (f : CtxCore → CtxCore) : (updCc s ctx core f).gangs = s.gangs := rfl
@[simp] theorem updCc_insts (s : State) (ctx core : Nat) (f : CtxCore → CtxCore) : (updCc s ctx core f).insts = s.insts := rfl
@[simp] theorem updCc_ctxs (s : State) (ctx core : Nat) (f : CtxCore → CtxCore) : (updCc s ctx core f).ctxs = s.ctxs := rfl
@[simp] theorem updCc_bars (s : State) (ctx core : Nat) (f : CtxCore → CtxCore) : (updCc s ctx core f).bars = s.bars := rfl
@[simp] theorem updCc_cohs (s : State) (ctx core : Nat) (f : CtxCore → CtxCore) : (updCc s ctx core f).cohs = s.cohs := rfl
@[simp] theorem updCc_cores (s : State) (ctx core : Nat) (f : CtxCore → CtxCore) : (updCc s ctx core f).cores = s.cores := rfl
@[simp] theorem updCc_dies (s : State) (ctx core : Nat) (f : CtxCore → CtxCore) : (updCc s ctx core f).dies = s.dies := rfl
@[simp] theorem updCc_owner (s : State) (ctx core : Nat) (f : CtxCore → CtxCore) : (updCc s ctx core f).owner = s.owner := rfl
@[simp] theorem updCc_queue (s : State) (ctx core : Nat) (f : CtxCore → CtxCore) : (updCc s ctx core f).queue = s.queue := rfl
@[simp] theorem updCc_sent (s : State) (ctx core : Nat) (f : CtxCore → CtxCore) : (updCc s ctx core f).sent = s.sent := rfl
@[simp] theorem updCc_sb (s : State) (ctx core : Nat) (f : CtxCore → CtxCore) : (updCc s ctx core f).sb = s.sb := rfl
@[simp] theorem updCc_gutter (s : State) (ctx core : Nat) (f : CtxCore → CtxCore) : (updCc s ctx core f).gutter = s.gutter := rfl
@[simp] theorem updCc_pubs (s : State) (ctx core : Nat) (f : CtxCore → CtxCore) : (updCc s ctx core f).pubs = s.pubs := rfl
@[simp] theorem updCc_homeq (s : State) (ctx core : Nat) (f : CtxCore → CtxCore) : (updCc s ctx core f).homeq = s.homeq := rfl
@[simp] theorem updCc_tlb (s : State) (ctx core : Nat) (f : CtxCore → CtxCore) : (updCc s ctx core f).tlb = s.tlb := rfl
@[simp] theorem updCc_walks (s : State) (ctx core : Nat) (f : CtxCore → CtxCore) : (updCc s ctx core f).walks = s.walks := rfl
@[simp] theorem updCc_pageRecs (s : State) (ctx core : Nat) (f : CtxCore → CtxCore) : (updCc s ctx core f).pageRecs = s.pageRecs := rfl
@[simp] theorem updCc_pool (s : State) (ctx core : Nat) (f : CtxCore → CtxCore) : (updCc s ctx core f).pool = s.pool := rfl
@[simp] theorem updCc_sessions (s : State) (ctx core : Nat) (f : CtxCore → CtxCore) : (updCc s ctx core f).sessions = s.sessions := rfl
@[simp] theorem updCc_outbox (s : State) (ctx core : Nat) (f : CtxCore → CtxCore) : (updCc s ctx core f).outbox = s.outbox := rfl
@[simp] theorem updCc_held (s : State) (ctx core : Nat) (f : CtxCore → CtxCore) : (updCc s ctx core f).held = s.held := rfl
@[simp] theorem updCc_hostWaits (s : State) (ctx core : Nat) (f : CtxCore → CtxCore) : (updCc s ctx core f).hostWaits = s.hostWaits := rfl
@[simp] theorem updCc_ctl (s : State) (ctx core : Nat) (f : CtxCore → CtxCore) : (updCc s ctx core f).ctl = s.ctl := rfl
@[simp] theorem updCc_clk (s : State) (ctx core : Nat) (f : CtxCore → CtxCore) : (updCc s ctx core f).clk = s.clk := rfl
@[simp] theorem updCc_usec (s : State) (ctx core : Nat) (f : CtxCore → CtxCore) : (updCc s ctx core f).usec = s.usec := rfl
@[simp] theorem updCc_next (s : State) (ctx core : Nat) (f : CtxCore → CtxCore) : (updCc s ctx core f).next = s.next := rfl
@[simp] theorem updCc_cur (s : State) (ctx core : Nat) (f : CtxCore → CtxCore) : (updCc s ctx core f).cur = s.cur := rfl
@[simp] theorem updCc_chosen (s : State) (ctx core : Nat) (f : CtxCore → CtxCore) : (updCc s ctx core f).chosen = s.chosen := rfl
@[simp] theorem updCc_agenda (s : State) (ctx core : Nat) (f : CtxCore → CtxCore) : (updCc s ctx core f).agenda = s.agenda := rfl
@[simp] theorem updCc_defers (s : State) (ctx core : Nat) (f : CtxCore → CtxCore) : (updCc s ctx core f).defers = s.defers := rfl
@[simp] theorem updCc_turn (s : State) (ctx core : Nat) (f : CtxCore → CtxCore) : (updCc s ctx core f).turn = s.turn := rfl
@[simp] theorem updCc_fresh (s : State) (ctx core : Nat) (f : CtxCore → CtxCore) : (updCc s ctx core f).fresh = s.fresh := rfl
@[simp] theorem updCc_shadow (s : State) (ctx core : Nat) (f : CtxCore → CtxCore) : (updCc s ctx core f).shadow = s.shadow := rfl

/-! ### `updCore` -/

@[simp] theorem updCore_mem (s : State) (core : Nat) (f : CoreSt → CoreSt) : (updCore s core f).mem = s.mem := rfl
@[simp] theorem updCore_keys (s : State) (core : Nat) (f : CoreSt → CoreSt) : (updCore s core f).keys = s.keys := rfl
@[simp] theorem updCore_enc (s : State) (core : Nat) (f : CoreSt → CoreSt) : (updCore s core f).enc = s.enc := rfl
@[simp] theorem updCore_bad (s : State) (core : Nat) (f : CoreSt → CoreSt) : (updCore s core f).bad = s.bad := rfl
@[simp] theorem updCore_gangs (s : State) (core : Nat) (f : CoreSt → CoreSt) : (updCore s core f).gangs = s.gangs := rfl
@[simp] theorem updCore_insts (s : State) (core : Nat) (f : CoreSt → CoreSt) : (updCore s core f).insts = s.insts := rfl
@[simp] theorem updCore_ctxs (s : State) (core : Nat) (f : CoreSt → CoreSt) : (updCore s core f).ctxs = s.ctxs := rfl
@[simp] theorem updCore_cc (s : State) (core : Nat) (f : CoreSt → CoreSt) : (updCore s core f).cc = s.cc := rfl
@[simp] theorem updCore_bars (s : State) (core : Nat) (f : CoreSt → CoreSt) : (updCore s core f).bars = s.bars := rfl
@[simp] theorem updCore_cohs (s : State) (core : Nat) (f : CoreSt → CoreSt) : (updCore s core f).cohs = s.cohs := rfl
@[simp] theorem updCore_dies (s : State) (core : Nat) (f : CoreSt → CoreSt) : (updCore s core f).dies = s.dies := rfl
@[simp] theorem updCore_owner (s : State) (core : Nat) (f : CoreSt → CoreSt) : (updCore s core f).owner = s.owner := rfl
@[simp] theorem updCore_queue (s : State) (core : Nat) (f : CoreSt → CoreSt) : (updCore s core f).queue = s.queue := rfl
@[simp] theorem updCore_sent (s : State) (core : Nat) (f : CoreSt → CoreSt) : (updCore s core f).sent = s.sent := rfl
@[simp] theorem updCore_sb (s : State) (core : Nat) (f : CoreSt → CoreSt) : (updCore s core f).sb = s.sb := rfl
@[simp] theorem updCore_gutter (s : State) (core : Nat) (f : CoreSt → CoreSt) : (updCore s core f).gutter = s.gutter := rfl
@[simp] theorem updCore_pubs (s : State) (core : Nat) (f : CoreSt → CoreSt) : (updCore s core f).pubs = s.pubs := rfl
@[simp] theorem updCore_homeq (s : State) (core : Nat) (f : CoreSt → CoreSt) : (updCore s core f).homeq = s.homeq := rfl
@[simp] theorem updCore_tlb (s : State) (core : Nat) (f : CoreSt → CoreSt) : (updCore s core f).tlb = s.tlb := rfl
@[simp] theorem updCore_walks (s : State) (core : Nat) (f : CoreSt → CoreSt) : (updCore s core f).walks = s.walks := rfl
@[simp] theorem updCore_pageRecs (s : State) (core : Nat) (f : CoreSt → CoreSt) : (updCore s core f).pageRecs = s.pageRecs := rfl
@[simp] theorem updCore_pool (s : State) (core : Nat) (f : CoreSt → CoreSt) : (updCore s core f).pool = s.pool := rfl
@[simp] theorem updCore_sessions (s : State) (core : Nat) (f : CoreSt → CoreSt) : (updCore s core f).sessions = s.sessions := rfl
@[simp] theorem updCore_outbox (s : State) (core : Nat) (f : CoreSt → CoreSt) : (updCore s core f).outbox = s.outbox := rfl
@[simp] theorem updCore_held (s : State) (core : Nat) (f : CoreSt → CoreSt) : (updCore s core f).held = s.held := rfl
@[simp] theorem updCore_hostWaits (s : State) (core : Nat) (f : CoreSt → CoreSt) : (updCore s core f).hostWaits = s.hostWaits := rfl
@[simp] theorem updCore_ctl (s : State) (core : Nat) (f : CoreSt → CoreSt) : (updCore s core f).ctl = s.ctl := rfl
@[simp] theorem updCore_clk (s : State) (core : Nat) (f : CoreSt → CoreSt) : (updCore s core f).clk = s.clk := rfl
@[simp] theorem updCore_usec (s : State) (core : Nat) (f : CoreSt → CoreSt) : (updCore s core f).usec = s.usec := rfl
@[simp] theorem updCore_next (s : State) (core : Nat) (f : CoreSt → CoreSt) : (updCore s core f).next = s.next := rfl
@[simp] theorem updCore_cur (s : State) (core : Nat) (f : CoreSt → CoreSt) : (updCore s core f).cur = s.cur := rfl
@[simp] theorem updCore_chosen (s : State) (core : Nat) (f : CoreSt → CoreSt) : (updCore s core f).chosen = s.chosen := rfl
@[simp] theorem updCore_agenda (s : State) (core : Nat) (f : CoreSt → CoreSt) : (updCore s core f).agenda = s.agenda := rfl
@[simp] theorem updCore_defers (s : State) (core : Nat) (f : CoreSt → CoreSt) : (updCore s core f).defers = s.defers := rfl
@[simp] theorem updCore_turn (s : State) (core : Nat) (f : CoreSt → CoreSt) : (updCore s core f).turn = s.turn := rfl
@[simp] theorem updCore_fresh (s : State) (core : Nat) (f : CoreSt → CoreSt) : (updCore s core f).fresh = s.fresh := rfl
@[simp] theorem updCore_shadow (s : State) (core : Nat) (f : CoreSt → CoreSt) : (updCore s core f).shadow = s.shadow := rfl

/-! ### `updDie` -/

@[simp] theorem updDie_mem (s : State) (d : Nat) (f : DieSt → DieSt) : (updDie s d f).mem = s.mem := rfl
@[simp] theorem updDie_keys (s : State) (d : Nat) (f : DieSt → DieSt) : (updDie s d f).keys = s.keys := rfl
@[simp] theorem updDie_enc (s : State) (d : Nat) (f : DieSt → DieSt) : (updDie s d f).enc = s.enc := rfl
@[simp] theorem updDie_bad (s : State) (d : Nat) (f : DieSt → DieSt) : (updDie s d f).bad = s.bad := rfl
@[simp] theorem updDie_gangs (s : State) (d : Nat) (f : DieSt → DieSt) : (updDie s d f).gangs = s.gangs := rfl
@[simp] theorem updDie_insts (s : State) (d : Nat) (f : DieSt → DieSt) : (updDie s d f).insts = s.insts := rfl
@[simp] theorem updDie_ctxs (s : State) (d : Nat) (f : DieSt → DieSt) : (updDie s d f).ctxs = s.ctxs := rfl
@[simp] theorem updDie_cc (s : State) (d : Nat) (f : DieSt → DieSt) : (updDie s d f).cc = s.cc := rfl
@[simp] theorem updDie_bars (s : State) (d : Nat) (f : DieSt → DieSt) : (updDie s d f).bars = s.bars := rfl
@[simp] theorem updDie_cohs (s : State) (d : Nat) (f : DieSt → DieSt) : (updDie s d f).cohs = s.cohs := rfl
@[simp] theorem updDie_cores (s : State) (d : Nat) (f : DieSt → DieSt) : (updDie s d f).cores = s.cores := rfl
@[simp] theorem updDie_owner (s : State) (d : Nat) (f : DieSt → DieSt) : (updDie s d f).owner = s.owner := rfl
@[simp] theorem updDie_queue (s : State) (d : Nat) (f : DieSt → DieSt) : (updDie s d f).queue = s.queue := rfl
@[simp] theorem updDie_sent (s : State) (d : Nat) (f : DieSt → DieSt) : (updDie s d f).sent = s.sent := rfl
@[simp] theorem updDie_sb (s : State) (d : Nat) (f : DieSt → DieSt) : (updDie s d f).sb = s.sb := rfl
@[simp] theorem updDie_gutter (s : State) (d : Nat) (f : DieSt → DieSt) : (updDie s d f).gutter = s.gutter := rfl
@[simp] theorem updDie_pubs (s : State) (d : Nat) (f : DieSt → DieSt) : (updDie s d f).pubs = s.pubs := rfl
@[simp] theorem updDie_homeq (s : State) (d : Nat) (f : DieSt → DieSt) : (updDie s d f).homeq = s.homeq := rfl
@[simp] theorem updDie_tlb (s : State) (d : Nat) (f : DieSt → DieSt) : (updDie s d f).tlb = s.tlb := rfl
@[simp] theorem updDie_walks (s : State) (d : Nat) (f : DieSt → DieSt) : (updDie s d f).walks = s.walks := rfl
@[simp] theorem updDie_pageRecs (s : State) (d : Nat) (f : DieSt → DieSt) : (updDie s d f).pageRecs = s.pageRecs := rfl
@[simp] theorem updDie_pool (s : State) (d : Nat) (f : DieSt → DieSt) : (updDie s d f).pool = s.pool := rfl
@[simp] theorem updDie_sessions (s : State) (d : Nat) (f : DieSt → DieSt) : (updDie s d f).sessions = s.sessions := rfl
@[simp] theorem updDie_outbox (s : State) (d : Nat) (f : DieSt → DieSt) : (updDie s d f).outbox = s.outbox := rfl
@[simp] theorem updDie_held (s : State) (d : Nat) (f : DieSt → DieSt) : (updDie s d f).held = s.held := rfl
@[simp] theorem updDie_hostWaits (s : State) (d : Nat) (f : DieSt → DieSt) : (updDie s d f).hostWaits = s.hostWaits := rfl
@[simp] theorem updDie_ctl (s : State) (d : Nat) (f : DieSt → DieSt) : (updDie s d f).ctl = s.ctl := rfl
@[simp] theorem updDie_clk (s : State) (d : Nat) (f : DieSt → DieSt) : (updDie s d f).clk = s.clk := rfl
@[simp] theorem updDie_usec (s : State) (d : Nat) (f : DieSt → DieSt) : (updDie s d f).usec = s.usec := rfl
@[simp] theorem updDie_next (s : State) (d : Nat) (f : DieSt → DieSt) : (updDie s d f).next = s.next := rfl
@[simp] theorem updDie_cur (s : State) (d : Nat) (f : DieSt → DieSt) : (updDie s d f).cur = s.cur := rfl
@[simp] theorem updDie_chosen (s : State) (d : Nat) (f : DieSt → DieSt) : (updDie s d f).chosen = s.chosen := rfl
@[simp] theorem updDie_agenda (s : State) (d : Nat) (f : DieSt → DieSt) : (updDie s d f).agenda = s.agenda := rfl
@[simp] theorem updDie_defers (s : State) (d : Nat) (f : DieSt → DieSt) : (updDie s d f).defers = s.defers := rfl
@[simp] theorem updDie_turn (s : State) (d : Nat) (f : DieSt → DieSt) : (updDie s d f).turn = s.turn := rfl
@[simp] theorem updDie_fresh (s : State) (d : Nat) (f : DieSt → DieSt) : (updDie s d f).fresh = s.fresh := rfl
@[simp] theorem updDie_shadow (s : State) (d : Nat) (f : DieSt → DieSt) : (updDie s d f).shadow = s.shadow := rfl

/-! ### `taken` -/

@[simp] theorem taken_mem (s : State) : (taken s).mem = s.mem := rfl
@[simp] theorem taken_keys (s : State) : (taken s).keys = s.keys := rfl
@[simp] theorem taken_enc (s : State) : (taken s).enc = s.enc := rfl
@[simp] theorem taken_bad (s : State) : (taken s).bad = s.bad := rfl
@[simp] theorem taken_gangs (s : State) : (taken s).gangs = s.gangs := rfl
@[simp] theorem taken_insts (s : State) : (taken s).insts = s.insts := rfl
@[simp] theorem taken_ctxs (s : State) : (taken s).ctxs = s.ctxs := rfl
@[simp] theorem taken_cc (s : State) : (taken s).cc = s.cc := rfl
@[simp] theorem taken_bars (s : State) : (taken s).bars = s.bars := rfl
@[simp] theorem taken_cohs (s : State) : (taken s).cohs = s.cohs := rfl
@[simp] theorem taken_cores (s : State) : (taken s).cores = s.cores := rfl
@[simp] theorem taken_dies (s : State) : (taken s).dies = s.dies := rfl
@[simp] theorem taken_owner (s : State) : (taken s).owner = s.owner := rfl
@[simp] theorem taken_queue (s : State) : (taken s).queue = s.queue := rfl
@[simp] theorem taken_sent (s : State) : (taken s).sent = s.sent := rfl
@[simp] theorem taken_sb (s : State) : (taken s).sb = s.sb := rfl
@[simp] theorem taken_gutter (s : State) : (taken s).gutter = s.gutter := rfl
@[simp] theorem taken_pubs (s : State) : (taken s).pubs = s.pubs := rfl
@[simp] theorem taken_homeq (s : State) : (taken s).homeq = s.homeq := rfl
@[simp] theorem taken_tlb (s : State) : (taken s).tlb = s.tlb := rfl
@[simp] theorem taken_walks (s : State) : (taken s).walks = s.walks := rfl
@[simp] theorem taken_pageRecs (s : State) : (taken s).pageRecs = s.pageRecs := rfl
@[simp] theorem taken_pool (s : State) : (taken s).pool = s.pool := rfl
@[simp] theorem taken_sessions (s : State) : (taken s).sessions = s.sessions := rfl
@[simp] theorem taken_outbox (s : State) : (taken s).outbox = s.outbox := rfl
@[simp] theorem taken_held (s : State) : (taken s).held = s.held := rfl
@[simp] theorem taken_hostWaits (s : State) : (taken s).hostWaits = s.hostWaits := rfl
@[simp] theorem taken_ctl (s : State) : (taken s).ctl = s.ctl := rfl
@[simp] theorem taken_clk (s : State) : (taken s).clk = s.clk := rfl
@[simp] theorem taken_usec (s : State) : (taken s).usec = s.usec := rfl
@[simp] theorem taken_cur (s : State) : (taken s).cur = s.cur := rfl
@[simp] theorem taken_chosen (s : State) : (taken s).chosen = s.chosen := rfl
@[simp] theorem taken_agenda (s : State) : (taken s).agenda = s.agenda := rfl
@[simp] theorem taken_defers (s : State) : (taken s).defers = s.defers := rfl
@[simp] theorem taken_turn (s : State) : (taken s).turn = s.turn := rfl
@[simp] theorem taken_fresh (s : State) : (taken s).fresh = s.fresh := rfl
@[simp] theorem taken_shadow (s : State) : (taken s).shadow = s.shadow := rfl

/-! ### `drawn` -/

@[simp] theorem drawn_mem (s : State) : (drawn s).mem = s.mem := rfl
@[simp] theorem drawn_keys (s : State) : (drawn s).keys = s.keys := rfl
@[simp] theorem drawn_enc (s : State) : (drawn s).enc = s.enc := rfl
@[simp] theorem drawn_bad (s : State) : (drawn s).bad = s.bad := rfl
@[simp] theorem drawn_gangs (s : State) : (drawn s).gangs = s.gangs := rfl
@[simp] theorem drawn_insts (s : State) : (drawn s).insts = s.insts := rfl
@[simp] theorem drawn_ctxs (s : State) : (drawn s).ctxs = s.ctxs := rfl
@[simp] theorem drawn_cc (s : State) : (drawn s).cc = s.cc := rfl
@[simp] theorem drawn_bars (s : State) : (drawn s).bars = s.bars := rfl
@[simp] theorem drawn_cohs (s : State) : (drawn s).cohs = s.cohs := rfl
@[simp] theorem drawn_cores (s : State) : (drawn s).cores = s.cores := rfl
@[simp] theorem drawn_dies (s : State) : (drawn s).dies = s.dies := rfl
@[simp] theorem drawn_owner (s : State) : (drawn s).owner = s.owner := rfl
@[simp] theorem drawn_queue (s : State) : (drawn s).queue = s.queue := rfl
@[simp] theorem drawn_sent (s : State) : (drawn s).sent = s.sent := rfl
@[simp] theorem drawn_sb (s : State) : (drawn s).sb = s.sb := rfl
@[simp] theorem drawn_gutter (s : State) : (drawn s).gutter = s.gutter := rfl
@[simp] theorem drawn_pubs (s : State) : (drawn s).pubs = s.pubs := rfl
@[simp] theorem drawn_homeq (s : State) : (drawn s).homeq = s.homeq := rfl
@[simp] theorem drawn_tlb (s : State) : (drawn s).tlb = s.tlb := rfl
@[simp] theorem drawn_walks (s : State) : (drawn s).walks = s.walks := rfl
@[simp] theorem drawn_pageRecs (s : State) : (drawn s).pageRecs = s.pageRecs := rfl
@[simp] theorem drawn_pool (s : State) : (drawn s).pool = s.pool := rfl
@[simp] theorem drawn_sessions (s : State) : (drawn s).sessions = s.sessions := rfl
@[simp] theorem drawn_outbox (s : State) : (drawn s).outbox = s.outbox := rfl
@[simp] theorem drawn_held (s : State) : (drawn s).held = s.held := rfl
@[simp] theorem drawn_hostWaits (s : State) : (drawn s).hostWaits = s.hostWaits := rfl
@[simp] theorem drawn_ctl (s : State) : (drawn s).ctl = s.ctl := rfl
@[simp] theorem drawn_clk (s : State) : (drawn s).clk = s.clk := rfl
@[simp] theorem drawn_usec (s : State) : (drawn s).usec = s.usec := rfl
@[simp] theorem drawn_next (s : State) : (drawn s).next = s.next := rfl
@[simp] theorem drawn_cur (s : State) : (drawn s).cur = s.cur := rfl
@[simp] theorem drawn_chosen (s : State) : (drawn s).chosen = s.chosen := rfl
@[simp] theorem drawn_agenda (s : State) : (drawn s).agenda = s.agenda := rfl
@[simp] theorem drawn_defers (s : State) : (drawn s).defers = s.defers := rfl
@[simp] theorem drawn_turn (s : State) : (drawn s).turn = s.turn := rfl
@[simp] theorem drawn_shadow (s : State) : (drawn s).shadow = s.shadow := rfl

/-! ### `writeByte` -/

@[simp] theorem writeByte_keys (s : State) (loc : Nat) (b : Byte) : (writeByte s loc b).keys = s.keys := rfl
@[simp] theorem writeByte_enc (s : State) (loc : Nat) (b : Byte) : (writeByte s loc b).enc = s.enc := rfl
@[simp] theorem writeByte_bad (s : State) (loc : Nat) (b : Byte) : (writeByte s loc b).bad = s.bad := rfl
@[simp] theorem writeByte_gangs (s : State) (loc : Nat) (b : Byte) : (writeByte s loc b).gangs = s.gangs := rfl
@[simp] theorem writeByte_insts (s : State) (loc : Nat) (b : Byte) : (writeByte s loc b).insts = s.insts := rfl
@[simp] theorem writeByte_ctxs (s : State) (loc : Nat) (b : Byte) : (writeByte s loc b).ctxs = s.ctxs := rfl
@[simp] theorem writeByte_cc (s : State) (loc : Nat) (b : Byte) : (writeByte s loc b).cc = s.cc := rfl
@[simp] theorem writeByte_bars (s : State) (loc : Nat) (b : Byte) : (writeByte s loc b).bars = s.bars := rfl
@[simp] theorem writeByte_cohs (s : State) (loc : Nat) (b : Byte) : (writeByte s loc b).cohs = s.cohs := rfl
@[simp] theorem writeByte_cores (s : State) (loc : Nat) (b : Byte) : (writeByte s loc b).cores = s.cores := rfl
@[simp] theorem writeByte_dies (s : State) (loc : Nat) (b : Byte) : (writeByte s loc b).dies = s.dies := rfl
@[simp] theorem writeByte_owner (s : State) (loc : Nat) (b : Byte) : (writeByte s loc b).owner = s.owner := rfl
@[simp] theorem writeByte_queue (s : State) (loc : Nat) (b : Byte) : (writeByte s loc b).queue = s.queue := rfl
@[simp] theorem writeByte_sent (s : State) (loc : Nat) (b : Byte) : (writeByte s loc b).sent = s.sent := rfl
@[simp] theorem writeByte_sb (s : State) (loc : Nat) (b : Byte) : (writeByte s loc b).sb = s.sb := rfl
@[simp] theorem writeByte_gutter (s : State) (loc : Nat) (b : Byte) : (writeByte s loc b).gutter = s.gutter := rfl
@[simp] theorem writeByte_pubs (s : State) (loc : Nat) (b : Byte) : (writeByte s loc b).pubs = s.pubs := rfl
@[simp] theorem writeByte_homeq (s : State) (loc : Nat) (b : Byte) : (writeByte s loc b).homeq = s.homeq := rfl
@[simp] theorem writeByte_tlb (s : State) (loc : Nat) (b : Byte) : (writeByte s loc b).tlb = s.tlb := rfl
@[simp] theorem writeByte_walks (s : State) (loc : Nat) (b : Byte) : (writeByte s loc b).walks = s.walks := rfl
@[simp] theorem writeByte_pageRecs (s : State) (loc : Nat) (b : Byte) : (writeByte s loc b).pageRecs = s.pageRecs := rfl
@[simp] theorem writeByte_pool (s : State) (loc : Nat) (b : Byte) : (writeByte s loc b).pool = s.pool := rfl
@[simp] theorem writeByte_sessions (s : State) (loc : Nat) (b : Byte) : (writeByte s loc b).sessions = s.sessions := rfl
@[simp] theorem writeByte_outbox (s : State) (loc : Nat) (b : Byte) : (writeByte s loc b).outbox = s.outbox := rfl
@[simp] theorem writeByte_held (s : State) (loc : Nat) (b : Byte) : (writeByte s loc b).held = s.held := rfl
@[simp] theorem writeByte_hostWaits (s : State) (loc : Nat) (b : Byte) : (writeByte s loc b).hostWaits = s.hostWaits := rfl
@[simp] theorem writeByte_ctl (s : State) (loc : Nat) (b : Byte) : (writeByte s loc b).ctl = s.ctl := rfl
@[simp] theorem writeByte_clk (s : State) (loc : Nat) (b : Byte) : (writeByte s loc b).clk = s.clk := rfl
@[simp] theorem writeByte_usec (s : State) (loc : Nat) (b : Byte) : (writeByte s loc b).usec = s.usec := rfl
@[simp] theorem writeByte_next (s : State) (loc : Nat) (b : Byte) : (writeByte s loc b).next = s.next := rfl
@[simp] theorem writeByte_cur (s : State) (loc : Nat) (b : Byte) : (writeByte s loc b).cur = s.cur := rfl
@[simp] theorem writeByte_chosen (s : State) (loc : Nat) (b : Byte) : (writeByte s loc b).chosen = s.chosen := rfl
@[simp] theorem writeByte_agenda (s : State) (loc : Nat) (b : Byte) : (writeByte s loc b).agenda = s.agenda := rfl
@[simp] theorem writeByte_defers (s : State) (loc : Nat) (b : Byte) : (writeByte s loc b).defers = s.defers := rfl
@[simp] theorem writeByte_turn (s : State) (loc : Nat) (b : Byte) : (writeByte s loc b).turn = s.turn := rfl
@[simp] theorem writeByte_fresh (s : State) (loc : Nat) (b : Byte) : (writeByte s loc b).fresh = s.fresh := rfl
@[simp] theorem writeByte_shadow (s : State) (loc : Nat) (b : Byte) : (writeByte s loc b).shadow = s.shadow := rfl

/-! ### `writeBytes` -/

@[simp] theorem writeBytes_keys (s : State) (kvs : List (Nat × Byte)) : (writeBytes s kvs).keys = s.keys := rfl
@[simp] theorem writeBytes_enc (s : State) (kvs : List (Nat × Byte)) : (writeBytes s kvs).enc = s.enc := rfl
@[simp] theorem writeBytes_bad (s : State) (kvs : List (Nat × Byte)) : (writeBytes s kvs).bad = s.bad := rfl
@[simp] theorem writeBytes_gangs (s : State) (kvs : List (Nat × Byte)) : (writeBytes s kvs).gangs = s.gangs := rfl
@[simp] theorem writeBytes_insts (s : State) (kvs : List (Nat × Byte)) : (writeBytes s kvs).insts = s.insts := rfl
@[simp] theorem writeBytes_ctxs (s : State) (kvs : List (Nat × Byte)) : (writeBytes s kvs).ctxs = s.ctxs := rfl
@[simp] theorem writeBytes_cc (s : State) (kvs : List (Nat × Byte)) : (writeBytes s kvs).cc = s.cc := rfl
@[simp] theorem writeBytes_bars (s : State) (kvs : List (Nat × Byte)) : (writeBytes s kvs).bars = s.bars := rfl
@[simp] theorem writeBytes_cohs (s : State) (kvs : List (Nat × Byte)) : (writeBytes s kvs).cohs = s.cohs := rfl
@[simp] theorem writeBytes_cores (s : State) (kvs : List (Nat × Byte)) : (writeBytes s kvs).cores = s.cores := rfl
@[simp] theorem writeBytes_dies (s : State) (kvs : List (Nat × Byte)) : (writeBytes s kvs).dies = s.dies := rfl
@[simp] theorem writeBytes_owner (s : State) (kvs : List (Nat × Byte)) : (writeBytes s kvs).owner = s.owner := rfl
@[simp] theorem writeBytes_queue (s : State) (kvs : List (Nat × Byte)) : (writeBytes s kvs).queue = s.queue := rfl
@[simp] theorem writeBytes_sent (s : State) (kvs : List (Nat × Byte)) : (writeBytes s kvs).sent = s.sent := rfl
@[simp] theorem writeBytes_sb (s : State) (kvs : List (Nat × Byte)) : (writeBytes s kvs).sb = s.sb := rfl
@[simp] theorem writeBytes_gutter (s : State) (kvs : List (Nat × Byte)) : (writeBytes s kvs).gutter = s.gutter := rfl
@[simp] theorem writeBytes_pubs (s : State) (kvs : List (Nat × Byte)) : (writeBytes s kvs).pubs = s.pubs := rfl
@[simp] theorem writeBytes_homeq (s : State) (kvs : List (Nat × Byte)) : (writeBytes s kvs).homeq = s.homeq := rfl
@[simp] theorem writeBytes_tlb (s : State) (kvs : List (Nat × Byte)) : (writeBytes s kvs).tlb = s.tlb := rfl
@[simp] theorem writeBytes_walks (s : State) (kvs : List (Nat × Byte)) : (writeBytes s kvs).walks = s.walks := rfl
@[simp] theorem writeBytes_pageRecs (s : State) (kvs : List (Nat × Byte)) : (writeBytes s kvs).pageRecs = s.pageRecs := rfl
@[simp] theorem writeBytes_pool (s : State) (kvs : List (Nat × Byte)) : (writeBytes s kvs).pool = s.pool := rfl
@[simp] theorem writeBytes_sessions (s : State) (kvs : List (Nat × Byte)) : (writeBytes s kvs).sessions = s.sessions := rfl
@[simp] theorem writeBytes_outbox (s : State) (kvs : List (Nat × Byte)) : (writeBytes s kvs).outbox = s.outbox := rfl
@[simp] theorem writeBytes_held (s : State) (kvs : List (Nat × Byte)) : (writeBytes s kvs).held = s.held := rfl
@[simp] theorem writeBytes_hostWaits (s : State) (kvs : List (Nat × Byte)) : (writeBytes s kvs).hostWaits = s.hostWaits := rfl
@[simp] theorem writeBytes_ctl (s : State) (kvs : List (Nat × Byte)) : (writeBytes s kvs).ctl = s.ctl := rfl
@[simp] theorem writeBytes_clk (s : State) (kvs : List (Nat × Byte)) : (writeBytes s kvs).clk = s.clk := rfl
@[simp] theorem writeBytes_usec (s : State) (kvs : List (Nat × Byte)) : (writeBytes s kvs).usec = s.usec := rfl
@[simp] theorem writeBytes_next (s : State) (kvs : List (Nat × Byte)) : (writeBytes s kvs).next = s.next := rfl
@[simp] theorem writeBytes_cur (s : State) (kvs : List (Nat × Byte)) : (writeBytes s kvs).cur = s.cur := rfl
@[simp] theorem writeBytes_chosen (s : State) (kvs : List (Nat × Byte)) : (writeBytes s kvs).chosen = s.chosen := rfl
@[simp] theorem writeBytes_agenda (s : State) (kvs : List (Nat × Byte)) : (writeBytes s kvs).agenda = s.agenda := rfl
@[simp] theorem writeBytes_defers (s : State) (kvs : List (Nat × Byte)) : (writeBytes s kvs).defers = s.defers := rfl
@[simp] theorem writeBytes_turn (s : State) (kvs : List (Nat × Byte)) : (writeBytes s kvs).turn = s.turn := rfl
@[simp] theorem writeBytes_fresh (s : State) (kvs : List (Nat × Byte)) : (writeBytes s kvs).fresh = s.fresh := rfl
@[simp] theorem writeBytes_shadow (s : State) (kvs : List (Nat × Byte)) : (writeBytes s kvs).shadow = s.shadow := rfl

/-! ### `updGang` -/

@[simp] theorem updGang_mem (s : State) (gk : Nat) (f : Gang → Gang) : (updGang s gk f).mem = s.mem := by
  unfold updGang; split <;> rfl
@[simp] theorem updGang_keys (s : State) (gk : Nat) (f : Gang → Gang) : (updGang s gk f).keys = s.keys := by
  unfold updGang; split <;> rfl
@[simp] theorem updGang_enc (s : State) (gk : Nat) (f : Gang → Gang) : (updGang s gk f).enc = s.enc := by
  unfold updGang; split <;> rfl
@[simp] theorem updGang_bad (s : State) (gk : Nat) (f : Gang → Gang) : (updGang s gk f).bad = s.bad := by
  unfold updGang; split <;> rfl
@[simp] theorem updGang_insts (s : State) (gk : Nat) (f : Gang → Gang) : (updGang s gk f).insts = s.insts := by
  unfold updGang; split <;> rfl
@[simp] theorem updGang_ctxs (s : State) (gk : Nat) (f : Gang → Gang) : (updGang s gk f).ctxs = s.ctxs := by
  unfold updGang; split <;> rfl
@[simp] theorem updGang_cc (s : State) (gk : Nat) (f : Gang → Gang) : (updGang s gk f).cc = s.cc := by
  unfold updGang; split <;> rfl
@[simp] theorem updGang_bars (s : State) (gk : Nat) (f : Gang → Gang) : (updGang s gk f).bars = s.bars := by
  unfold updGang; split <;> rfl
@[simp] theorem updGang_cohs (s : State) (gk : Nat) (f : Gang → Gang) : (updGang s gk f).cohs = s.cohs := by
  unfold updGang; split <;> rfl
@[simp] theorem updGang_cores (s : State) (gk : Nat) (f : Gang → Gang) : (updGang s gk f).cores = s.cores := by
  unfold updGang; split <;> rfl
@[simp] theorem updGang_dies (s : State) (gk : Nat) (f : Gang → Gang) : (updGang s gk f).dies = s.dies := by
  unfold updGang; split <;> rfl
@[simp] theorem updGang_owner (s : State) (gk : Nat) (f : Gang → Gang) : (updGang s gk f).owner = s.owner := by
  unfold updGang; split <;> rfl
@[simp] theorem updGang_queue (s : State) (gk : Nat) (f : Gang → Gang) : (updGang s gk f).queue = s.queue := by
  unfold updGang; split <;> rfl
@[simp] theorem updGang_sent (s : State) (gk : Nat) (f : Gang → Gang) : (updGang s gk f).sent = s.sent := by
  unfold updGang; split <;> rfl
@[simp] theorem updGang_sb (s : State) (gk : Nat) (f : Gang → Gang) : (updGang s gk f).sb = s.sb := by
  unfold updGang; split <;> rfl
@[simp] theorem updGang_gutter (s : State) (gk : Nat) (f : Gang → Gang) : (updGang s gk f).gutter = s.gutter := by
  unfold updGang; split <;> rfl
@[simp] theorem updGang_pubs (s : State) (gk : Nat) (f : Gang → Gang) : (updGang s gk f).pubs = s.pubs := by
  unfold updGang; split <;> rfl
@[simp] theorem updGang_homeq (s : State) (gk : Nat) (f : Gang → Gang) : (updGang s gk f).homeq = s.homeq := by
  unfold updGang; split <;> rfl
@[simp] theorem updGang_tlb (s : State) (gk : Nat) (f : Gang → Gang) : (updGang s gk f).tlb = s.tlb := by
  unfold updGang; split <;> rfl
@[simp] theorem updGang_walks (s : State) (gk : Nat) (f : Gang → Gang) : (updGang s gk f).walks = s.walks := by
  unfold updGang; split <;> rfl
@[simp] theorem updGang_pageRecs (s : State) (gk : Nat) (f : Gang → Gang) : (updGang s gk f).pageRecs = s.pageRecs := by
  unfold updGang; split <;> rfl
@[simp] theorem updGang_pool (s : State) (gk : Nat) (f : Gang → Gang) : (updGang s gk f).pool = s.pool := by
  unfold updGang; split <;> rfl
@[simp] theorem updGang_sessions (s : State) (gk : Nat) (f : Gang → Gang) : (updGang s gk f).sessions = s.sessions := by
  unfold updGang; split <;> rfl
@[simp] theorem updGang_outbox (s : State) (gk : Nat) (f : Gang → Gang) : (updGang s gk f).outbox = s.outbox := by
  unfold updGang; split <;> rfl
@[simp] theorem updGang_held (s : State) (gk : Nat) (f : Gang → Gang) : (updGang s gk f).held = s.held := by
  unfold updGang; split <;> rfl
@[simp] theorem updGang_hostWaits (s : State) (gk : Nat) (f : Gang → Gang) : (updGang s gk f).hostWaits = s.hostWaits := by
  unfold updGang; split <;> rfl
@[simp] theorem updGang_ctl (s : State) (gk : Nat) (f : Gang → Gang) : (updGang s gk f).ctl = s.ctl := by
  unfold updGang; split <;> rfl
@[simp] theorem updGang_clk (s : State) (gk : Nat) (f : Gang → Gang) : (updGang s gk f).clk = s.clk := by
  unfold updGang; split <;> rfl
@[simp] theorem updGang_usec (s : State) (gk : Nat) (f : Gang → Gang) : (updGang s gk f).usec = s.usec := by
  unfold updGang; split <;> rfl
@[simp] theorem updGang_next (s : State) (gk : Nat) (f : Gang → Gang) : (updGang s gk f).next = s.next := by
  unfold updGang; split <;> rfl
@[simp] theorem updGang_cur (s : State) (gk : Nat) (f : Gang → Gang) : (updGang s gk f).cur = s.cur := by
  unfold updGang; split <;> rfl
@[simp] theorem updGang_chosen (s : State) (gk : Nat) (f : Gang → Gang) : (updGang s gk f).chosen = s.chosen := by
  unfold updGang; split <;> rfl
@[simp] theorem updGang_agenda (s : State) (gk : Nat) (f : Gang → Gang) : (updGang s gk f).agenda = s.agenda := by
  unfold updGang; split <;> rfl
@[simp] theorem updGang_defers (s : State) (gk : Nat) (f : Gang → Gang) : (updGang s gk f).defers = s.defers := by
  unfold updGang; split <;> rfl
@[simp] theorem updGang_turn (s : State) (gk : Nat) (f : Gang → Gang) : (updGang s gk f).turn = s.turn := by
  unfold updGang; split <;> rfl
@[simp] theorem updGang_fresh (s : State) (gk : Nat) (f : Gang → Gang) : (updGang s gk f).fresh = s.fresh := by
  unfold updGang; split <;> rfl
@[simp] theorem updGang_shadow (s : State) (gk : Nat) (f : Gang → Gang) : (updGang s gk f).shadow = s.shadow := by
  unfold updGang; split <;> rfl

/-! ### `updInst` -/

@[simp] theorem updInst_mem (s : State) (id : Nat) (f : Inst → Inst) : (updInst s id f).mem = s.mem := by
  unfold updInst; split <;> rfl
@[simp] theorem updInst_keys (s : State) (id : Nat) (f : Inst → Inst) : (updInst s id f).keys = s.keys := by
  unfold updInst; split <;> rfl
@[simp] theorem updInst_enc (s : State) (id : Nat) (f : Inst → Inst) : (updInst s id f).enc = s.enc := by
  unfold updInst; split <;> rfl
@[simp] theorem updInst_bad (s : State) (id : Nat) (f : Inst → Inst) : (updInst s id f).bad = s.bad := by
  unfold updInst; split <;> rfl
@[simp] theorem updInst_gangs (s : State) (id : Nat) (f : Inst → Inst) : (updInst s id f).gangs = s.gangs := by
  unfold updInst; split <;> rfl
@[simp] theorem updInst_ctxs (s : State) (id : Nat) (f : Inst → Inst) : (updInst s id f).ctxs = s.ctxs := by
  unfold updInst; split <;> rfl
@[simp] theorem updInst_cc (s : State) (id : Nat) (f : Inst → Inst) : (updInst s id f).cc = s.cc := by
  unfold updInst; split <;> rfl
@[simp] theorem updInst_bars (s : State) (id : Nat) (f : Inst → Inst) : (updInst s id f).bars = s.bars := by
  unfold updInst; split <;> rfl
@[simp] theorem updInst_cohs (s : State) (id : Nat) (f : Inst → Inst) : (updInst s id f).cohs = s.cohs := by
  unfold updInst; split <;> rfl
@[simp] theorem updInst_cores (s : State) (id : Nat) (f : Inst → Inst) : (updInst s id f).cores = s.cores := by
  unfold updInst; split <;> rfl
@[simp] theorem updInst_dies (s : State) (id : Nat) (f : Inst → Inst) : (updInst s id f).dies = s.dies := by
  unfold updInst; split <;> rfl
@[simp] theorem updInst_owner (s : State) (id : Nat) (f : Inst → Inst) : (updInst s id f).owner = s.owner := by
  unfold updInst; split <;> rfl
@[simp] theorem updInst_queue (s : State) (id : Nat) (f : Inst → Inst) : (updInst s id f).queue = s.queue := by
  unfold updInst; split <;> rfl
@[simp] theorem updInst_sent (s : State) (id : Nat) (f : Inst → Inst) : (updInst s id f).sent = s.sent := by
  unfold updInst; split <;> rfl
@[simp] theorem updInst_sb (s : State) (id : Nat) (f : Inst → Inst) : (updInst s id f).sb = s.sb := by
  unfold updInst; split <;> rfl
@[simp] theorem updInst_gutter (s : State) (id : Nat) (f : Inst → Inst) : (updInst s id f).gutter = s.gutter := by
  unfold updInst; split <;> rfl
@[simp] theorem updInst_pubs (s : State) (id : Nat) (f : Inst → Inst) : (updInst s id f).pubs = s.pubs := by
  unfold updInst; split <;> rfl
@[simp] theorem updInst_homeq (s : State) (id : Nat) (f : Inst → Inst) : (updInst s id f).homeq = s.homeq := by
  unfold updInst; split <;> rfl
@[simp] theorem updInst_tlb (s : State) (id : Nat) (f : Inst → Inst) : (updInst s id f).tlb = s.tlb := by
  unfold updInst; split <;> rfl
@[simp] theorem updInst_walks (s : State) (id : Nat) (f : Inst → Inst) : (updInst s id f).walks = s.walks := by
  unfold updInst; split <;> rfl
@[simp] theorem updInst_pageRecs (s : State) (id : Nat) (f : Inst → Inst) : (updInst s id f).pageRecs = s.pageRecs := by
  unfold updInst; split <;> rfl
@[simp] theorem updInst_pool (s : State) (id : Nat) (f : Inst → Inst) : (updInst s id f).pool = s.pool := by
  unfold updInst; split <;> rfl
@[simp] theorem updInst_sessions (s : State) (id : Nat) (f : Inst → Inst) : (updInst s id f).sessions = s.sessions := by
  unfold updInst; split <;> rfl
@[simp] theorem updInst_outbox (s : State) (id : Nat) (f : Inst → Inst) : (updInst s id f).outbox = s.outbox := by
  unfold updInst; split <;> rfl
@[simp] theorem updInst_held (s : State) (id : Nat) (f : Inst → Inst) : (updInst s id f).held = s.held := by
  unfold updInst; split <;> rfl
@[simp] theorem updInst_hostWaits (s : State) (id : Nat) (f : Inst → Inst) : (updInst s id f).hostWaits = s.hostWaits := by
  unfold updInst; split <;> rfl
@[simp] theorem updInst_ctl (s : State) (id : Nat) (f : Inst → Inst) : (updInst s id f).ctl = s.ctl := by
  unfold updInst; split <;> rfl
@[simp] theorem updInst_clk (s : State) (id : Nat) (f : Inst → Inst) : (updInst s id f).clk = s.clk := by
  unfold updInst; split <;> rfl
@[simp] theorem updInst_usec (s : State) (id : Nat) (f : Inst → Inst) : (updInst s id f).usec = s.usec := by
  unfold updInst; split <;> rfl
@[simp] theorem updInst_next (s : State) (id : Nat) (f : Inst → Inst) : (updInst s id f).next = s.next := by
  unfold updInst; split <;> rfl
@[simp] theorem updInst_cur (s : State) (id : Nat) (f : Inst → Inst) : (updInst s id f).cur = s.cur := by
  unfold updInst; split <;> rfl
@[simp] theorem updInst_chosen (s : State) (id : Nat) (f : Inst → Inst) : (updInst s id f).chosen = s.chosen := by
  unfold updInst; split <;> rfl
@[simp] theorem updInst_agenda (s : State) (id : Nat) (f : Inst → Inst) : (updInst s id f).agenda = s.agenda := by
  unfold updInst; split <;> rfl
@[simp] theorem updInst_defers (s : State) (id : Nat) (f : Inst → Inst) : (updInst s id f).defers = s.defers := by
  unfold updInst; split <;> rfl
@[simp] theorem updInst_turn (s : State) (id : Nat) (f : Inst → Inst) : (updInst s id f).turn = s.turn := by
  unfold updInst; split <;> rfl
@[simp] theorem updInst_fresh (s : State) (id : Nat) (f : Inst → Inst) : (updInst s id f).fresh = s.fresh := by
  unfold updInst; split <;> rfl
@[simp] theorem updInst_shadow (s : State) (id : Nat) (f : Inst → Inst) : (updInst s id f).shadow = s.shadow := by
  unfold updInst; split <;> rfl

/-! ### `updCtx` -/

@[simp] theorem updCtx_mem (s : State) (c : Nat) (f : Context → Context) : (updCtx s c f).mem = s.mem := by
  unfold updCtx; split <;> rfl
@[simp] theorem updCtx_keys (s : State) (c : Nat) (f : Context → Context) : (updCtx s c f).keys = s.keys := by
  unfold updCtx; split <;> rfl
@[simp] theorem updCtx_enc (s : State) (c : Nat) (f : Context → Context) : (updCtx s c f).enc = s.enc := by
  unfold updCtx; split <;> rfl
@[simp] theorem updCtx_bad (s : State) (c : Nat) (f : Context → Context) : (updCtx s c f).bad = s.bad := by
  unfold updCtx; split <;> rfl
@[simp] theorem updCtx_gangs (s : State) (c : Nat) (f : Context → Context) : (updCtx s c f).gangs = s.gangs := by
  unfold updCtx; split <;> rfl
@[simp] theorem updCtx_insts (s : State) (c : Nat) (f : Context → Context) : (updCtx s c f).insts = s.insts := by
  unfold updCtx; split <;> rfl
@[simp] theorem updCtx_cc (s : State) (c : Nat) (f : Context → Context) : (updCtx s c f).cc = s.cc := by
  unfold updCtx; split <;> rfl
@[simp] theorem updCtx_bars (s : State) (c : Nat) (f : Context → Context) : (updCtx s c f).bars = s.bars := by
  unfold updCtx; split <;> rfl
@[simp] theorem updCtx_cohs (s : State) (c : Nat) (f : Context → Context) : (updCtx s c f).cohs = s.cohs := by
  unfold updCtx; split <;> rfl
@[simp] theorem updCtx_cores (s : State) (c : Nat) (f : Context → Context) : (updCtx s c f).cores = s.cores := by
  unfold updCtx; split <;> rfl
@[simp] theorem updCtx_dies (s : State) (c : Nat) (f : Context → Context) : (updCtx s c f).dies = s.dies := by
  unfold updCtx; split <;> rfl
@[simp] theorem updCtx_owner (s : State) (c : Nat) (f : Context → Context) : (updCtx s c f).owner = s.owner := by
  unfold updCtx; split <;> rfl
@[simp] theorem updCtx_queue (s : State) (c : Nat) (f : Context → Context) : (updCtx s c f).queue = s.queue := by
  unfold updCtx; split <;> rfl
@[simp] theorem updCtx_sent (s : State) (c : Nat) (f : Context → Context) : (updCtx s c f).sent = s.sent := by
  unfold updCtx; split <;> rfl
@[simp] theorem updCtx_sb (s : State) (c : Nat) (f : Context → Context) : (updCtx s c f).sb = s.sb := by
  unfold updCtx; split <;> rfl
@[simp] theorem updCtx_gutter (s : State) (c : Nat) (f : Context → Context) : (updCtx s c f).gutter = s.gutter := by
  unfold updCtx; split <;> rfl
@[simp] theorem updCtx_pubs (s : State) (c : Nat) (f : Context → Context) : (updCtx s c f).pubs = s.pubs := by
  unfold updCtx; split <;> rfl
@[simp] theorem updCtx_homeq (s : State) (c : Nat) (f : Context → Context) : (updCtx s c f).homeq = s.homeq := by
  unfold updCtx; split <;> rfl
@[simp] theorem updCtx_tlb (s : State) (c : Nat) (f : Context → Context) : (updCtx s c f).tlb = s.tlb := by
  unfold updCtx; split <;> rfl
@[simp] theorem updCtx_walks (s : State) (c : Nat) (f : Context → Context) : (updCtx s c f).walks = s.walks := by
  unfold updCtx; split <;> rfl
@[simp] theorem updCtx_pageRecs (s : State) (c : Nat) (f : Context → Context) : (updCtx s c f).pageRecs = s.pageRecs := by
  unfold updCtx; split <;> rfl
@[simp] theorem updCtx_pool (s : State) (c : Nat) (f : Context → Context) : (updCtx s c f).pool = s.pool := by
  unfold updCtx; split <;> rfl
@[simp] theorem updCtx_sessions (s : State) (c : Nat) (f : Context → Context) : (updCtx s c f).sessions = s.sessions := by
  unfold updCtx; split <;> rfl
@[simp] theorem updCtx_outbox (s : State) (c : Nat) (f : Context → Context) : (updCtx s c f).outbox = s.outbox := by
  unfold updCtx; split <;> rfl
@[simp] theorem updCtx_held (s : State) (c : Nat) (f : Context → Context) : (updCtx s c f).held = s.held := by
  unfold updCtx; split <;> rfl
@[simp] theorem updCtx_hostWaits (s : State) (c : Nat) (f : Context → Context) : (updCtx s c f).hostWaits = s.hostWaits := by
  unfold updCtx; split <;> rfl
@[simp] theorem updCtx_ctl (s : State) (c : Nat) (f : Context → Context) : (updCtx s c f).ctl = s.ctl := by
  unfold updCtx; split <;> rfl
@[simp] theorem updCtx_clk (s : State) (c : Nat) (f : Context → Context) : (updCtx s c f).clk = s.clk := by
  unfold updCtx; split <;> rfl
@[simp] theorem updCtx_usec (s : State) (c : Nat) (f : Context → Context) : (updCtx s c f).usec = s.usec := by
  unfold updCtx; split <;> rfl
@[simp] theorem updCtx_next (s : State) (c : Nat) (f : Context → Context) : (updCtx s c f).next = s.next := by
  unfold updCtx; split <;> rfl
@[simp] theorem updCtx_cur (s : State) (c : Nat) (f : Context → Context) : (updCtx s c f).cur = s.cur := by
  unfold updCtx; split <;> rfl
@[simp] theorem updCtx_chosen (s : State) (c : Nat) (f : Context → Context) : (updCtx s c f).chosen = s.chosen := by
  unfold updCtx; split <;> rfl
@[simp] theorem updCtx_agenda (s : State) (c : Nat) (f : Context → Context) : (updCtx s c f).agenda = s.agenda := by
  unfold updCtx; split <;> rfl
@[simp] theorem updCtx_defers (s : State) (c : Nat) (f : Context → Context) : (updCtx s c f).defers = s.defers := by
  unfold updCtx; split <;> rfl
@[simp] theorem updCtx_turn (s : State) (c : Nat) (f : Context → Context) : (updCtx s c f).turn = s.turn := by
  unfold updCtx; split <;> rfl
@[simp] theorem updCtx_fresh (s : State) (c : Nat) (f : Context → Context) : (updCtx s c f).fresh = s.fresh := by
  unfold updCtx; split <;> rfl
@[simp] theorem updCtx_shadow (s : State) (c : Nat) (f : Context → Context) : (updCtx s c f).shadow = s.shadow := by
  unfold updCtx; split <;> rfl

/-! ### `updGroup` -/

@[simp] theorem updGroup_mem (s : State) (gk gid : Nat) (f : Group → Group) : (updGroup s gk gid f).mem = s.mem := updGang_mem s gk _
@[simp] theorem updGroup_keys (s : State) (gk gid : Nat) (f : Group → Group) : (updGroup s gk gid f).keys = s.keys := updGang_keys s gk _
@[simp] theorem updGroup_enc (s : State) (gk gid : Nat) (f : Group → Group) : (updGroup s gk gid f).enc = s.enc := updGang_enc s gk _
@[simp] theorem updGroup_bad (s : State) (gk gid : Nat) (f : Group → Group) : (updGroup s gk gid f).bad = s.bad := updGang_bad s gk _
@[simp] theorem updGroup_insts (s : State) (gk gid : Nat) (f : Group → Group) : (updGroup s gk gid f).insts = s.insts := updGang_insts s gk _
@[simp] theorem updGroup_ctxs (s : State) (gk gid : Nat) (f : Group → Group) : (updGroup s gk gid f).ctxs = s.ctxs := updGang_ctxs s gk _
@[simp] theorem updGroup_cc (s : State) (gk gid : Nat) (f : Group → Group) : (updGroup s gk gid f).cc = s.cc := updGang_cc s gk _
@[simp] theorem updGroup_bars (s : State) (gk gid : Nat) (f : Group → Group) : (updGroup s gk gid f).bars = s.bars := updGang_bars s gk _
@[simp] theorem updGroup_cohs (s : State) (gk gid : Nat) (f : Group → Group) : (updGroup s gk gid f).cohs = s.cohs := updGang_cohs s gk _
@[simp] theorem updGroup_cores (s : State) (gk gid : Nat) (f : Group → Group) : (updGroup s gk gid f).cores = s.cores := updGang_cores s gk _
@[simp] theorem updGroup_dies (s : State) (gk gid : Nat) (f : Group → Group) : (updGroup s gk gid f).dies = s.dies := updGang_dies s gk _
@[simp] theorem updGroup_owner (s : State) (gk gid : Nat) (f : Group → Group) : (updGroup s gk gid f).owner = s.owner := updGang_owner s gk _
@[simp] theorem updGroup_queue (s : State) (gk gid : Nat) (f : Group → Group) : (updGroup s gk gid f).queue = s.queue := updGang_queue s gk _
@[simp] theorem updGroup_sent (s : State) (gk gid : Nat) (f : Group → Group) : (updGroup s gk gid f).sent = s.sent := updGang_sent s gk _
@[simp] theorem updGroup_sb (s : State) (gk gid : Nat) (f : Group → Group) : (updGroup s gk gid f).sb = s.sb := updGang_sb s gk _
@[simp] theorem updGroup_gutter (s : State) (gk gid : Nat) (f : Group → Group) : (updGroup s gk gid f).gutter = s.gutter := updGang_gutter s gk _
@[simp] theorem updGroup_pubs (s : State) (gk gid : Nat) (f : Group → Group) : (updGroup s gk gid f).pubs = s.pubs := updGang_pubs s gk _
@[simp] theorem updGroup_homeq (s : State) (gk gid : Nat) (f : Group → Group) : (updGroup s gk gid f).homeq = s.homeq := updGang_homeq s gk _
@[simp] theorem updGroup_tlb (s : State) (gk gid : Nat) (f : Group → Group) : (updGroup s gk gid f).tlb = s.tlb := updGang_tlb s gk _
@[simp] theorem updGroup_walks (s : State) (gk gid : Nat) (f : Group → Group) : (updGroup s gk gid f).walks = s.walks := updGang_walks s gk _
@[simp] theorem updGroup_pageRecs (s : State) (gk gid : Nat) (f : Group → Group) : (updGroup s gk gid f).pageRecs = s.pageRecs := updGang_pageRecs s gk _
@[simp] theorem updGroup_pool (s : State) (gk gid : Nat) (f : Group → Group) : (updGroup s gk gid f).pool = s.pool := updGang_pool s gk _
@[simp] theorem updGroup_sessions (s : State) (gk gid : Nat) (f : Group → Group) : (updGroup s gk gid f).sessions = s.sessions := updGang_sessions s gk _
@[simp] theorem updGroup_outbox (s : State) (gk gid : Nat) (f : Group → Group) : (updGroup s gk gid f).outbox = s.outbox := updGang_outbox s gk _
@[simp] theorem updGroup_held (s : State) (gk gid : Nat) (f : Group → Group) : (updGroup s gk gid f).held = s.held := updGang_held s gk _
@[simp] theorem updGroup_hostWaits (s : State) (gk gid : Nat) (f : Group → Group) : (updGroup s gk gid f).hostWaits = s.hostWaits := updGang_hostWaits s gk _
@[simp] theorem updGroup_ctl (s : State) (gk gid : Nat) (f : Group → Group) : (updGroup s gk gid f).ctl = s.ctl := updGang_ctl s gk _
@[simp] theorem updGroup_clk (s : State) (gk gid : Nat) (f : Group → Group) : (updGroup s gk gid f).clk = s.clk := updGang_clk s gk _
@[simp] theorem updGroup_usec (s : State) (gk gid : Nat) (f : Group → Group) : (updGroup s gk gid f).usec = s.usec := updGang_usec s gk _
@[simp] theorem updGroup_next (s : State) (gk gid : Nat) (f : Group → Group) : (updGroup s gk gid f).next = s.next := updGang_next s gk _
@[simp] theorem updGroup_cur (s : State) (gk gid : Nat) (f : Group → Group) : (updGroup s gk gid f).cur = s.cur := updGang_cur s gk _
@[simp] theorem updGroup_chosen (s : State) (gk gid : Nat) (f : Group → Group) : (updGroup s gk gid f).chosen = s.chosen := updGang_chosen s gk _
@[simp] theorem updGroup_agenda (s : State) (gk gid : Nat) (f : Group → Group) : (updGroup s gk gid f).agenda = s.agenda := updGang_agenda s gk _
@[simp] theorem updGroup_defers (s : State) (gk gid : Nat) (f : Group → Group) : (updGroup s gk gid f).defers = s.defers := updGang_defers s gk _
@[simp] theorem updGroup_turn (s : State) (gk gid : Nat) (f : Group → Group) : (updGroup s gk gid f).turn = s.turn := updGang_turn s gk _
@[simp] theorem updGroup_fresh (s : State) (gk gid : Nat) (f : Group → Group) : (updGroup s gk gid f).fresh = s.fresh := updGang_fresh s gk _
@[simp] theorem updGroup_shadow (s : State) (gk gid : Nat) (f : Group → Group) : (updGroup s gk gid f).shadow = s.shadow := updGang_shadow s gk _

end Sys2Proof.Machine
end

