-- ==== Sys2Proof/Laws/Issue.lean ====
section
/-!
SUPPORT. What the opening of an instruction word comes to, case by case: the lemmas that later proofs
cite in place of unfolding `issue`.
-/
namespace Sys2Proof.Machine
open Sys2Proof.Claims

/-- A word whose checks pass comes to its own effect. -/
theorem issue_go {i : Instr} {n : Need} {body : UView → List Nat → State → State} {s : State} {u : UView}
    {acts : List Nat} (hu : unitView s = some u) (hp : precheck i n u s = .go acts) :
    issue i n body s = .next (parkFailed u (body u acts s)) := by
  unfold issue
  rw [hu]
  simp only [hp]

/-- A word that raises a cause in its checks. -/
theorem issue_raise {i : Instr} {n : Need} {body : UView → List Nat → State → State} {s : State} {u : UView}
    {c : Cause} {ls : List Nat} (hu : unitView s = some u) (hp : precheck i n u s = .raise c ls) :
    issue i n body s = .next (parkFailed u (raiseOn c ls u s)) := by
  unfold issue
  rw [hu]
  simp only [hp]

/-- A word of whose lanes some read an uncorrectable register in state code: the others run it. -/
theorem issue_some {i : Instr} {n : Need} {body : UView → List Nat → State → State} {s : State} {u : UView}
    {acts : List Nat} {bads : List (Nat × Cause)} (hu : unitView s = some u)
    (hp : precheck i n u s = .some acts bads) :
    issue i n body s = .next (parkFailed u (body u acts (setFailed bads u s))) := by
  unfold issue
  rw [hu]
  simp only [hp]

/-- Everything that a word can come to: with no unit a fault, else a next state, in which lanes that failed
earlier at a word now completed are parked. -/
theorem issue_cases (i : Instr) (n : Need) (body : UView → List Nat → State → State) (s : State) :
    (unitView s = none ∧ issue i n body s = .fault .noUnit) ∨
    ∃ u, unitView s = some u ∧ (
      (precheck i n u s = .skip ∧ issue i n body s = .next (parkFailed u (advance s u))) ∨
      (∃ w, precheck i n u s = .wait w ∧ issue i n body s = .next (parkFailed u (hold s u w))) ∨
      (precheck i n u s = .restart ∧ issue i n body s = .next (parkFailed u (restartUnit s u))) ∨
      (∃ c ls, precheck i n u s = .raise c ls ∧ issue i n body s = .next (parkFailed u (raiseOn c ls u s))) ∨
      (∃ acts, precheck i n u s = .go acts ∧ issue i n body s = .next (parkFailed u (body u acts s))) ∨
      (∃ acts bads, precheck i n u s = .some acts bads ∧
        issue i n body s = .next (parkFailed u (body u acts (setFailed bads u s))))) := by
  unfold issue
  cases hu : unitView s with
  | none => exact .inl ⟨rfl, rfl⟩
  | some u =>
    refine .inr ⟨u, rfl, ?_⟩
    cases hp : precheck i n u s with
    | skip => exact .inl ⟨rfl, by simp only [hp]⟩
    | wait w => exact .inr (.inl ⟨w, rfl, by simp only [hp]⟩)
    | restart => exact .inr (.inr (.inl ⟨rfl, by simp only [hp]⟩))
    | raise c ls => exact .inr (.inr (.inr (.inl ⟨c, ls, rfl, by simp only [hp]⟩)))
    | go acts => exact .inr (.inr (.inr (.inr (.inl ⟨acts, rfl, by simp only [hp]⟩))))
    | some acts bads => exact .inr (.inr (.inr (.inr (.inr ⟨acts, bads, rfl, by simp only [hp]⟩))))

/-- A word answers a next state, or there is no unit. -/
theorem issue_next_or (i : Instr) (n : Need) (body : UView → List Nat → State → State) (s : State) :
    (∃ t, issue i n body s = .next t) ∨ issue i n body s = .fault .noUnit := by
  unfold issue
  cases unitView s with
  | none => exact .inr rfl
  | some u => exact .inl ⟨_, rfl⟩

/-- The limits of an entry hold when its checks pass. -/
theorem precheck_limits {i : Instr} {n : Need} {u : UView} {s : State} {acts : List Nat}
    (h : precheck i n u s = .go acts) : n.limits = true := by
  cases hl : n.limits with
  | true => rfl
  | false =>
    have e : limitsOk n u = false := by
      unfold limitsOk
      simp [hl]
    unfold precheck at h
    simp only [e] at h
    split at h
    · cases h
    · simp at h
      split at h
      · cases h
      · split at h <;> cases h

/-- A word that computes, when its checks pass. -/
theorem computes_runs {i : Instr} {n : Need} {d : BitVec 6} {f : (BitVec 6 → Word) → Word} {s : State}
    {u : UView} {acts : List Nat} (h : Runs i n s u acts) :
    computes i n d f s = .next (parkFailed u (advance (result n d f u acts s) u)) := by
  unfold computes
  rw [issue_go h.1 h.2]
  unfold result
  cases n.pipe <;> rfl

end Sys2Proof.Machine
end

