-- ==== Sys2Proof/Laws/KeepBase.lean ====
section
/-!
SUPPORT. A loop of operations that leave memory, or the granule owners, as they are leaves them as
they are.
-/
namespace Sys2Proof.Machine

theorem foldl_mem {α : Type} {f : State → α → State} (h : ∀ s x, (f s x).mem = s.mem) (l : List α)
    (s : State) : (l.foldl f s).mem = s.mem := by
  induction l generalizing s with
  | nil => rfl
  | cons x l ih => rw [List.foldl_cons, ih, h]

theorem foldl_owner {α : Type} {f : State → α → State} (h : ∀ s x, (f s x).owner = s.owner)
    (l : List α) (s : State) : (l.foldl f s).owner = s.owner := by
  induction l generalizing s with
  | nil => rfl
  | cons x l ih => rw [List.foldl_cons, ih, h]

end Sys2Proof.Machine
end

