-- ==== Sys2Proof/Laws/Memory.lean ====
section
/-!
SUPPORT. The laws of memory: a byte reads as last written, every other byte as before, and every
operation that writes memory keeps its canonical form.
-/
namespace Sys2Proof.Machine

theorem readByte_writeByte (s : State) (loc i : Nat) (b : Byte) :
    readByte (writeByte s loc b) i = if i = loc then b else readByte s i :=
  sget_sset unwritten s.mem loc i b

theorem readByte_writeBytes_other (s : State) (kvs : List (Nat × Byte)) (i : Nat)
    (h : i ∉ kvs.map Prod.fst) : readByte (writeBytes s kvs) i = readByte s i :=
  sget_ssets_other unwritten kvs i s.mem h

theorem readByte_writeBytes_mem (s : State) (kvs : List (Nat × Byte)) (i : Nat) (b : Byte)
    (hn : (kvs.map Prod.fst).Nodup) (h : (i, b) ∈ kvs) : readByte (writeBytes s kvs) i = b :=
  sget_ssets_mem unwritten kvs i b s.mem hn h

/-- Memory decides what is read. -/
theorem readByte_congr {s t : State} (h : t.mem = s.mem) (i : Nat) : readByte t i = readByte s i := by
  simp [readByte, h]

theorem writeByte_memWf (s : State) (loc : Nat) (b : Byte) (h : memWf s.mem = true) :
    memWf (writeByte s loc b).mem = true :=
  sset_swf unwritten s.mem loc b h

theorem writeBytes_memWf (s : State) (kvs : List (Nat × Byte)) (h : memWf s.mem = true) :
    memWf (writeBytes s kvs).mem = true :=
  ssets_swf unwritten kvs s.mem h

@[simp] theorem clearBad_mem (s : State) (loc n : Nat) : (clearBad s loc n).mem = s.mem := by
  unfold clearBad; split <;> rfl

@[simp] theorem clearBadKeys_mem (s : State) (ks : List Nat) : (clearBadKeys s ks).mem = s.mem := by
  unfold clearBadKeys; split <;> rfl

theorem zeroRange_memWf (loc n : Nat) (s : State) (h : memWf s.mem = true) :
    memWf (zeroRange loc n s).mem = true := by
  unfold zeroRange
  simp only [clearBad_mem]
  exact filter_swf unwritten s.mem _ h

theorem reset_memWf : memWf State.reset.mem = true := rfl

/-- Equal reads make equal memories: the canonical form has one list for each contents. -/
theorem mem_ext {s t : State} (hs : memWf s.mem = true) (ht : memWf t.mem = true)
    (h : ∀ i, readByte s i = readByte t i) : s.mem = t.mem :=
  swf_ext unwritten s.mem t.mem hs ht h

theorem placed_keys (loc : Nat) (bs : List Byte) (i : Nat) :
    i ∈ (placed loc bs).map Prod.fst ↔ loc ≤ i ∧ i < loc + bs.length := by
  have e : (placed loc bs).map Prod.fst = (List.range bs.length).map (loc + ·) := by
    unfold placed
    rw [List.map_map]
    have : (Prod.fst ∘ fun e : Nat × Byte => (loc + e.1, e.2)) = (fun n => loc + n) ∘ Prod.fst := by
      funext e; rfl
    rw [this, ← List.map_map, List.map_fst_zip (by simp)]
  rw [e]
  simp only [List.mem_map, List.mem_range]
  constructor
  · rintro ⟨n, hn, rfl⟩; omega
  · rintro ⟨h1, h2⟩; exact ⟨i - loc, by omega, by omega⟩

end Sys2Proof.Machine
end

