-- ==== Sys2Proof/Laws/KeepMemory1.lean ====
section
/-!
SUPPORT. The operations that leave memory as it is, one lemma each: the operands, results,
waits and causes first.
-/
namespace Sys2Proof.Machine

@[simp] theorem markBad_mem (s : State) (ks : List Nat) : (markBad s ks).mem = s.mem := by
  rfl

@[simp] theorem passTime_mem (d : Nat) (s : State) : (passTime d s).mem = s.mem := by
  rfl

@[simp] theorem usecTo_mem (t : Nat) (s : State) : (usecTo t s).mem = s.mem := by
  unfold usecTo; split <;> rfl

@[simp] theorem tenthsTo_mem (t : Nat) (s : State) : (tenthsTo t s).mem = s.mem := by
  unfold tenthsTo; split <;> simp

@[simp] theorem onUnit_mem (s : State) (u : UView) (fg : Gang → Gang) (fi : Inst → Inst) :
    (onUnit s u fg fi).mem = s.mem := by
  unfold onUnit; (repeat' split) <;> simp

@[simp] theorem onIssuer_mem (s : State) (u : UView) (fg : Group → Group) (fi : Inst → Inst) :
    (onIssuer s u fg fi).mem = s.mem := by
  unfold onIssuer; (repeat' split) <;> simp

@[simp] theorem setVreg_mem (s : State) (u : UView) (lane r : Nat) (x : Word) :
    (setVreg s u lane r x).mem = s.mem := by
  unfold setVreg; split <;> simp

@[simp] theorem setVregs_mem (s : State) (u : UView) (r : Nat) (rs : List (Nat × Word)) :
    (setVregs s u r rs).mem = s.mem := by
  unfold setVregs; split <;> simp

@[simp] theorem setGreg_mem (s : State) (u : UView) (r : Nat) (x : Word) :
    (setGreg s u r x).mem = s.mem := by
  simp [setGreg]

@[simp] theorem setQreg_mem (s : State) (u : UView) (n : Nat) (x : Word) :
    (setQreg s u n x).mem = s.mem := by
  simp [setQreg]

@[simp] theorem setLatches_mem (s : State) (u : UView) (p : Pipe) (ls : List Latch) :
    (setLatches s u p ls).mem = s.mem := by
  unfold setLatches; split <;> simp

@[simp] theorem shiftIn_mem (s : State) (u : UView) (p : Pipe) (reg : Option Nat) (pend : Option
    Nat) (val : Sparse Word) :
    (shiftIn s u p reg pend val).mem = s.mem := by
  simp [shiftIn]

@[simp] theorem goto_mem (s : State) (u : UView) (pc : Nat) : (goto s u pc).mem = s.mem := by
  simp [goto]

@[simp] theorem advance_mem (s : State) (u : UView) : (advance s u).mem = s.mem := by
  simp [advance]

@[simp] theorem hold_mem (s : State) (u : UView) (w : WaitOn) : (hold s u w).mem = s.mem := by
  simp [hold]

@[simp] theorem idem_mem (s : State) (u : UView) : (idem s u).mem = s.mem := by
  unfold idem; split <;> simp

@[simp] theorem idemAccess_mem (s : State) (u : UView) : (idemAccess s u).mem = s.mem := by
  unfold idemAccess; (repeat' split) <;> simp

@[simp] theorem report_mem (s : State) (op ctx : Nat) (payload : List Byte) :
    (report s op ctx payload).mem = s.mem := by
  unfold report; split <;> rfl

@[simp] theorem faultContext_mem (ctx : Nat) (c : Cause) (s : State) :
    (faultContext ctx c s).mem = s.mem := by
  unfold faultContext; split <;> simp

@[simp] theorem startInst_mem (s : State) (core ctx : Nat) (serves : Serves) (r : Record) (at_ :
    Word) :
    (startInst s core ctx serves r at_).mem = s.mem := by
  rfl

@[simp] theorem counted_mem (core code : Nat) (s : State) : (counted core code s).mem = s.mem := by
  unfold counted; split <;> rfl

@[simp] theorem raiseDetached_mem (core ctx : Nat) (c : Cause) (notice defer : Bool) (at_ : Word)
    (scode : Bool) (s : State) (half : Nat) (cdepth : Nat) :
    (raiseDetached core ctx c notice defer at_ scode s half cdepth).mem = s.mem := by
  unfold raiseDetached; dsimp only; (repeat' split) <;> simp

@[simp] theorem dropFrags_mem (s : State) (g : Gang) : (dropFrags s g).mem = s.mem := by
  unfold dropFrags; exact foldl_mem (fun s x => by simp) _ _

@[simp] theorem unwind_mem (gk gid : Nat) (g : Gang) (r : Group) (c : Cause) (lanes : List Nat)
    (defer : Bool) (s : State) :
    (unwind gk gid g r c lanes defer s).mem = s.mem := by
  unfold unwind; split <;> simp

@[simp] theorem stopGroup_mem (gk gid : Nat) (g : Gang) (r : Group) (c : Cause) (lanes : List Nat)
    (defer : Bool) (at_ : Word) (scode : Bool) (s : State) :
    (stopGroup gk gid g r c lanes defer at_ scode s).mem = s.mem := by
  unfold stopGroup; split <;> simp

@[simp] theorem park_mem (gk : Nat) (g : Gang) (r : Region) (cdepth : Nat) (c : Cause) (lanes :
    List Nat) (defer : Bool) (at_ : Word) (scode : Bool) (s : State) :
    (park gk g r cdepth c lanes defer at_ scode s).mem = s.mem := by
  unfold park; (repeat' split) <;> simp

@[simp] theorem raiseGroup_mem (gk gid : Nat) (c : Cause) (lanes : List Nat) (defer : Bool) (at_ :
    Word) (scode : Bool) (s : State) :
    (raiseGroup gk gid c lanes defer at_ scode s).mem = s.mem := by
  unfold raiseGroup; (repeat' split) <;> simp

@[simp] theorem raiseInst_mem (id : Nat) (c : Cause) (lanes : List Nat) (defer : Bool) (at_ :
    Word) (s : State) :
    (raiseInst id c lanes defer at_ s).mem = s.mem := by
  unfold raiseInst; dsimp only; (repeat' split) <;> simp

@[simp] theorem raise_mem (c : Cause) (lanes : List Nat) (u : UView) (s : State) :
    (raise c lanes u s).mem = s.mem := by
  unfold raise; dsimp only; (repeat' split) <;> simp

@[simp] theorem setFailed_mem (bads : List (Nat × Cause)) (u : UView) (s : State) :
    (setFailed bads u s).mem = s.mem := by
  unfold setFailed; split <;> simp

@[simp] theorem parkFailed_mem (u : UView) (s : State) : (parkFailed u s).mem = s.mem := by
  unfold parkFailed; (repeat' split) <;> simp

@[simp] theorem raiseOn_mem (c : Cause) (lanes : List Nat) (u : UView) (s : State) :
    (raiseOn c lanes u s).mem = s.mem := by
  unfold raiseOn; dsimp only; (repeat' split) <;> simp

@[simp] theorem resume_mem (gk gid : Nat) (s : State) : (resume gk gid s).mem = s.mem := by
  simp [resume]

@[simp] theorem rett_mem (id : Nat) (i : Inst) (s0 : State) : (rett id i s0).mem = s0.mem := by
  unfold rett; (repeat' split) <;> simp

@[simp] theorem restartUnit_mem (s : State) (u : UView) : (restartUnit s u).mem = s.mem := by
  unfold restartUnit; (repeat' split) <;> simp

@[simp] theorem laneResult_mem (d : BitVec 6) (w : Bool) (rs : List (Nat × Word)) (u : UView) (s :
    State) :
    (laneResult d w rs u s).mem = s.mem := by
  unfold laneResult; split <;> simp

@[simp] theorem gangResult_mem (d : BitVec 6) (w : Bool) (x : Word) (u : UView) (s : State) :
    (gangResult d w x u s).mem = s.mem := by
  unfold gangResult; split <;> simp

@[simp] theorem finishLanes_mem (rs : List (Nat × LaneRes)) (fin : List (Nat × Word) → UView →
    State → State) (u : UView) (s : State) (h_fin : ∀ x0 x1 x2, (fin x0 x1 x2).mem = x2.mem) :
    (finishLanes rs fin u s).mem = s.mem := by
  unfold finishLanes; (repeat' split) <;> simp [*]

@[simp] theorem requestWalk_mem (core ctx page acc : Nat) (who : PWaiter) (s : State) (n : Nat) :
    (requestWalk core ctx page acc who s n).mem = s.mem := by
  unfold requestWalk; dsimp only; (repeat' split) <;> simp

@[simp] theorem updTag_mem (s : State) (ctx core idx : Nat) (f : Tag → Tag) :
    (updTag s ctx core idx f).mem = s.mem := by
  rfl

@[simp] theorem gutterPush_mem (a : Agent) (x : Access) (lanes : List Nat) (s : State) :
    (gutterPush a x lanes s).mem = s.mem := by
  simp [gutterPush]

@[simp] theorem sendHome_mem (a : Agent) (entry : Option Nat) (order : Nat) (x : Access) (pa :
    Nat) (s : State) :
    (sendHome a entry order x pa s).mem = s.mem := by
  rfl

@[simp] theorem mapLatches_mem (ref : UnitRef) (p : Pipe) (f : List Latch → List Latch) (s :
    State) :
    (mapLatches ref p f s).mem = s.mem := by
  unfold mapLatches; split <;> simp

@[simp] theorem setPending_mem (u : UView) (gangDst : Bool) (keys : List Nat) (v : Nat) (s :
    State) :
    (setPending u gangDst keys v s).mem = s.mem := by
  unfold setPending; (repeat' split) <;> simp

@[simp] theorem openResult_mem (d : BitVec 6) (w gangDst : Bool) (entry : Nat) (lanes : List Nat)
    (u : UView) (s : State) :
    (openResult d w gangDst entry lanes u s).mem = s.mem := by
  unfold openResult; (repeat' split) <;> simp

@[simp] theorem deliver_mem (ref : UnitRef) (gk : Option Nat) (dst : Option Nat) (gangDst : Bool)
    (entry lane : Nat) (x : Word) (s : State) :
    (deliver ref gk dst gangDst entry lane x s).mem = s.mem := by
  unfold deliver; (repeat' split) <;> simp

@[simp] theorem undeliver_mem (ref : UnitRef) (gk : Option Nat) (entry : Nat) (s : State) :
    (undeliver ref gk entry s).mem = s.mem := by
  unfold undeliver; (repeat' split) <;> simp

@[simp] theorem closeResult_mem (ref : UnitRef) (gk : Option Nat) (dst : Option Nat) (gangDst :
    Bool) (entry : Nat) (vals : List (Nat × Word)) (skip : List Nat) (s : State) :
    (closeResult ref gk dst gangDst entry vals skip s).mem = s.mem := by
  unfold closeResult
  (repeat' split) <;> simp [*] <;> (repeat' split) <;> first | rfl | (simp [*]; done) | (rw [foldl_mem] <;> (intros; (repeat' split) <;> first | rfl | (simp [*]; done))) | (simp (disch := (intros; (repeat' split) <;> first | rfl | (simp [*]; done))) only [*, foldl_mem]; simp [*]; done)

@[simp] theorem dropResult_mem (ref : UnitRef) (gk : Option Nat) (gangDst : Bool) (entry : Nat) (s
    : State) :
    (dropResult ref gk gangDst entry s).mem = s.mem := by
  simp [dropResult]

@[simp] theorem defersNext_mem (s : State) : (defersNext s).mem = s.mem := by
  rfl

@[simp] theorem enqueue_mem (u : UView) (op : QueueOp) (dst : Option Nat) (gangDst : Bool) (acts :
    List Nat) (s : State) :
    (enqueue u op dst gangDst acts s).mem = s.mem := by
  rfl

@[simp] theorem pend_mem (core ctx : Nat) (gk : Option Nat) (gid : Option Nat) (c : Cause) (lanes
    : List Nat) (pc : Word) (scode : Bool) (s : State) (defer : Bool) :
    (pend core ctx gk gid c lanes pc scode s defer).mem = s.mem := by
  unfold pend; (repeat' split) <;> simp

@[simp] theorem lateFail_mem (ref : UnitRef) (core ctx : Nat) (gk : Option Nat) (seq : Nat) (held
    : Bool) (pc : Word) (scode : Bool) (c : Cause) (lanes : List Nat) (s : State) :
    (lateFail ref core ctx gk seq held pc scode c lanes s).mem = s.mem := by
  unfold lateFail; dsimp only; (repeat' split) <;> simp

@[simp] theorem endDue_mem (e : QEntry) (ok : Bool) (s : State) : (endDue e ok s).mem = s.mem := by
  unfold endDue; split <;> simp

@[simp] theorem finishEntry_mem (e : QEntry) (s : State) : (finishEntry e s).mem = s.mem := by
  unfold finishEntry; (repeat' split) <;> simp

@[simp] theorem settleEntry_mem (e : QEntry) (s : State) : (settleEntry e s).mem = s.mem := by
  unfold settleEntry; split <;> simp

@[simp] theorem updEntry_mem (id : Nat) (f : QEntry → QEntry) (s : State) :
    (updEntry id f s).mem = s.mem := by
  rfl

@[simp] theorem closeLanes_mem (id : Nat) (rest : QueueOp) (got : List (Nat × Word)) (fails : List
    (Nat × Cause)) (s : State) :
    (closeLanes id rest got fails s).mem = s.mem := by
  unfold closeLanes; (repeat' split) <;> simp

@[simp] theorem askPages_mem (core ctx : Nat) (who : PWaiter) (ms : List (Access × Nat × Nat)) (s
    : State) :
    (askPages core ctx who ms s).mem = s.mem := by
  unfold askPages; exact foldl_mem (fun s p => by simp) _ _

@[simp] theorem holdPages_mem (ms : List (Access × Nat × Nat)) (u : UView) (s : State) :
    (holdPages ms u s).mem = s.mem := by
  unfold holdPages; simp

@[simp] theorem accDone_mem (p : AccPlan) (u : UView) (s : State) : (accDone p u s).mem = s.mem := by
  unfold accDone; split <;> simp

@[simp] theorem accResult_mem (p : AccPlan) (entry : Nat) (lanes : List Nat) (vals : Option (List
    (Nat × Word))) (u : UView) (s : State) :
    (accResult p entry lanes vals u s).mem = s.mem := by
  unfold accResult; (repeat' split) <;> simp

@[simp] theorem accQueue_mem (p : AccPlan) (xs : List Access) (u : UView) (acts : List Nat) (s :
    State) :
    (accQueue p xs u acts s).mem = s.mem := by
  simp [accQueue]

@[simp] theorem wanting_mem (ctx : Nat) (w : WaitOn) (s : State) :
    (wanting ctx w s).mem = s.mem := by
  unfold wanting; split <;> rfl

@[simp] theorem setDesc_mem (ctx core n : Nat) (d : Desc) (s : State) :
    (setDesc ctx core n d s).mem = s.mem := by
  rfl

@[simp] theorem gangFail_mem (c : Cause) (acts : List Nat) (u : UView) (s : State) :
    (gangFail c acts u s).mem = s.mem := by
  simp [gangFail]

@[simp] theorem loadDesc_mem (n : Nat) (d : Desc) (acts : List Nat) (u : UView) (s : State) :
    (loadDesc n d acts u s).mem = s.mem := by
  unfold loadDesc; (repeat' split) <;> simp

@[simp] theorem setFlags_mem (fl : Nat) (u : UView) (s : State) : (setFlags fl u s).mem = s.mem := by
  unfold setFlags; (repeat' split) <;> simp

@[simp] theorem combined_mem (isFloat : Bool) (fl : FFlags) (d : BitVec 6) (w : Bool) (rs : List
    (Nat × Word × FFlags)) (u : UView) (s : State) :
    (combined isFloat fl d w rs u s).mem = s.mem := by
  unfold combined; split <;> simp

@[simp] theorem setGregAside_mem (u : UView) (r : Nat) (x : Word) (s : State) :
    (setGregAside u r x s).mem = s.mem := by
  simp [setGregAside]

@[simp] theorem setOwner_mem (core base size v : Nat) (s : State) :
    (setOwner core base size v s).mem = s.mem := by
  rfl

@[simp] theorem setAside_mem (u : UView) (r : Nat) (l : List Word) (s : State) :
    (setAside u r l s).mem = s.mem := by
  induction l generalizing r s with
  | nil => rfl
  | cons x l ih => unfold setAside; rw [ih]; simp

@[simp] theorem gangResults_mem (d : BitVec 6) (w : Bool) (x : Word) (more : List Word) (u :
    UView) (s : State) :
    (gangResults d w x more u s).mem = s.mem := by
  unfold gangResults; simp

@[simp] theorem freeBuffer_mem (ctx core idx : Nat) (s : State) :
    (freeBuffer ctx core idx s).mem = s.mem := by
  rfl

@[simp] theorem exitRegion_mem (gk : Nat) (s : State) : (exitRegion gk s).mem = s.mem := by
  simp [exitRegion]

@[simp] theorem startPass_mem (gk : Nat) (im : Image) (st : Nat) (rest : List Nat) (done : Nat) (s
    : State) :
    (startPass gk im st rest done s).mem = s.mem := by
  simp [startPass]

@[simp] theorem countMiss_mem (gk : Nat) (im : Image) (v : List Nat) (at_ : Word) (scode : Bool)
    (s : State) :
    (countMiss gk im v at_ scode s).mem = s.mem := by
  unfold countMiss; (repeat' split) <;> simp

@[simp] theorem vote_mem (gk : Nat) (at_ : Word) (scode : Bool) (s : State) :
    (vote gk at_ scode s).mem = s.mem := by
  unfold vote; dsimp only; (repeat' split) <;> simp

@[simp] theorem opFail_mem (i : Instr) (code src : Nat) (acts : List Nat) (u : UView) (s : State)
    :
    (opFail i code src acts u s).mem = s.mem := by
  simp [opFail]

@[simp] theorem enterRegion_mem (gk img exitPc : Nat) (im : Image) (u : UView) (s : State) :
    (enterRegion gk img exitPc im u s).mem = s.mem := by
  simp [enterRegion]

@[simp] theorem endPass_mem (gk : Nat) (r : Region) (u : UView) (s : State) :
    (endPass gk r u s).mem = s.mem := by
  unfold endPass; dsimp only; (repeat' split) <;> simp

@[simp] theorem fragmentGone_mem (gk : Nat) (s : State) : (fragmentGone gk s).mem = s.mem := by
  unfold fragmentGone; (repeat' split) <;> simp

@[simp] theorem enqueueOp_mem (u : UView) (op : QueueOp) (s : State) :
    (enqueueOp u op s).mem = s.mem := by
  rfl

@[simp] theorem mapWaits_mem (ctx : Nat) (f : Wait → Wait) (s : State) :
    (mapWaits ctx f s).mem = s.mem := by
  rfl

@[simp] theorem failRows_mem (u : UView) (rows : List (Nat × Nat × Word)) (got : List (Nat ×
    Word)) (since : Nat) (hit : Nat × Nat × Word → Bool) (c : Cause) (s : State) :
    (failRows u rows got since hit c s).mem = s.mem := by
  unfold failRows; dsimp only; (repeat' split) <;> simp

@[simp] theorem failReaders_mem (ctx : Nat) (hit : Nat × Nat × Word → Bool) (c : Cause) (s :
    State) :
    (failReaders ctx hit c s).mem = s.mem := by
  unfold failReaders; exact foldl_mem (fun s x => by split <;> simp) _ _

@[simp] theorem conflictReaders_mem (ctx line m : Nat) (c : Cause) (s : State) :
    (conflictReaders ctx line m c s).mem = s.mem := by
  simp [conflictReaders]

@[simp] theorem serveReaders_mem (ctx line : Nat) (s : State) :
    (serveReaders ctx line s).mem = s.mem := by
  unfold serveReaders; split <;> simp

@[simp] theorem settleNodes_mem (ctx : Nat) (s : State) : (settleNodes ctx s).mem = s.mem := by
  rfl

@[simp] theorem appendVersion_mem (ctx line m : Nat) (new : List Byte) (bad : List Nat) (s :
    State) :
    (appendVersion ctx line m new bad s).mem = s.mem := by
  simp [appendVersion]

@[simp] theorem storeVersion_mem (ctx m line : Nat) (ws : List (Nat × Byte)) (s : State) :
    (storeVersion ctx m line ws s).mem = s.mem := by
  simp [storeVersion]

@[simp] theorem storeLines_mem (ctx m : Nat) (xs : List Access) (s : State) :
    (storeLines ctx m xs s).mem = s.mem := by
  unfold storeLines; exact foldl_mem (fun s x => by simp) _ _

@[simp] theorem ldvFirst_mem (o : O3) (n : Word) (u : UView) (acts : List Nat) (s : State) :
    (ldvFirst o n u acts s).mem = s.mem := by
  unfold ldvFirst; dsimp only; (repeat' split) <;> simp

@[simp] theorem setRegion_mem (ctx k : Nat) (floors : Bool) (r : VRegion) (s : State) :
    (setRegion ctx k floors r s).mem = s.mem := by
  simp [setRegion]

@[simp] theorem illegalWord_mem (w : Word) (r : Reject) (u : UView) (s : State) :
    (illegalWord w r u s).mem = s.mem := by
  unfold illegalWord; dsimp only; (repeat' split) <;> simp

@[simp] theorem setBar_mem (key : Nat) (b : Barrier) (s : State) : (setBar key b s).mem = s.mem := by
  rfl

@[simp] theorem setCoh_mem (key : Nat) (c : Cohort) (s : State) : (setCoh key c s).mem = s.mem := by
  rfl

@[simp] theorem updXp_mem (core p : Nat) (f : Xp → Xp) (s : State) :
    (updXp core p f s).mem = s.mem := by
  rfl

@[simp] theorem xpGoto_mem (core p pc : Nat) (s : State) : (xpGoto core p pc s).mem = s.mem := by
  rfl

@[simp] theorem xpNext_mem (core p : Nat) (s : State) : (xpNext core p s).mem = s.mem := by
  rfl

@[simp] theorem failWait_mem (ref : UnitRef) (c : Cause) (s : State) :
    (failWait ref c s).mem = s.mem := by
  unfold failWait; split <;> simp

@[simp] theorem finishWait_mem (ref : UnitRef) (s : State) : (finishWait ref s).mem = s.mem := by
  unfold finishWait; split <;> simp

@[simp] theorem releaseBar_mem (key : Nat) (s : State) : (releaseBar key s).mem = s.mem := by
  unfold releaseBar; dsimp only
  rw [foldl_mem (fun s e => by split <;> simp), foldl_mem (fun s e => by split <;> simp)]

@[simp] theorem settlePhase_mem (key : Nat) (s : State) : (settlePhase key s).mem = s.mem := by
  unfold settlePhase; dsimp only
  split <;> simp

@[simp] theorem poisonBar_mem (key : Nat) (s : State) : (poisonBar key s).mem = s.mem := by
  unfold poisonBar
  simp (disch := (intros; (repeat' split) <;> first | rfl | simp [*])) only [foldl_mem]; (repeat' split) <;> simp [*]

@[simp] theorem countArrival_mem (key : Nat) (s : State) : (countArrival key s).mem = s.mem := by
  unfold countArrival; simp

@[simp] theorem countBytes_mem (key n : Nat) (s : State) : (countBytes key n s).2.mem = s.mem := by
  unfold countBytes; dsimp only
  split <;> simp

@[simp] theorem unbindGang_mem (gk key : Nat) (s : State) : (unbindGang gk key s).mem = s.mem := by
  unfold unbindGang; dsimp only
  (repeat' split) <;> simp

@[simp] theorem unbindAll_mem (gk : Nat) (s : State) : (unbindAll gk s).mem = s.mem := by
  unfold unbindAll; exact foldl_mem (fun s e => by simp) _ _

@[simp] theorem forgetOwed_mem (key : Nat) (s : State) : (forgetOwed key s).mem = s.mem := by
  rfl

@[simp] theorem barInit_mem (u : UView) (a b : Word) (s : State) :
    (barInit u a b s).mem = s.mem := by
  unfold barInit; dsimp only; rw [setBar_mem, forgetOwed_mem, forgetOwed_mem]
  (repeat' split) <;> simp (disch := (intros; (try split) <;> simp)) only [foldl_mem]

@[simp] theorem arrive_mem (key : Nat) (u : UView) (s : State) : (arrive key u s).mem = s.mem := by
  unfold arrive; dsimp only
  split <;> simp

@[simp] theorem leaveBarriers_mem (gk key : Nat) (s : State) :
    (leaveBarriers gk key s).mem = s.mem := by
  unfold leaveBarriers; exact foldl_mem (fun s e => by dsimp only; split <;> simp) _ _

@[simp] theorem readStart_mem (core p i : Nat) (s : State) : (readStart core p i s).mem = s.mem := by
  unfold readStart; (repeat' split) <;> simp

@[simp] theorem readStarts_mem (core p : Nat) (s : State) : (readStarts core p s).mem = s.mem := by
  unfold readStarts; exact foldl_mem (fun s x => by simp) _ _

@[simp] theorem refreshStarts_mem (core p : Nat) (s : State) :
    (refreshStarts core p s).mem = s.mem := by
  simp [refreshStarts]

@[simp] theorem leaveCohort_mem (gk key : Nat) (s : State) : (leaveCohort gk key s).mem = s.mem := by
  unfold leaveCohort; dsimp only; (repeat' split) <;> simp

@[simp] theorem leaveAll_mem (gk : Nat) (s : State) : (leaveAll gk s).mem = s.mem := by
  unfold leaveAll
  (repeat' split) <;> first | rfl | (rw [foldl_mem] <;> (intros; (repeat' split) <;> simp [*]))

@[simp] theorem countLeaving_mem (gk : Nat) (l : Leaving) (s : State) :
    (countLeaving gk l s).mem = s.mem := by
  unfold countLeaving
  rw [unbindAll_mem]; exact foldl_mem (fun s e => by dsimp only; split <;> simp) _ _

@[simp] theorem settleLeaving_mem (gk : Nat) (s : State) : (settleLeaving gk s).mem = s.mem := by
  unfold settleLeaving; dsimp only
  split
  · rfl
  · split
    · rfl
    · rw [foldl_mem (fun s l => by simp)]; simp

@[simp] theorem signalTl_mem (ctx k : Nat) (n : Dword) (s : State) :
    (signalTl ctx k n s).mem = s.mem := by
  simp [signalTl]

@[simp] theorem part_mem (gk gid : Nat) (g : Gang) (r : Group) (go stay : List Nat) (target next :
    Nat) (s : State) :
    (part gk gid g r go stay target next s).mem = s.mem := by
  rfl

@[simp] theorem mergeGroups_mem (gk pc : Nat) (s : State) : (mergeGroups gk pc s).mem = s.mem := by
  simp [mergeGroups]

@[simp] theorem raiseAll_mem (gk : Nat) (c : Cause) (s : State) : (raiseAll gk c s).mem = s.mem := by
  unfold raiseAll
  (repeat' split) <;> first | rfl | (rw [foldl_mem] <;> (intros; (repeat' split) <;> simp [*]))

@[simp] theorem regang_mem (gk : Nat) (s : State) : (regang gk s).mem = s.mem := by
  unfold regang; dsimp only; (repeat' split) <;> simp

@[simp] theorem flushPending_mem (g : Gang) (s : State) : (flushPending g s).mem = s.mem := by
  unfold flushPending; exact foldl_mem (fun s _ => foldl_mem (fun s p => by simp) _ _) _ _

@[simp] theorem nodeGangGone_mem (node gk : Nat) (s : State) :
    (nodeGangGone node gk s).mem = s.mem := by
  unfold nodeGangGone; dsimp only; (repeat' split) <;> simp

@[simp] theorem tryRetire_mem (gk : Nat) (s0 : State) : (tryRetire gk s0).mem = s0.mem := by
  unfold tryRetire; dsimp only
  (repeat' split) <;> simp

@[simp] theorem retireOf_mem (gk : Option Nat) (s : State) : (retireOf gk s).mem = s.mem := by
  unfold retireOf; split <;> simp

@[simp] theorem retireLanes_mem (gk : Nat) (lanes : List Nat) (gid : Option Nat) (s : State) (own
    : Bool) :
    (retireLanes gk lanes gid s own).mem = s.mem := by
  unfold retireLanes; dsimp only; (repeat' split) <;> simp

@[simp] theorem exitInst_mem (id : Nat) (s : State) : (exitInst id s).mem = s.mem := by
  unfold exitInst; dsimp only
  have h (l : List Nat) : (l.foldl (fun s k => setInst s k none) s).mem = s.mem := foldl_mem (fun s k => by simp) _ _
  (repeat' split) <;> simp [h]

end Sys2Proof.Machine
end

