-- ==== Sys2Proof/Laws/KeepMemory2.lean ====
section
/-!
SUPPORT. The operations that leave memory as it is, one lemma each: the rest of the machine, in its order.
-/
namespace Sys2Proof.Machine

@[simp] theorem setCont_mem (l : List Nat) (u : UView) (s : State) :
    (setCont l u s).mem = s.mem := by
  simp [setCont]

@[simp] theorem stopAtMark_mem (gk : Nat) (s : State) : (stopAtMark gk s).mem = s.mem := by
  simp [stopAtMark]

@[simp] theorem movs_mem (i : Instr) (r : Nat) (reads : Bool) (body : Sum Nat Nat → UView → State
    → State) (acts : List Nat) (u : UView) (s : State) (h_body : ∀ x0 x1 x2, (body x0 x1 x2).mem =
    x2.mem) :
    (movs i r reads body acts u s).mem = s.mem := by
  unfold movs; (repeat' split) <;> simp [*]

@[simp] theorem updMatrix_mem (s : State) (core : Nat) (f : Matrix → Matrix) :
    (updMatrix s core f).mem = s.mem := by
  rfl

@[simp] theorem streamRows_mem (core : Nat) (a : Agent) (d : Desc) (h0 k0 i0 q n j : Nat) (s :
    State) :
    (streamRows core a d h0 k0 i0 q n j s).1.mem = s.mem := by
  induction n generalizing j s with
  | zero => rfl
  | succ n ih =>
    unfold streamRows; dsimp only
    (repeat' split) <;> first | rfl | (rw [ih]; simp)

@[simp] theorem issueCmd_mem (op : MOp) (opcode desc : Nat) (fin : State → State) (acts : List
    Nat) (u : UView) (s : State) (h_fin : ∀ x0, (fin x0).mem = x0.mem) :
    (issueCmd op opcode desc fin acts u s).mem = s.mem := by
  unfold issueCmd; split
  · simp
  · unfold enterMatrix; dsimp only
    split <;> (rename_i h; revert h; (repeat' split) <;> intro h <;> cases h <;> simp [*])

@[simp] theorem issueEng_mem (op : MOp) (opcode desc : Nat) (acts : List Nat) (u : UView) (s :
    State) :
    (issueEng op opcode desc acts u s).mem = s.mem := by
  unfold issueEng; simp

@[simp] theorem descFail_mem (n : Nat) (acts : List Nat) (u : UView) (s : State) :
    (descFail n acts u s).mem = s.mem := by
  simp [descFail]

@[simp] theorem releaseMatrix_mem (core : Nat) (s : State) : (releaseMatrix core s).mem = s.mem := by
  rfl

@[simp] theorem settleRelease_mem (core : Nat) (s : State) : (settleRelease core s).mem = s.mem := by
  unfold settleRelease; dsimp only; (repeat' split) <;> simp

@[simp] theorem xpHold_mem (core p : Nat) (st : XpState) (w : WaitOn) (s : State) :
    (xpHold core p st w s).mem = s.mem := by
  rfl

@[simp] theorem unstage_mem (ctx : Nat) (lines : List Nat) (s : State) :
    (unstage ctx lines s).mem = s.mem := by
  simp [unstage]

@[simp] theorem xpFaultAt_mem (core p code : Nat) (addr : Dword) (bar : Option Nat) (fpc tiles :
    Nat) (s : State) :
    (xpFaultAt core p code addr bar fpc tiles s).mem = s.mem := by
  unfold xpFaultAt
  simp (disch := (intros; (repeat' split) <;> first | rfl | simp [*])) only [foldl_mem]; (repeat' split) <;> simp [*]

@[simp] theorem xpFault_mem (core p code : Nat) (addr : Dword) (bar : Option Nat) (s : State) :
    (xpFault core p code addr bar s).mem = s.mem := by
  simp [xpFault]

@[simp] theorem xpCmdFault_mem (core p : Nat) (c : XCmd) (code : Nat) (addr : Dword) (s : State) :
    (xpCmdFault core p c code addr s).mem = s.mem := by
  simp [xpCmdFault]

@[simp] theorem joinStart_mem (core p : Nat) (idx : Option Nat) (st : Start) (s : State) :
    (joinStart core p idx st s).mem = s.mem := by
  simp [joinStart]

@[simp] theorem startGo_mem (acts : List Nat) (u : UView) (a : Dword) (b : Word) (s : State) :
    (startGo acts u a b s).mem = s.mem := by
  unfold startGo; dsimp only; (repeat' split) <;> simp

@[simp] theorem xpAlu_mem (d : BitVec 4) (x y : Word) (f : Word → Word → Word) (core p : Nat) (s :
    State) :
    (xpAlu d x y f core p s).mem = s.mem := by
  rfl

@[simp] theorem xpReadFail_mem (core p : Nat) (x : Xp) (bar : Option Nat) (addr : Dword) (r :
    XRead) (s : State) :
    (xpReadFail core p x bar addr r s).mem = s.mem := by
  unfold xpReadFail; split <;> simp

@[simp] theorem xpIllegal_mem (core p : Nat) (s : State) : (xpIllegal core p s).mem = s.mem := by
  simp [xpIllegal]

@[simp] theorem xpBranch_mem (core p : Nat) (x : Xp) (f : BitVec 16) (s : State) :
    (xpBranch core p x f s).mem = s.mem := by
  unfold xpBranch; dsimp only; (repeat' split) <;> simp

@[simp] theorem xpLoop_mem (core p : Nat) (x : Xp) (count off : Nat) (s : State) :
    (xpLoop core p x count off s).mem = s.mem := by
  unfold xpLoop; (repeat' split) <;> simp

@[simp] theorem setCursor_mem (core p : Nat) (k : BitVec 2) (c : Cursor) (s : State) :
    (setCursor core p k c s).mem = s.mem := by
  rfl

@[simp] theorem curStep_mem (k : BitVec 2) (d : BitVec 3) (by_ : Word) (core p : Nat) (x : Xp) (s
    : State) :
    (curStep k d by_ core p x s).mem = s.mem := by
  rfl

@[simp] theorem enterBarset_mem (core p : Nat) (bar : Option Nat) (s : State) :
    (enterBarset core p bar s).mem = s.mem := by
  unfold enterBarset; split <;> rfl

@[simp] theorem xpBegin_mem (cs : List Cursor) (bar : Option Nat) (body : Xp → State → State)
    (core p : Nat) (x : Xp) (s : State) (h_body : ∀ x0 x1, (body x0 x1).mem = x1.mem) :
    (xpBegin cs bar body core p x s).mem = s.mem := by
  unfold xpBegin; (repeat' split) <;> simp [*]

@[simp] theorem xpCommand_mem (core p : Nat) (kind : XKind) (bar : Option Nat) (words : List
    XWord) (version : Nat) (lines : List Nat) (s : State) :
    (xpCommand core p kind bar words version lines s).mem = s.mem := by
  rfl

@[simp] theorem xpTileFault_mem (core p code : Nat) (addr : Dword) (bar : Option Nat) (s : State)
    :
    (xpTileFault core p code addr bar s).mem = s.mem := by
  simp [xpTileFault]

@[simp] theorem withTile_mem (cd : Cursor) (bar : Option Nat) (body : Tile → Desc → State → State)
    (core p : Nat) (x : Xp) (s : State) (h_body : ∀ x0 x1 x2, (body x0 x1 x2).mem = x2.mem) :
    (withTile cd bar body core p x s).mem = s.mem := by
  unfold withTile; exact xpBegin_mem _ _ _ _ _ _ _ (fun x s => by split <;> simp [*])

@[simp] theorem stage_mem (ctx m : Nat) (lines : List Nat) (s : State) :
    (stage ctx m lines s).mem = s.mem := by
  unfold stage; exact foldl_mem (fun s x => by simp) _ _

@[simp] theorem vpubGo_mem (core p : Nat) (x : Xp) (bar : Option Nat) (space m : Nat) (ps : List
    (Dword × XByte)) (s : State) :
    (vpubGo core p x bar space m ps s).mem = s.mem := by
  unfold vpubGo; (repeat' split) <;> simp

@[simp] theorem updCmd_mem (core p cmd : Nat) (f : XCmd → XCmd) (s : State) :
    (updCmd core p cmd f s).mem = s.mem := by
  rfl

@[simp] theorem countCmd_mem (core p : Nat) (c : XCmd) (n : Nat) (s : State) :
    (countCmd core p c n s).mem = s.mem := by
  unfold countCmd; dsimp only; (repeat' split) <;> simp

@[simp] theorem dropDrain_mem (c : MCmd) (s : State) : (dropDrain c s).mem = s.mem := by
  unfold dropDrain; split <;> simp

@[simp] theorem blame_mem (core ctx : Nat) (c : MCmd) (cause : Cause) (s : State) :
    (blame core ctx c cause s).mem = s.mem := by
  unfold blame; dsimp only; (repeat' split) <;> simp

@[simp] theorem matrixFault_mem (core : Nat) (cause : Cause) (s : State) :
    (matrixFault core cause s).mem = s.mem := by
  unfold matrixFault; dsimp only; split
  · rfl
  · simp (disch := (intros; simp)) only [settleRelease_mem, foldl_mem]; simp

@[simp] theorem popMatrix_mem (core : Nat) (s : State) : (popMatrix core s).mem = s.mem := by
  simp [popMatrix]

@[simp] theorem matrixStop_mem (core : Nat) (e : MStop) (s : State) :
    (matrixStop core e s).mem = s.mem := by
  unfold matrixStop; split <;> simp

@[simp] theorem beginRun_mem (core : Nat) (s : State) : (beginRun core s).mem = s.mem := by
  rfl

@[simp] theorem runDrainLanes_mem (core : Nat) (c : MCmd) (sel row col0 dst : Nat) (lanes : List
    Nat) (s : State) :
    (runDrainLanes core c sel row col0 dst lanes s).mem = s.mem := by
  unfold runDrainLanes; dsimp only
  split
  · simp
  · split
    · simp
    · split
      · rw [popMatrix_mem]; split <;> simp
      · rw [closeResult_mem, popMatrix_mem]; split <;> simp

@[simp] theorem runDrainPort_mem (core sel h0 n p : Nat) (s : State) :
    (runDrainPort core sel h0 n p s).mem = s.mem := by
  unfold runDrainPort; dsimp only; (repeat' split) <;> simp

@[simp] theorem loseBuffer_mem (ctx core idx : Nat) (c : Cause) (s : State) :
    (loseBuffer ctx core idx c s).mem = s.mem := by
  simp [loseBuffer]

@[simp] theorem refuseUnit_mem (page code : Nat) (ref : UnitRef) (s : State) :
    (refuseUnit page code ref s).mem = s.mem := by
  unfold refuseUnit; split <;> simp

@[simp] theorem gutterFail_mem (e : GutterEntry) (s : State) : (gutterFail e s).mem = s.mem := by
  unfold gutterFail; dsimp only; (repeat' split) <;> simp

@[simp] theorem refuseEntry_mem (e : QEntry) (page code : Nat) (s : State) :
    (refuseEntry e page code s).mem = s.mem := by
  unfold refuseEntry; dsimp only; (repeat' split) <;> simp

@[simp] theorem refuseStart_mem (core p code : Nat) (addr : Dword) (s : State) :
    (refuseStart core p code addr s).mem = s.mem := by
  rfl

@[simp] theorem refuse_mem (ctx page code : Nat) (w : PWaiter) (s : State) :
    (refuse ctx page code w s).mem = s.mem := by
  unfold refuse; (repeat' split) <;> simp

@[simp] theorem refuseAll_mem (w : Walk) (code : Nat) (s : State) :
    (refuseAll w code s).mem = s.mem := by
  unfold refuseAll; exact foldl_mem (fun s x => by simp) _ _

@[simp] theorem toService_mem (w : Walk) (level : Nat) (absent : Bool) (s : State) :
    (toService w level absent s).mem = s.mem := by
  simp [toService]

@[simp] theorem cache_mem (t : Tlb) (s : State) : (cache t s).mem = s.mem := by
  rfl

@[simp] theorem invalidate_mem (ctx : Nat) (page : Option Nat) (s : State) :
    (invalidate ctx page s).mem = s.mem := by
  rfl

@[simp] theorem setRoot_mem (ctx : Nat) (high : Bool) (v : Word) (s : State) :
    (setRoot ctx high v s).mem = s.mem := by
  simp [setRoot]

@[simp] theorem holdEntry_mem (e : QEntry) (ms : List (Access × Nat × Nat)) (s : State) :
    (holdEntry e ms s).mem = s.mem := by
  simp [holdEntry]

@[simp] theorem performLoad_mem (e : QEntry) (all : List Access) (x : Access) (s : State) :
    (performLoad e all x s).mem = s.mem := by
  unfold performLoad; dsimp only; (repeat' split) <;> simp

@[simp] theorem performDfa_mem (e : QEntry) (table : Dword) (rows : List DfaRow) (r : DfaRow) (s :
    State) :
    (performDfa e table rows r s).mem = s.mem := by
  unfold performDfa; dsimp only; (repeat' split) <;> simp

@[simp] theorem performStv_mem (e : QEntry) (m : Nat) (xs : List Access) (since : Option Nat) (s :
    State) :
    (performStv e m xs since s).mem = s.mem := by
  unfold performStv; dsimp only; (repeat' split) <;> simp

@[simp] theorem countUpdate_mem (t : Option (Nat × Nat × Nat)) (s : State) :
    (countUpdate t s).mem = s.mem := by
  unfold countUpdate; (repeat' split) <;> simp

@[simp] theorem answerOne_mem (h : HostWait) (s : State) : (answerOne h s).mem = s.mem := by
  unfold answerOne; split <;> simp

@[simp] theorem answerHost_mem (s : State) : (answerHost s).mem = s.mem := by
  unfold answerHost; exact foldl_mem (fun s x => by split <;> simp) _ _

@[simp] theorem answerSent_mem (id : Nat) (got : List (Nat × Word)) (fails : List (Nat × Cause))
    (s : State) :
    (answerSent id got fails s).mem = s.mem := by
  unfold answerSent; (repeat' split) <;> simp

@[simp] theorem updateFail_mem (h : HomeOp) (code : Nat) (s : State) :
    (updateFail h code s).mem = s.mem := by
  unfold updateFail; (repeat' split) <;> simp

@[simp] theorem fillCache_mem (core p : Nat) (line : Option (Nat × List Word)) (s : State) :
    (fillCache core p line s).mem = s.mem := by
  unfold fillCache; split <;> rfl

@[simp] theorem endWait_mem (ref : UnitRef) (since bound : Nat) (c : Cause) (s : State) :
    (endWait ref since bound c s).mem = s.mem := by
  unfold endWait; split <;> simp

@[simp] theorem endRows_mem (u : UView) (rows : List (Nat × Nat × Word)) (got : List (Nat × Word))
    (since : Nat) (s : State) :
    (endRows u rows got since s).mem = s.mem := by
  unfold endRows; dsimp only; (repeat' split) <;> simp

@[simp] theorem reply_mem (m : Hdr) (op status : Nat) (payload : List Byte) (s : State) :
    (reply m op status payload s).mem = s.mem := by
  unfold reply; split <;> rfl

@[simp] theorem inSession_mem (m : Hdr) (op : Nat) (body : State → State) (s : State) (h_body : ∀
    x0, (body x0).mem = x0.mem) :
    (inSession m op body s).mem = s.mem := by
  unfold inSession; (repeat' split) <;> simp [*]

@[simp] theorem acceptNode_mem (n : Node) (s : State) : (acceptNode n s).mem = s.mem := by
  simp [acceptNode]

@[simp] theorem freeNode_mem (key : Nat) (n : Node) (s : State) :
    (freeNode key n s).mem = s.mem := by
  rfl

@[simp] theorem doneFail_mem (n : Node) (c : Cause) (s : State) : (doneFail n c s).mem = s.mem := by
  simp [doneFail]

@[simp] theorem startSave_mem (req gk : Nat) (s : State) : (startSave req gk s).mem = s.mem := by
  unfold startSave; split <;> simp

@[simp] theorem evictFor_mem (core prio need req : Nat) (s : State) :
    (evictFor core prio need req s).mem = s.mem := by
  unfold evictFor; exact foldl_mem (fun s x => by split <;> simp) _ _

@[simp] theorem abandonQueues_mem (gk : Nat) (s : State) : (abandonQueues gk s).mem = s.mem := by
  simp [abandonQueues]

@[simp] theorem readmit_mem (gk slot : Nat) (swapped : Option Nat) (s : State) :
    (readmit gk slot swapped s).mem = s.mem := by
  unfold readmit; split <;> rfl

@[simp] theorem swapIn_mem (gk : Nat) (s : State) : (swapIn gk s).mem = s.mem := by
  unfold swapIn; (repeat' split) <;> simp

@[simp] theorem releaseGang_mem (again : Bool) (gk : Nat) (s : State) :
    (releaseGang again gk s).mem = s.mem := by
  unfold releaseGang; dsimp only; rw [updGang_mem]; exact foldl_mem (fun s x => by simp) _ _

@[simp] theorem releaseAll_mem (ctx : Nat) (s : State) : (releaseAll ctx s).mem = s.mem := by
  unfold releaseAll; exact foldl_mem (fun s x => by simp) _ _

@[simp] theorem startQuiesce_mem (ctx : Nat) (s : State) : (startQuiesce ctx s).mem = s.mem := by
  unfold startQuiesce; dsimp only; (repeat' split) <;> simp

@[simp] theorem endQuiesce_mem (ctx : Nat) (s : State) : (endQuiesce ctx s).mem = s.mem := by
  unfold endQuiesce; split <;> simp

@[simp] theorem quiesceNotice_mem (ctx : Nat) (k : Word) (s : State) :
    (quiesceNotice ctx k s).mem = s.mem := by
  simp [quiesceNotice]

@[simp] theorem noteStart_mem (g : Gang) (s : State) : (noteStart g s).mem = s.mem := by
  unfold noteStart; dsimp only; (repeat' split) <;> simp

@[simp] theorem copyImages_mem (ctx core : Nat) (rs : List (Nat × ImageRes)) (s : State) :
    (copyImages ctx core rs s).mem = s.mem := by
  unfold copyImages; exact foldl_mem (fun s x => by split <;> simp) _ _

@[simp] theorem placeBatch_mem (key : Nat) (n : Node) (cluster : List Nat) (core b admitted : Nat)
    (cause : Option Cause) (s : State) :
    (placeBatch key n cluster core b admitted cause s).mem = s.mem := by
  unfold placeBatch; exact foldl_mem (fun s x => by simp) _ _

@[simp] theorem admitTo_mem (key : Nat) (n : Node) (cores : List Nat) (rs : List (Nat × ImageRes))
    (s : State) :
    (admitTo key n cores rs s).mem = s.mem := by
  unfold admitTo; exact foldl_mem (fun s x => by simp) _ _

@[simp] theorem markSkipped_mem (s : State) : (markSkipped s).mem = s.mem := by
  rfl

@[simp] theorem requestPreempt_mem (key : Nat) (n : Node) (s : State) :
    (requestPreempt key n s).mem = s.mem := by
  unfold requestPreempt; dsimp only
  (repeat' split) <;> first | rfl | (simp [*]; done) | (rw [foldl_mem] <;> (intros; (repeat' split) <;> first | rfl | (simp [*]; done))) | (simp (disch := (intros; (repeat' split) <;> first | rfl | (simp [*]; done))) only [*, foldl_mem]; simp [*]; done)

@[simp] theorem setGens_mem (xs : List (Nat × Dword)) (u : UView) (s : State) :
    (setGens xs u s).mem = s.mem := by
  unfold setGens; split <;> simp

@[simp] theorem deliverPending_mem (gk : Nat) (g : Gang) (p : Pending) (s : State) :
    (deliverPending gk g p s).mem = s.mem := by
  unfold deliverPending; dsimp only
  (repeat' split) <;> first | rfl | simp | exact foldl_mem (fun s x => by simp) _ _

@[simp] theorem stopGang_mem (gk : Nat) (g : Gang) (c : Cause) (s : State) :
    (stopGang gk g c s).mem = s.mem := by
  unfold stopGang
  (repeat' split) <;> first | rfl | (simp [*]; done) | (rw [foldl_mem] <;> (intros; (repeat' split) <;> first | rfl | (simp [*]; done))) | (simp (disch := (intros; (repeat' split) <;> first | rfl | (simp [*]; done))) only [*, foldl_mem]; simp [*]; done)

@[simp] theorem clearWait_mem (u : UView) (s : State) : (clearWait u s).mem = s.mem := by
  simp [clearWait]

@[simp] theorem loseLatches_mem (v : UView) (s : State) : (loseLatches v s).mem = s.mem := by
  simp [loseLatches]

@[simp] theorem lapse_mem (core k : Nat) (v : UView) (s : State) :
    (lapse core k v s).mem = s.mem := by
  simp [lapse]

@[simp] theorem lapseOn_mem (s : State) (core : Nat) : (lapseOn s core).mem = s.mem := by
  unfold lapseOn; exact foldl_mem (fun s x => by (repeat' split) <;> simp) _ _

@[simp] theorem sealDone_mem (ctx : Nat) (v : Word) (r : SealRes) (s : State) :
    (sealDone ctx v r s).mem = s.mem := by
  unfold sealDone; split <;> simp

@[simp] theorem unsealImage_mem (ctx : Nat) (v : Word) (s : State) :
    (unsealImage ctx v s).mem = s.mem := by
  simp [unsealImage]

@[simp] theorem designate_mem (die ctx idx base size wait : Nat) (s : State) :
    (designate die ctx idx base size wait s).mem = s.mem := by
  simp [designate]

@[simp] theorem nextDir_mem (ctx : Nat) (s : State) : (nextDir ctx s).mem = s.mem := by
  simp [nextDir]

@[simp] theorem writeAgeLimit_mem (ctx : Nat) (v : Word) (s : State) :
    (writeAgeLimit ctx v s).mem = s.mem := by
  unfold writeAgeLimit; exact foldl_mem (fun s x => by simp) _ _

@[simp] theorem startSec_mem (op core ctx : Nat) (node : Option Nat) (s : State) :
    (startSec op core ctx node s).mem = s.mem := by
  rfl

@[simp] theorem writeQuiesce_mem (ctx : Nat) (v : Word) (s : State) :
    (writeQuiesce ctx v s).mem = s.mem := by
  unfold writeQuiesce; (repeat' split) <;> simp

@[simp] theorem onFp_mem (u : UView) (fg : Gang → Gang) (fi : Inst → Inst) (s : State) :
    (onFp u fg fi s).mem = s.mem := by
  unfold onFp; split <;> simp

@[simp] theorem sysInvalidate_mem (u : UView) (start : State → State) (s : State) (h_start : ∀ x0,
    (start x0).mem = x0.mem) :
    (sysInvalidate u start s).mem = s.mem := by
  unfold sysInvalidate
  simp (disch := (intros; (repeat' split) <;> first | rfl | simp [*])) only [foldl_mem]; (repeat' split) <;> simp [*]

@[simp] theorem secEvent_mem (op core : Nat) (s : State) : (secEvent op core s).mem = s.mem := by
  unfold secEvent; split <;> rfl

@[simp] theorem extendMeas_mem (i digest : Nat) (s : State) :
    (extendMeas i digest s).mem = s.mem := by
  unfold extendMeas; rfl

@[simp] theorem collsEnded_mem (ctx : Nat) (s : State) : (collsEnded ctx s).mem = s.mem := by
  unfold collsEnded
  exact foldl_mem (fun s d => foldl_mem (fun s c => by split <;> simp) _ _) _ _

@[simp] theorem secSettle_mem (c : SecCmd) (status lo hi : Nat) (s : State) :
    (secSettle c status lo hi s).mem = s.mem := by
  unfold secSettle; split <;> rfl

@[simp] theorem awaitReply_mem (m : Hdr) (op : Nat) (f : HostWait → HostWait) (s : State) :
    (awaitReply m op f s).mem = s.mem := by
  rfl

@[simp] theorem setSession_mem (ses : Nat) (f : Session → Session) (s : State) :
    (setSession ses f s).mem = s.mem := by
  rfl

@[simp] theorem pieces_mem (m : Hdr) (op : Nat) (piece : Word) (bytes : List Byte) (wait : List
    Byte → Bool) (done : List Byte → State → State) (s : State) (h_done : ∀ x0 x1, (done x0
    x1).mem = x1.mem) :
    (pieces m op piece bytes wait done s).mem = s.mem := by
  unfold pieces
  simp (disch := (intros; (repeat' split) <;> first | rfl | simp [*])) only [foldl_mem]; (repeat' split) <;> simp [*]

@[simp] theorem storeFlash_mem (f : Flash) (s : State) : (storeFlash f s).mem = s.mem := by
  unfold storeFlash; rfl

@[simp] theorem touchFlash_mem (digest : Nat) (s : State) : (touchFlash digest s).mem = s.mem := by
  rfl

@[simp] theorem updCtl_mem (s : State) (f : Controller → Controller) : (updCtl s f).mem = s.mem := by
  rfl

@[simp] theorem releaseHeld_mem (ctx ses : Nat) (s : State) :
    (releaseHeld ctx ses s).mem = s.mem := by
  rfl

@[simp] theorem bind_mem (m : Hdr) (ctx : Nat) (s : State) : (bind m ctx s).mem = s.mem := by
  rfl

@[simp] theorem openTenant_mem (m : Hdr) (eaves : BitVec 16) (lines : Nat) (s : State) :
    (openTenant m eaves lines s).mem = s.mem := by
  simp [openTenant]

@[simp] theorem tryTenant_mem (m : Hdr) (w1 w2 : Word) (s : State) :
    (tryTenant m w1 w2 s).mem = s.mem := by
  unfold tryTenant; dsimp only; (repeat' split) <;> simp

@[simp] theorem tryManagement_mem (m : Hdr) (w1 : Word) (psk : List Byte) (s : State) :
    (tryManagement m w1 psk s).mem = s.mem := by
  unfold tryManagement; split <;> simp

@[simp] theorem healthReply_mem (m : Hdr) (s : State) : (healthReply m s).mem = s.mem := by
  simp [healthReply]

@[simp] theorem fenceCore_mem (core : Nat) (s : State) : (fenceCore core s).mem = s.mem := by
  unfold fenceCore; exact foldl_mem (fun s x => by simp) _ _

@[simp] theorem remember_mem (core pipe : Nat) (ref : UnitRef) (s : State) :
    (remember core pipe ref s).mem = s.mem := by
  unfold remember; (repeat' split) <;> simp

@[simp] theorem noteIssue_mem (ref : UnitRef) (before after : State) :
    (noteIssue ref before after).mem = after.mem := by
  unfold noteIssue; split
  · split
    · rfl
    · split
      · simp
      · rfl
  · rfl

@[simp] theorem noteHold_mem (core pipe : Nat) (ref : UnitRef) (before after : State) :
    (noteHold core pipe ref before after).mem = after.mem := by
  unfold noteHold; dsimp only; (repeat' split) <;> simp

@[simp] theorem prepare_mem (core pipe : Nat) (ref : UnitRef) (s : State) :
    (prepare core pipe ref s).mem = s.mem := by
  simp [prepare]

@[simp] theorem growOlder_mem (s : State) : (growOlder s).mem = s.mem := by
  unfold growOlder; exact foldl_mem (fun s e => foldl_mem (fun s r => by split <;> simp) _ _) _ _

@[simp] theorem tick_mem (s : State) : (tick s).mem = s.mem := by
  unfold tick; dsimp only
  split <;> simp (disch := (intros; simp)) only [foldl_mem, passTime_mem, growOlder_mem]

@[simp] theorem upset_mem (loc : Nat) (hard : Bool) (s : State) :
    (upset loc hard s).mem = s.mem := by
  rfl

@[simp] theorem upsetReg_mem (gk key : Nat) (s : State) : (upsetReg gk key s).mem = s.mem := by
  simp [upsetReg]

@[simp] theorem upsetInst_mem (id key : Nat) (s : State) : (upsetInst id key s).mem = s.mem := by
  simp [upsetInst]

@[simp] theorem upsetPlane_mem (core k : Nat) (s : State) : (upsetPlane core k s).mem = s.mem := by
  rfl

@[simp] theorem upsetLine_mem (ctx line num word : Nat) (s : State) :
    (upsetLine ctx line num word s).mem = s.mem := by
  simp [upsetLine]

@[simp] theorem upsetRow_mem (core row : Nat) (s : State) : (upsetRow core row s).mem = s.mem := by
  rfl

@[simp] theorem upsetFlash_mem (digest : Nat) (s : State) : (upsetFlash digest s).mem = s.mem := by
  rfl

end Sys2Proof.Machine
end

