-- ==== Sys2Proof/Laws/KeepOwner1.lean ====
section
/-!
SUPPORT. The operations that leave the owners of granules as it is, one lemma each: the operands, results,
waits and causes first.
-/
namespace Sys2Proof.Machine

@[simp] theorem clearBad_owner (s : State) (loc n : Nat) : (clearBad s loc n).owner = s.owner := by
  unfold clearBad; split <;> rfl

@[simp] theorem clearBadKeys_owner (s : State) (ks : List Nat) :
    (clearBadKeys s ks).owner = s.owner := by
  unfold clearBadKeys; split <;> rfl

@[simp] theorem markBad_owner (s : State) (ks : List Nat) : (markBad s ks).owner = s.owner := by
  rfl

@[simp] theorem passTime_owner (d : Nat) (s : State) : (passTime d s).owner = s.owner := by
  rfl

@[simp] theorem usecTo_owner (t : Nat) (s : State) : (usecTo t s).owner = s.owner := by
  unfold usecTo; split <;> rfl

@[simp] theorem tenthsTo_owner (t : Nat) (s : State) : (tenthsTo t s).owner = s.owner := by
  unfold tenthsTo; split <;> simp

@[simp] theorem onUnit_owner (s : State) (u : UView) (fg : Gang → Gang) (fi : Inst → Inst) :
    (onUnit s u fg fi).owner = s.owner := by
  unfold onUnit; (repeat' split) <;> simp

@[simp] theorem onIssuer_owner (s : State) (u : UView) (fg : Group → Group) (fi : Inst → Inst) :
    (onIssuer s u fg fi).owner = s.owner := by
  unfold onIssuer; (repeat' split) <;> simp

@[simp] theorem setVreg_owner (s : State) (u : UView) (lane r : Nat) (x : Word) :
    (setVreg s u lane r x).owner = s.owner := by
  unfold setVreg; split <;> simp

@[simp] theorem setVregs_owner (s : State) (u : UView) (r : Nat) (rs : List (Nat × Word)) :
    (setVregs s u r rs).owner = s.owner := by
  unfold setVregs; split <;> simp

@[simp] theorem setGreg_owner (s : State) (u : UView) (r : Nat) (x : Word) :
    (setGreg s u r x).owner = s.owner := by
  simp [setGreg]

@[simp] theorem setQreg_owner (s : State) (u : UView) (n : Nat) (x : Word) :
    (setQreg s u n x).owner = s.owner := by
  simp [setQreg]

@[simp] theorem setLatches_owner (s : State) (u : UView) (p : Pipe) (ls : List Latch) :
    (setLatches s u p ls).owner = s.owner := by
  unfold setLatches; split <;> simp

@[simp] theorem shiftIn_owner (s : State) (u : UView) (p : Pipe) (reg : Option Nat) (pend : Option
    Nat) (val : Sparse Word) :
    (shiftIn s u p reg pend val).owner = s.owner := by
  simp [shiftIn]

@[simp] theorem goto_owner (s : State) (u : UView) (pc : Nat) : (goto s u pc).owner = s.owner := by
  simp [goto]

@[simp] theorem advance_owner (s : State) (u : UView) : (advance s u).owner = s.owner := by
  simp [advance]

@[simp] theorem hold_owner (s : State) (u : UView) (w : WaitOn) : (hold s u w).owner = s.owner := by
  simp [hold]

@[simp] theorem idem_owner (s : State) (u : UView) : (idem s u).owner = s.owner := by
  unfold idem; split <;> simp

@[simp] theorem idemAccess_owner (s : State) (u : UView) : (idemAccess s u).owner = s.owner := by
  unfold idemAccess; (repeat' split) <;> simp

@[simp] theorem report_owner (s : State) (op ctx : Nat) (payload : List Byte) :
    (report s op ctx payload).owner = s.owner := by
  unfold report; split <;> rfl

@[simp] theorem faultContext_owner (ctx : Nat) (c : Cause) (s : State) :
    (faultContext ctx c s).owner = s.owner := by
  unfold faultContext; split <;> simp

@[simp] theorem startInst_owner (s : State) (core ctx : Nat) (serves : Serves) (r : Record) (at_ :
    Word) :
    (startInst s core ctx serves r at_).owner = s.owner := by
  rfl

@[simp] theorem counted_owner (core code : Nat) (s : State) :
    (counted core code s).owner = s.owner := by
  unfold counted; split <;> rfl

@[simp] theorem raiseDetached_owner (core ctx : Nat) (c : Cause) (notice defer : Bool) (at_ :
    Word) (scode : Bool) (s : State) (half : Nat) (cdepth : Nat) :
    (raiseDetached core ctx c notice defer at_ scode s half cdepth).owner = s.owner := by
  unfold raiseDetached; dsimp only; (repeat' split) <;> simp

@[simp] theorem dropFrags_owner (s : State) (g : Gang) : (dropFrags s g).owner = s.owner := by
  unfold dropFrags; exact foldl_owner (fun s x => by simp) _ _

@[simp] theorem unwind_owner (gk gid : Nat) (g : Gang) (r : Group) (c : Cause) (lanes : List Nat)
    (defer : Bool) (s : State) :
    (unwind gk gid g r c lanes defer s).owner = s.owner := by
  unfold unwind; split <;> simp

@[simp] theorem stopGroup_owner (gk gid : Nat) (g : Gang) (r : Group) (c : Cause) (lanes : List
    Nat) (defer : Bool) (at_ : Word) (scode : Bool) (s : State) :
    (stopGroup gk gid g r c lanes defer at_ scode s).owner = s.owner := by
  unfold stopGroup; split <;> simp

@[simp] theorem park_owner (gk : Nat) (g : Gang) (r : Region) (cdepth : Nat) (c : Cause) (lanes :
    List Nat) (defer : Bool) (at_ : Word) (scode : Bool) (s : State) :
    (park gk g r cdepth c lanes defer at_ scode s).owner = s.owner := by
  unfold park; (repeat' split) <;> simp

@[simp] theorem raiseGroup_owner (gk gid : Nat) (c : Cause) (lanes : List Nat) (defer : Bool) (at_
    : Word) (scode : Bool) (s : State) :
    (raiseGroup gk gid c lanes defer at_ scode s).owner = s.owner := by
  unfold raiseGroup; (repeat' split) <;> simp

@[simp] theorem raiseInst_owner (id : Nat) (c : Cause) (lanes : List Nat) (defer : Bool) (at_ :
    Word) (s : State) :
    (raiseInst id c lanes defer at_ s).owner = s.owner := by
  unfold raiseInst; dsimp only; (repeat' split) <;> simp

@[simp] theorem raise_owner (c : Cause) (lanes : List Nat) (u : UView) (s : State) :
    (raise c lanes u s).owner = s.owner := by
  unfold raise; dsimp only; (repeat' split) <;> simp

@[simp] theorem setFailed_owner (bads : List (Nat × Cause)) (u : UView) (s : State) :
    (setFailed bads u s).owner = s.owner := by
  unfold setFailed; split <;> simp

@[simp] theorem parkFailed_owner (u : UView) (s : State) : (parkFailed u s).owner = s.owner := by
  unfold parkFailed; (repeat' split) <;> simp

@[simp] theorem raiseOn_owner (c : Cause) (lanes : List Nat) (u : UView) (s : State) :
    (raiseOn c lanes u s).owner = s.owner := by
  unfold raiseOn; dsimp only; (repeat' split) <;> simp

@[simp] theorem resume_owner (gk gid : Nat) (s : State) : (resume gk gid s).owner = s.owner := by
  simp [resume]

@[simp] theorem rett_owner (id : Nat) (i : Inst) (s0 : State) : (rett id i s0).owner = s0.owner := by
  unfold rett; (repeat' split) <;> simp

@[simp] theorem restartUnit_owner (s : State) (u : UView) : (restartUnit s u).owner = s.owner := by
  unfold restartUnit; (repeat' split) <;> simp

@[simp] theorem laneResult_owner (d : BitVec 6) (w : Bool) (rs : List (Nat × Word)) (u : UView) (s
    : State) :
    (laneResult d w rs u s).owner = s.owner := by
  unfold laneResult; split <;> simp

@[simp] theorem gangResult_owner (d : BitVec 6) (w : Bool) (x : Word) (u : UView) (s : State) :
    (gangResult d w x u s).owner = s.owner := by
  unfold gangResult; split <;> simp

@[simp] theorem finishLanes_owner (rs : List (Nat × LaneRes)) (fin : List (Nat × Word) → UView →
    State → State) (u : UView) (s : State) (h_fin : ∀ x0 x1 x2, (fin x0 x1 x2).owner = x2.owner) :
    (finishLanes rs fin u s).owner = s.owner := by
  unfold finishLanes; (repeat' split) <;> simp [*]

@[simp] theorem requestWalk_owner (core ctx page acc : Nat) (who : PWaiter) (s : State) (n : Nat)
    :
    (requestWalk core ctx page acc who s n).owner = s.owner := by
  unfold requestWalk; dsimp only; (repeat' split) <;> simp

@[simp] theorem updTag_owner (s : State) (ctx core idx : Nat) (f : Tag → Tag) :
    (updTag s ctx core idx f).owner = s.owner := by
  rfl

@[simp] theorem applyOwn_owner (d key ek : Nat) (bytes : List (Nat × Byte)) (s : State) :
    (applyOwn d key ek bytes s).owner = s.owner := by
  simp [applyOwn]

@[simp] theorem originate_owner (d : Nat) (bytes : List (Nat × Byte)) (o : Origin) (s : State) :
    (originate d bytes o s).owner = s.owner := by
  simp [originate]

@[simp] theorem take_owner (w : Pub) (s : State) : (take w s).owner = s.owner := by
  simp [take]

@[simp] theorem storeSpot_owner (p : Spot) (bs : List Byte) (s : State) (keep : Nat → Bool) :
    (storeSpot p bs s keep).owner = s.owner := by
  unfold storeSpot; split <;> simp

@[simp] theorem gutterPush_owner (a : Agent) (x : Access) (lanes : List Nat) (s : State) :
    (gutterPush a x lanes s).owner = s.owner := by
  simp [gutterPush]

@[simp] theorem sendHome_owner (a : Agent) (entry : Option Nat) (order : Nat) (x : Access) (pa :
    Nat) (s : State) :
    (sendHome a entry order x pa s).owner = s.owner := by
  rfl

@[simp] theorem performStore_owner (a : Agent) (x : Access) (p : Spot) (s : State) :
    (performStore a x p s).owner = s.owner := by
  unfold performStore; dsimp only; (repeat' split) <;> simp

@[simp] theorem performStores_owner (a : Agent) (xs : List (Access × Spot)) (s : State) :
    (performStores a xs s).owner = s.owner := by
  unfold performStores
  exact foldl_owner (fun s e => by simp) _ _

@[simp] theorem atomSpot_owner (op : AccOp) (p : Spot) (s : State) :
    (atomSpot op p s).2.owner = s.owner := by
  simp [atomSpot]

@[simp] theorem performAtoms_owner (a : Agent) (entry k : Nat) (xs : List (Access × Spot)) (s :
    State) :
    (performAtoms a entry k xs s).2.owner = s.owner := by
  induction xs generalizing k s with
  | nil => rfl
  | cons e l ih =>
    obtain ⟨x, p⟩ := e
    unfold performAtoms; split <;> simp [ih]

@[simp] theorem performReds_owner (a : Agent) (xs : List (Access × Spot)) (s : State) :
    (performReds a xs s).owner = s.owner := by
  unfold performReds
  exact foldl_owner (fun s e => by split <;> simp) _ _

@[simp] theorem performAll_owner (a : Agent) (entry : Nat) (xs : List (Access × Spot)) (s : State)
    :
    (performAll a entry xs s).2.owner = s.owner := by
  unfold performAll; (repeat' split) <;> simp

@[simp] theorem mapLatches_owner (ref : UnitRef) (p : Pipe) (f : List Latch → List Latch) (s :
    State) :
    (mapLatches ref p f s).owner = s.owner := by
  unfold mapLatches; split <;> simp

@[simp] theorem setPending_owner (u : UView) (gangDst : Bool) (keys : List Nat) (v : Nat) (s :
    State) :
    (setPending u gangDst keys v s).owner = s.owner := by
  unfold setPending; (repeat' split) <;> simp

@[simp] theorem openResult_owner (d : BitVec 6) (w gangDst : Bool) (entry : Nat) (lanes : List
    Nat) (u : UView) (s : State) :
    (openResult d w gangDst entry lanes u s).owner = s.owner := by
  unfold openResult; (repeat' split) <;> simp

@[simp] theorem deliver_owner (ref : UnitRef) (gk : Option Nat) (dst : Option Nat) (gangDst :
    Bool) (entry lane : Nat) (x : Word) (s : State) :
    (deliver ref gk dst gangDst entry lane x s).owner = s.owner := by
  unfold deliver; (repeat' split) <;> simp

@[simp] theorem undeliver_owner (ref : UnitRef) (gk : Option Nat) (entry : Nat) (s : State) :
    (undeliver ref gk entry s).owner = s.owner := by
  unfold undeliver; (repeat' split) <;> simp

@[simp] theorem closeResult_owner (ref : UnitRef) (gk : Option Nat) (dst : Option Nat) (gangDst :
    Bool) (entry : Nat) (vals : List (Nat × Word)) (skip : List Nat) (s : State) :
    (closeResult ref gk dst gangDst entry vals skip s).owner = s.owner := by
  unfold closeResult
  (repeat' split) <;> simp [*] <;> (repeat' split) <;> first | rfl | (simp [*]; done) | (rw [foldl_owner] <;> (intros; (repeat' split) <;> first | rfl | (simp [*]; done))) | (simp (disch := (intros; (repeat' split) <;> first | rfl | (simp [*]; done))) only [*, foldl_owner]; simp [*]; done)

@[simp] theorem dropResult_owner (ref : UnitRef) (gk : Option Nat) (gangDst : Bool) (entry : Nat)
    (s : State) :
    (dropResult ref gk gangDst entry s).owner = s.owner := by
  simp [dropResult]

@[simp] theorem defersNext_owner (s : State) : (defersNext s).owner = s.owner := by
  rfl

@[simp] theorem enqueue_owner (u : UView) (op : QueueOp) (dst : Option Nat) (gangDst : Bool) (acts
    : List Nat) (s : State) :
    (enqueue u op dst gangDst acts s).owner = s.owner := by
  rfl

@[simp] theorem pend_owner (core ctx : Nat) (gk : Option Nat) (gid : Option Nat) (c : Cause)
    (lanes : List Nat) (pc : Word) (scode : Bool) (s : State) (defer : Bool) :
    (pend core ctx gk gid c lanes pc scode s defer).owner = s.owner := by
  unfold pend; (repeat' split) <;> simp

@[simp] theorem lateFail_owner (ref : UnitRef) (core ctx : Nat) (gk : Option Nat) (seq : Nat)
    (held : Bool) (pc : Word) (scode : Bool) (c : Cause) (lanes : List Nat) (s : State) :
    (lateFail ref core ctx gk seq held pc scode c lanes s).owner = s.owner := by
  unfold lateFail; dsimp only; (repeat' split) <;> simp

@[simp] theorem endDue_owner (e : QEntry) (ok : Bool) (s : State) :
    (endDue e ok s).owner = s.owner := by
  unfold endDue; split <;> simp

@[simp] theorem finishEntry_owner (e : QEntry) (s : State) : (finishEntry e s).owner = s.owner := by
  unfold finishEntry; (repeat' split) <;> simp

@[simp] theorem settleEntry_owner (e : QEntry) (s : State) : (settleEntry e s).owner = s.owner := by
  unfold settleEntry; split <;> simp

@[simp] theorem updEntry_owner (id : Nat) (f : QEntry → QEntry) (s : State) :
    (updEntry id f s).owner = s.owner := by
  rfl

@[simp] theorem closeLanes_owner (id : Nat) (rest : QueueOp) (got : List (Nat × Word)) (fails :
    List (Nat × Cause)) (s : State) :
    (closeLanes id rest got fails s).owner = s.owner := by
  unfold closeLanes; (repeat' split) <;> simp

@[simp] theorem askPages_owner (core ctx : Nat) (who : PWaiter) (ms : List (Access × Nat × Nat))
    (s : State) :
    (askPages core ctx who ms s).owner = s.owner := by
  unfold askPages; exact foldl_owner (fun s p => by simp) _ _

@[simp] theorem holdPages_owner (ms : List (Access × Nat × Nat)) (u : UView) (s : State) :
    (holdPages ms u s).owner = s.owner := by
  unfold holdPages; simp

@[simp] theorem accDone_owner (p : AccPlan) (u : UView) (s : State) :
    (accDone p u s).owner = s.owner := by
  unfold accDone; split <;> simp

@[simp] theorem accResult_owner (p : AccPlan) (entry : Nat) (lanes : List Nat) (vals : Option
    (List (Nat × Word))) (u : UView) (s : State) :
    (accResult p entry lanes vals u s).owner = s.owner := by
  unfold accResult; (repeat' split) <;> simp

@[simp] theorem accPerform_owner (p : AccPlan) (xs : List (Access × Spot)) (u : UView) (acts :
    List Nat) (s : State) :
    (accPerform p xs u acts s).owner = s.owner := by
  unfold accPerform; dsimp only
  (repeat' split) <;> simp <;> split <;> simp

@[simp] theorem accQueue_owner (p : AccPlan) (xs : List Access) (u : UView) (acts : List Nat) (s :
    State) :
    (accQueue p xs u acts s).owner = s.owner := by
  simp [accQueue]

@[simp] theorem accRetire_owner (p : AccPlan) (rs : List (Access × AccRes)) (fin : State → State)
    (u : UView) (acts : List Nat) (s : State) (h : ∀ s, (fin s).owner = s.owner) :
    (accRetire p rs fin u acts s).owner = s.owner := by
  unfold accRetire; dsimp only
  split
  · simp
  · rw [h, accPerform_owner]
    exact foldl_owner (fun s x => by simp) _ _

@[simp] theorem wanting_owner (ctx : Nat) (w : WaitOn) (s : State) :
    (wanting ctx w s).owner = s.owner := by
  unfold wanting; split <;> rfl

@[simp] theorem accGo_owner (p : AccPlan) (rs : List (Access × AccRes)) (fin : State → State) (u :
    UView) (acts : List Nat) (s : State) (h : ∀ s, (fin s).owner = s.owner) :
    (accGo p rs fin u acts s).owner = s.owner := by
  unfold accGo; dsimp only
  (repeat' split) <;> simp [h]

@[simp] theorem access_owner (p : AccPlan) (xs : List Access) (u : UView) (acts : List Nat) (s :
    State) :
    (access p xs u acts s).owner = s.owner := by
  unfold access; dsimp only
  (repeat' split) <;> simp

@[simp] theorem setDesc_owner (ctx core n : Nat) (d : Desc) (s : State) :
    (setDesc ctx core n d s).owner = s.owner := by
  rfl

@[simp] theorem gangFail_owner (c : Cause) (acts : List Nat) (u : UView) (s : State) :
    (gangFail c acts u s).owner = s.owner := by
  simp [gangFail]

@[simp] theorem loadDesc_owner (n : Nat) (d : Desc) (acts : List Nat) (u : UView) (s : State) :
    (loadDesc n d acts u s).owner = s.owner := by
  unfold loadDesc; (repeat' split) <;> simp

@[simp] theorem setFlags_owner (fl : Nat) (u : UView) (s : State) :
    (setFlags fl u s).owner = s.owner := by
  unfold setFlags; (repeat' split) <;> simp

@[simp] theorem combined_owner (isFloat : Bool) (fl : FFlags) (d : BitVec 6) (w : Bool) (rs : List
    (Nat × Word × FFlags)) (u : UView) (s : State) :
    (combined isFloat fl d w rs u s).owner = s.owner := by
  unfold combined; split <;> simp

@[simp] theorem setGregAside_owner (u : UView) (r : Nat) (x : Word) (s : State) :
    (setGregAside u r x s).owner = s.owner := by
  simp [setGregAside]

@[simp] theorem zeroRange_owner (loc n : Nat) (s : State) : (zeroRange loc n s).owner = s.owner := by
  simp [zeroRange]

@[simp] theorem setAside_owner (u : UView) (r : Nat) (l : List Word) (s : State) :
    (setAside u r l s).owner = s.owner := by
  induction l generalizing r s with
  | nil => rfl
  | cons x l ih => unfold setAside; rw [ih]; simp

@[simp] theorem gangResults_owner (d : BitVec 6) (w : Bool) (x : Word) (more : List Word) (u :
    UView) (s : State) :
    (gangResults d w x more u s).owner = s.owner := by
  unfold gangResults; simp

@[simp] theorem exitRegion_owner (gk : Nat) (s : State) : (exitRegion gk s).owner = s.owner := by
  simp [exitRegion]

@[simp] theorem startPass_owner (gk : Nat) (im : Image) (st : Nat) (rest : List Nat) (done : Nat)
    (s : State) :
    (startPass gk im st rest done s).owner = s.owner := by
  simp [startPass]

@[simp] theorem countMiss_owner (gk : Nat) (im : Image) (v : List Nat) (at_ : Word) (scode : Bool)
    (s : State) :
    (countMiss gk im v at_ scode s).owner = s.owner := by
  unfold countMiss; (repeat' split) <;> simp

@[simp] theorem vote_owner (gk : Nat) (at_ : Word) (scode : Bool) (s : State) :
    (vote gk at_ scode s).owner = s.owner := by
  unfold vote; dsimp only; (repeat' split) <;> simp

@[simp] theorem opFail_owner (i : Instr) (code src : Nat) (acts : List Nat) (u : UView) (s :
    State) :
    (opFail i code src acts u s).owner = s.owner := by
  simp [opFail]

@[simp] theorem enterRegion_owner (gk img exitPc : Nat) (im : Image) (u : UView) (s : State) :
    (enterRegion gk img exitPc im u s).owner = s.owner := by
  simp [enterRegion]

@[simp] theorem endPass_owner (gk : Nat) (r : Region) (u : UView) (s : State) :
    (endPass gk r u s).owner = s.owner := by
  unfold endPass; dsimp only; (repeat' split) <;> simp

@[simp] theorem fragmentGone_owner (gk : Nat) (s : State) : (fragmentGone gk s).owner = s.owner := by
  unfold fragmentGone; (repeat' split) <;> simp

@[simp] theorem enqueueOp_owner (u : UView) (op : QueueOp) (s : State) :
    (enqueueOp u op s).owner = s.owner := by
  rfl

@[simp] theorem mapWaits_owner (ctx : Nat) (f : Wait → Wait) (s : State) :
    (mapWaits ctx f s).owner = s.owner := by
  rfl

@[simp] theorem failRows_owner (u : UView) (rows : List (Nat × Nat × Word)) (got : List (Nat ×
    Word)) (since : Nat) (hit : Nat × Nat × Word → Bool) (c : Cause) (s : State) :
    (failRows u rows got since hit c s).owner = s.owner := by
  unfold failRows; dsimp only; (repeat' split) <;> simp

@[simp] theorem failReaders_owner (ctx : Nat) (hit : Nat × Nat × Word → Bool) (c : Cause) (s :
    State) :
    (failReaders ctx hit c s).owner = s.owner := by
  unfold failReaders; exact foldl_owner (fun s x => by split <;> simp) _ _

@[simp] theorem conflictReaders_owner (ctx line m : Nat) (c : Cause) (s : State) :
    (conflictReaders ctx line m c s).owner = s.owner := by
  simp [conflictReaders]

@[simp] theorem serveReaders_owner (ctx line : Nat) (s : State) :
    (serveReaders ctx line s).owner = s.owner := by
  unfold serveReaders; split <;> simp

@[simp] theorem settleNodes_owner (ctx : Nat) (s : State) : (settleNodes ctx s).owner = s.owner := by
  rfl

@[simp] theorem appendVersion_owner (ctx line m : Nat) (new : List Byte) (bad : List Nat) (s :
    State) :
    (appendVersion ctx line m new bad s).owner = s.owner := by
  simp [appendVersion]

@[simp] theorem storeVersion_owner (ctx m line : Nat) (ws : List (Nat × Byte)) (s : State) :
    (storeVersion ctx m line ws s).owner = s.owner := by
  simp [storeVersion]

@[simp] theorem storeLines_owner (ctx m : Nat) (xs : List Access) (s : State) :
    (storeLines ctx m xs s).owner = s.owner := by
  unfold storeLines; exact foldl_owner (fun s x => by simp) _ _

@[simp] theorem ldvFirst_owner (o : O3) (n : Word) (u : UView) (acts : List Nat) (s : State) :
    (ldvFirst o n u acts s).owner = s.owner := by
  unfold ldvFirst; dsimp only; (repeat' split) <;> simp

@[simp] theorem setRegion_owner (ctx k : Nat) (floors : Bool) (r : VRegion) (s : State) :
    (setRegion ctx k floors r s).owner = s.owner := by
  simp [setRegion]

@[simp] theorem illegalWord_owner (w : Word) (r : Reject) (u : UView) (s : State) :
    (illegalWord w r u s).owner = s.owner := by
  unfold illegalWord; dsimp only; (repeat' split) <;> simp

@[simp] theorem setBar_owner (key : Nat) (b : Barrier) (s : State) :
    (setBar key b s).owner = s.owner := by
  rfl

@[simp] theorem setCoh_owner (key : Nat) (c : Cohort) (s : State) :
    (setCoh key c s).owner = s.owner := by
  rfl

@[simp] theorem updXp_owner (core p : Nat) (f : Xp → Xp) (s : State) :
    (updXp core p f s).owner = s.owner := by
  rfl

@[simp] theorem xpGoto_owner (core p pc : Nat) (s : State) :
    (xpGoto core p pc s).owner = s.owner := by
  rfl

@[simp] theorem xpNext_owner (core p : Nat) (s : State) : (xpNext core p s).owner = s.owner := by
  rfl

@[simp] theorem failWait_owner (ref : UnitRef) (c : Cause) (s : State) :
    (failWait ref c s).owner = s.owner := by
  unfold failWait; split <;> simp

@[simp] theorem finishWait_owner (ref : UnitRef) (s : State) :
    (finishWait ref s).owner = s.owner := by
  unfold finishWait; split <;> simp

@[simp] theorem releaseBar_owner (key : Nat) (s : State) : (releaseBar key s).owner = s.owner := by
  unfold releaseBar; dsimp only
  rw [foldl_owner (fun s e => by split <;> simp), foldl_owner (fun s e => by split <;> simp)]

@[simp] theorem settlePhase_owner (key : Nat) (s : State) : (settlePhase key s).owner = s.owner := by
  unfold settlePhase; dsimp only
  split <;> simp

@[simp] theorem poisonBar_owner (key : Nat) (s : State) : (poisonBar key s).owner = s.owner := by
  unfold poisonBar
  simp (disch := (intros; (repeat' split) <;> first | rfl | simp [*])) only [foldl_owner]; (repeat' split) <;> simp [*]

@[simp] theorem countArrival_owner (key : Nat) (s : State) :
    (countArrival key s).owner = s.owner := by
  unfold countArrival; simp

@[simp] theorem countBytes_owner (key n : Nat) (s : State) :
    (countBytes key n s).2.owner = s.owner := by
  unfold countBytes; dsimp only
  split <;> simp

@[simp] theorem unbindGang_owner (gk key : Nat) (s : State) :
    (unbindGang gk key s).owner = s.owner := by
  unfold unbindGang; dsimp only
  (repeat' split) <;> simp

@[simp] theorem unbindAll_owner (gk : Nat) (s : State) : (unbindAll gk s).owner = s.owner := by
  unfold unbindAll; exact foldl_owner (fun s e => by simp) _ _

@[simp] theorem forgetOwed_owner (key : Nat) (s : State) : (forgetOwed key s).owner = s.owner := by
  rfl

@[simp] theorem barInit_owner (u : UView) (a b : Word) (s : State) :
    (barInit u a b s).owner = s.owner := by
  unfold barInit; dsimp only; rw [setBar_owner, forgetOwed_owner, forgetOwed_owner]
  (repeat' split) <;> simp (disch := (intros; (try split) <;> simp)) only [foldl_owner]

@[simp] theorem arrive_owner (key : Nat) (u : UView) (s : State) :
    (arrive key u s).owner = s.owner := by
  unfold arrive; dsimp only
  split <;> simp

@[simp] theorem leaveBarriers_owner (gk key : Nat) (s : State) :
    (leaveBarriers gk key s).owner = s.owner := by
  unfold leaveBarriers; exact foldl_owner (fun s e => by dsimp only; split <;> simp) _ _

@[simp] theorem readStart_owner (core p i : Nat) (s : State) :
    (readStart core p i s).owner = s.owner := by
  unfold readStart; (repeat' split) <;> simp

@[simp] theorem readStarts_owner (core p : Nat) (s : State) :
    (readStarts core p s).owner = s.owner := by
  unfold readStarts; exact foldl_owner (fun s x => by simp) _ _

@[simp] theorem refreshStarts_owner (core p : Nat) (s : State) :
    (refreshStarts core p s).owner = s.owner := by
  simp [refreshStarts]

@[simp] theorem leaveCohort_owner (gk key : Nat) (s : State) :
    (leaveCohort gk key s).owner = s.owner := by
  unfold leaveCohort; dsimp only; (repeat' split) <;> simp

@[simp] theorem leaveAll_owner (gk : Nat) (s : State) : (leaveAll gk s).owner = s.owner := by
  unfold leaveAll
  (repeat' split) <;> first | rfl | (rw [foldl_owner] <;> (intros; (repeat' split) <;> simp [*]))

@[simp] theorem countLeaving_owner (gk : Nat) (l : Leaving) (s : State) :
    (countLeaving gk l s).owner = s.owner := by
  unfold countLeaving
  rw [unbindAll_owner]; exact foldl_owner (fun s e => by dsimp only; split <;> simp) _ _

@[simp] theorem settleLeaving_owner (gk : Nat) (s : State) :
    (settleLeaving gk s).owner = s.owner := by
  unfold settleLeaving; dsimp only
  split
  · rfl
  · split
    · rfl
    · rw [foldl_owner (fun s l => by simp)]; simp

@[simp] theorem signalTl_owner (ctx k : Nat) (n : Dword) (s : State) :
    (signalTl ctx k n s).owner = s.owner := by
  simp [signalTl]

@[simp] theorem part_owner (gk gid : Nat) (g : Gang) (r : Group) (go stay : List Nat) (target next
    : Nat) (s : State) :
    (part gk gid g r go stay target next s).owner = s.owner := by
  rfl

@[simp] theorem mergeGroups_owner (gk pc : Nat) (s : State) :
    (mergeGroups gk pc s).owner = s.owner := by
  simp [mergeGroups]

@[simp] theorem raiseAll_owner (gk : Nat) (c : Cause) (s : State) :
    (raiseAll gk c s).owner = s.owner := by
  unfold raiseAll
  (repeat' split) <;> first | rfl | (rw [foldl_owner] <;> (intros; (repeat' split) <;> simp [*]))

@[simp] theorem regang_owner (gk : Nat) (s : State) : (regang gk s).owner = s.owner := by
  unfold regang; dsimp only; (repeat' split) <;> simp

@[simp] theorem flushPending_owner (g : Gang) (s : State) : (flushPending g s).owner = s.owner := by
  unfold flushPending; exact foldl_owner (fun s _ => foldl_owner (fun s p => by simp) _ _) _ _

@[simp] theorem nodeGangGone_owner (node gk : Nat) (s : State) :
    (nodeGangGone node gk s).owner = s.owner := by
  unfold nodeGangGone; dsimp only; (repeat' split) <;> simp

@[simp] theorem tryRetire_owner (gk : Nat) (s0 : State) : (tryRetire gk s0).owner = s0.owner := by
  unfold tryRetire; dsimp only
  (repeat' split) <;> simp

end Sys2Proof.Machine
end

