-- ==== Sys2Proof/Laws/KeepOwner2.lean ====
section
/-!
SUPPORT. The operations that leave the owners of granules as it is, one lemma each: the rest of the machine, in its order.
-/
namespace Sys2Proof.Machine

@[simp] theorem retireOf_owner (gk : Option Nat) (s : State) : (retireOf gk s).owner = s.owner := by
  unfold retireOf; split <;> simp

@[simp] theorem retireLanes_owner (gk : Nat) (lanes : List Nat) (gid : Option Nat) (s : State)
    (own : Bool) :
    (retireLanes gk lanes gid s own).owner = s.owner := by
  unfold retireLanes; dsimp only; (repeat' split) <;> simp

@[simp] theorem exitInst_owner (id : Nat) (s : State) : (exitInst id s).owner = s.owner := by
  unfold exitInst; dsimp only
  have h (l : List Nat) : (l.foldl (fun s k => setInst s k none) s).owner = s.owner := foldl_owner (fun s k => by simp) _ _
  (repeat' split) <;> simp [h]

@[simp] theorem setCont_owner (l : List Nat) (u : UView) (s : State) :
    (setCont l u s).owner = s.owner := by
  simp [setCont]

@[simp] theorem stopAtMark_owner (gk : Nat) (s : State) : (stopAtMark gk s).owner = s.owner := by
  simp [stopAtMark]

@[simp] theorem movs_owner (i : Instr) (r : Nat) (reads : Bool) (body : Sum Nat Nat → UView →
    State → State) (acts : List Nat) (u : UView) (s : State) (h_body : ∀ x0 x1 x2, (body x0 x1
    x2).owner = x2.owner) :
    (movs i r reads body acts u s).owner = s.owner := by
  unfold movs; (repeat' split) <;> simp [*]

@[simp] theorem updMatrix_owner (s : State) (core : Nat) (f : Matrix → Matrix) :
    (updMatrix s core f).owner = s.owner := by
  rfl

@[simp] theorem streamRows_owner (core : Nat) (a : Agent) (d : Desc) (h0 k0 i0 q n j : Nat) (s :
    State) :
    (streamRows core a d h0 k0 i0 q n j s).1.owner = s.owner := by
  induction n generalizing j s with
  | zero => rfl
  | succ n ih =>
    unfold streamRows; dsimp only
    (repeat' split) <;> first | rfl | (rw [ih]; simp)

@[simp] theorem issueCmd_owner (op : MOp) (opcode desc : Nat) (fin : State → State) (acts : List
    Nat) (u : UView) (s : State) (h_fin : ∀ x0, (fin x0).owner = x0.owner) :
    (issueCmd op opcode desc fin acts u s).owner = s.owner := by
  unfold issueCmd; split
  · simp
  · unfold enterMatrix; dsimp only
    split <;> (rename_i h; revert h; (repeat' split) <;> intro h <;> cases h <;> simp [*])

@[simp] theorem issueEng_owner (op : MOp) (opcode desc : Nat) (acts : List Nat) (u : UView) (s :
    State) :
    (issueEng op opcode desc acts u s).owner = s.owner := by
  unfold issueEng; simp

@[simp] theorem descFail_owner (n : Nat) (acts : List Nat) (u : UView) (s : State) :
    (descFail n acts u s).owner = s.owner := by
  simp [descFail]

@[simp] theorem releaseMatrix_owner (core : Nat) (s : State) :
    (releaseMatrix core s).owner = s.owner := by
  rfl

@[simp] theorem settleRelease_owner (core : Nat) (s : State) :
    (settleRelease core s).owner = s.owner := by
  unfold settleRelease; dsimp only; (repeat' split) <;> simp

@[simp] theorem xpHold_owner (core p : Nat) (st : XpState) (w : WaitOn) (s : State) :
    (xpHold core p st w s).owner = s.owner := by
  rfl

@[simp] theorem unstage_owner (ctx : Nat) (lines : List Nat) (s : State) :
    (unstage ctx lines s).owner = s.owner := by
  simp [unstage]

@[simp] theorem xpFaultAt_owner (core p code : Nat) (addr : Dword) (bar : Option Nat) (fpc tiles :
    Nat) (s : State) :
    (xpFaultAt core p code addr bar fpc tiles s).owner = s.owner := by
  unfold xpFaultAt
  simp (disch := (intros; (repeat' split) <;> first | rfl | simp [*])) only [foldl_owner]; (repeat' split) <;> simp [*]

@[simp] theorem xpFault_owner (core p code : Nat) (addr : Dword) (bar : Option Nat) (s : State) :
    (xpFault core p code addr bar s).owner = s.owner := by
  simp [xpFault]

@[simp] theorem xpCmdFault_owner (core p : Nat) (c : XCmd) (code : Nat) (addr : Dword) (s : State)
    :
    (xpCmdFault core p c code addr s).owner = s.owner := by
  simp [xpCmdFault]

@[simp] theorem joinStart_owner (core p : Nat) (idx : Option Nat) (st : Start) (s : State) :
    (joinStart core p idx st s).owner = s.owner := by
  simp [joinStart]

@[simp] theorem startGo_owner (acts : List Nat) (u : UView) (a : Dword) (b : Word) (s : State) :
    (startGo acts u a b s).owner = s.owner := by
  unfold startGo; dsimp only; (repeat' split) <;> simp

@[simp] theorem xpAlu_owner (d : BitVec 4) (x y : Word) (f : Word → Word → Word) (core p : Nat) (s
    : State) :
    (xpAlu d x y f core p s).owner = s.owner := by
  rfl

@[simp] theorem xpReadFail_owner (core p : Nat) (x : Xp) (bar : Option Nat) (addr : Dword) (r :
    XRead) (s : State) :
    (xpReadFail core p x bar addr r s).owner = s.owner := by
  unfold xpReadFail; split <;> simp

@[simp] theorem xpIllegal_owner (core p : Nat) (s : State) :
    (xpIllegal core p s).owner = s.owner := by
  simp [xpIllegal]

@[simp] theorem xpBranch_owner (core p : Nat) (x : Xp) (f : BitVec 16) (s : State) :
    (xpBranch core p x f s).owner = s.owner := by
  unfold xpBranch; dsimp only; (repeat' split) <;> simp

@[simp] theorem xpLoop_owner (core p : Nat) (x : Xp) (count off : Nat) (s : State) :
    (xpLoop core p x count off s).owner = s.owner := by
  unfold xpLoop; (repeat' split) <;> simp

@[simp] theorem setCursor_owner (core p : Nat) (k : BitVec 2) (c : Cursor) (s : State) :
    (setCursor core p k c s).owner = s.owner := by
  rfl

@[simp] theorem curStep_owner (k : BitVec 2) (d : BitVec 3) (by_ : Word) (core p : Nat) (x : Xp)
    (s : State) :
    (curStep k d by_ core p x s).owner = s.owner := by
  rfl

@[simp] theorem enterBarset_owner (core p : Nat) (bar : Option Nat) (s : State) :
    (enterBarset core p bar s).owner = s.owner := by
  unfold enterBarset; split <;> rfl

@[simp] theorem xpBegin_owner (cs : List Cursor) (bar : Option Nat) (body : Xp → State → State)
    (core p : Nat) (x : Xp) (s : State) (h_body : ∀ x0 x1, (body x0 x1).owner = x1.owner) :
    (xpBegin cs bar body core p x s).owner = s.owner := by
  unfold xpBegin; (repeat' split) <;> simp [*]

@[simp] theorem xpCommand_owner (core p : Nat) (kind : XKind) (bar : Option Nat) (words : List
    XWord) (version : Nat) (lines : List Nat) (s : State) :
    (xpCommand core p kind bar words version lines s).owner = s.owner := by
  rfl

@[simp] theorem xpTileFault_owner (core p code : Nat) (addr : Dword) (bar : Option Nat) (s :
    State) :
    (xpTileFault core p code addr bar s).owner = s.owner := by
  simp [xpTileFault]

@[simp] theorem withTile_owner (cd : Cursor) (bar : Option Nat) (body : Tile → Desc → State →
    State) (core p : Nat) (x : Xp) (s : State) (h_body : ∀ x0 x1 x2, (body x0 x1 x2).owner =
    x2.owner) :
    (withTile cd bar body core p x s).owner = s.owner := by
  unfold withTile; exact xpBegin_owner _ _ _ _ _ _ _ (fun x s => by split <;> simp [*])

@[simp] theorem stage_owner (ctx m : Nat) (lines : List Nat) (s : State) :
    (stage ctx m lines s).owner = s.owner := by
  unfold stage; exact foldl_owner (fun s x => by simp) _ _

@[simp] theorem vpubGo_owner (core p : Nat) (x : Xp) (bar : Option Nat) (space m : Nat) (ps : List
    (Dword × XByte)) (s : State) :
    (vpubGo core p x bar space m ps s).owner = s.owner := by
  unfold vpubGo; (repeat' split) <;> simp

@[simp] theorem updCmd_owner (core p cmd : Nat) (f : XCmd → XCmd) (s : State) :
    (updCmd core p cmd f s).owner = s.owner := by
  rfl

@[simp] theorem countCmd_owner (core p : Nat) (c : XCmd) (n : Nat) (s : State) :
    (countCmd core p c n s).owner = s.owner := by
  unfold countCmd; dsimp only; (repeat' split) <;> simp

@[simp] theorem landAt_owner (core p : Nat) (c : XCmd) (q : Spot) (bs : List (Nat × Byte)) (s :
    State) :
    (landAt core p c q bs s).owner = s.owner := by
  unfold landAt; split <;> simp

@[simp] theorem landAdd_owner (core p : Nat) (c : XCmd) (q : Spot) (addend : Word) (addr : Dword)
    (s : State) :
    (landAdd core p c q addend addr s).owner = s.owner := by
  unfold landAdd; dsimp only; (repeat' split) <;> simp

@[simp] theorem landWord_owner (core p : Nat) (c : XCmd) (dst : Nat) (w : XWord) (s : State) :
    (landWord core p c dst w s).owner = s.owner := by
  unfold landWord; dsimp only; (repeat' split) <;> simp

@[simp] theorem dropDrain_owner (c : MCmd) (s : State) : (dropDrain c s).owner = s.owner := by
  unfold dropDrain; split <;> simp

@[simp] theorem blame_owner (core ctx : Nat) (c : MCmd) (cause : Cause) (s : State) :
    (blame core ctx c cause s).owner = s.owner := by
  unfold blame; dsimp only; (repeat' split) <;> simp

@[simp] theorem matrixFault_owner (core : Nat) (cause : Cause) (s : State) :
    (matrixFault core cause s).owner = s.owner := by
  unfold matrixFault; dsimp only; split
  · rfl
  · simp (disch := (intros; simp)) only [settleRelease_owner, foldl_owner]; simp

@[simp] theorem popMatrix_owner (core : Nat) (s : State) : (popMatrix core s).owner = s.owner := by
  simp [popMatrix]

@[simp] theorem matrixStop_owner (core : Nat) (e : MStop) (s : State) :
    (matrixStop core e s).owner = s.owner := by
  unfold matrixStop; split <;> simp

@[simp] theorem beginRun_owner (core : Nat) (s : State) : (beginRun core s).owner = s.owner := by
  rfl

@[simp] theorem runDrainLanes_owner (core : Nat) (c : MCmd) (sel row col0 dst : Nat) (lanes : List
    Nat) (s : State) :
    (runDrainLanes core c sel row col0 dst lanes s).owner = s.owner := by
  unfold runDrainLanes; dsimp only
  split
  · simp
  · split
    · simp
    · split
      · rw [popMatrix_owner]; split <;> simp
      · rw [closeResult_owner, popMatrix_owner]; split <;> simp

@[simp] theorem runDrainPort_owner (core sel h0 n p : Nat) (s : State) :
    (runDrainPort core sel h0 n p s).owner = s.owner := by
  unfold runDrainPort; dsimp only; (repeat' split) <;> simp

@[simp] theorem markEntry_owner (die at_ entry acc : Nat) (s : State) :
    (markEntry die at_ entry acc s).owner = s.owner := by
  unfold markEntry; dsimp only; (repeat' split) <;> simp

@[simp] theorem refuseUnit_owner (page code : Nat) (ref : UnitRef) (s : State) :
    (refuseUnit page code ref s).owner = s.owner := by
  unfold refuseUnit; split <;> simp

@[simp] theorem gutterFail_owner (e : GutterEntry) (s : State) :
    (gutterFail e s).owner = s.owner := by
  unfold gutterFail; dsimp only; (repeat' split) <;> simp

@[simp] theorem refuseEntry_owner (e : QEntry) (page code : Nat) (s : State) :
    (refuseEntry e page code s).owner = s.owner := by
  unfold refuseEntry; dsimp only; (repeat' split) <;> simp

@[simp] theorem refuseStart_owner (core p code : Nat) (addr : Dword) (s : State) :
    (refuseStart core p code addr s).owner = s.owner := by
  rfl

@[simp] theorem toService_owner (w : Walk) (level : Nat) (absent : Bool) (s : State) :
    (toService w level absent s).owner = s.owner := by
  simp [toService]

@[simp] theorem cache_owner (t : Tlb) (s : State) : (cache t s).owner = s.owner := by
  rfl

@[simp] theorem invalidate_owner (ctx : Nat) (page : Option Nat) (s : State) :
    (invalidate ctx page s).owner = s.owner := by
  rfl

@[simp] theorem setRoot_owner (ctx : Nat) (high : Bool) (v : Word) (s : State) :
    (setRoot ctx high v s).owner = s.owner := by
  simp [setRoot]

@[simp] theorem holdEntry_owner (e : QEntry) (ms : List (Access × Nat × Nat)) (s : State) :
    (holdEntry e ms s).owner = s.owner := by
  simp [holdEntry]

@[simp] theorem performLoad_owner (e : QEntry) (all : List Access) (x : Access) (s : State) :
    (performLoad e all x s).owner = s.owner := by
  unfold performLoad; dsimp only; (repeat' split) <;> simp

@[simp] theorem performWrites_owner (e : QEntry) (all : List Access) (s : State) :
    (performWrites e all s).owner = s.owner := by
  unfold performWrites; dsimp only
  (repeat' split) <;> simp
  all_goals exact foldl_owner (fun s x => by simp) _ _

@[simp] theorem performDfa_owner (e : QEntry) (table : Dword) (rows : List DfaRow) (r : DfaRow) (s
    : State) :
    (performDfa e table rows r s).owner = s.owner := by
  unfold performDfa; dsimp only; (repeat' split) <;> simp

@[simp] theorem performStv_owner (e : QEntry) (m : Nat) (xs : List Access) (since : Option Nat) (s
    : State) :
    (performStv e m xs since s).owner = s.owner := by
  unfold performStv; dsimp only; (repeat' split) <;> simp

@[simp] theorem countUpdate_owner (t : Option (Nat × Nat × Nat)) (s : State) :
    (countUpdate t s).owner = s.owner := by
  unfold countUpdate; (repeat' split) <;> simp

@[simp] theorem answerOne_owner (h : HostWait) (s : State) : (answerOne h s).owner = s.owner := by
  unfold answerOne; split <;> simp

@[simp] theorem answerHost_owner (s : State) : (answerHost s).owner = s.owner := by
  unfold answerHost; exact foldl_owner (fun s x => by split <;> simp) _ _

@[simp] theorem answerSent_owner (id : Nat) (got : List (Nat × Word)) (fails : List (Nat × Cause))
    (s : State) :
    (answerSent id got fails s).owner = s.owner := by
  unfold answerSent; (repeat' split) <;> simp

@[simp] theorem updateFail_owner (h : HomeOp) (code : Nat) (s : State) :
    (updateFail h code s).owner = s.owner := by
  unfold updateFail; (repeat' split) <;> simp

@[simp] theorem fillCache_owner (core p : Nat) (line : Option (Nat × List Word)) (s : State) :
    (fillCache core p line s).owner = s.owner := by
  unfold fillCache; split <;> rfl

@[simp] theorem endWait_owner (ref : UnitRef) (since bound : Nat) (c : Cause) (s : State) :
    (endWait ref since bound c s).owner = s.owner := by
  unfold endWait; split <;> simp

@[simp] theorem endRows_owner (u : UView) (rows : List (Nat × Nat × Word)) (got : List (Nat ×
    Word)) (since : Nat) (s : State) :
    (endRows u rows got since s).owner = s.owner := by
  unfold endRows; dsimp only; (repeat' split) <;> simp

@[simp] theorem reply_owner (m : Hdr) (op status : Nat) (payload : List Byte) (s : State) :
    (reply m op status payload s).owner = s.owner := by
  unfold reply; split <;> rfl

@[simp] theorem inSession_owner (m : Hdr) (op : Nat) (body : State → State) (s : State) (h_body :
    ∀ x0, (body x0).owner = x0.owner) :
    (inSession m op body s).owner = s.owner := by
  unfold inSession; (repeat' split) <;> simp [*]

@[simp] theorem acceptNode_owner (n : Node) (s : State) : (acceptNode n s).owner = s.owner := by
  simp [acceptNode]

@[simp] theorem freeNode_owner (key : Nat) (n : Node) (s : State) :
    (freeNode key n s).owner = s.owner := by
  rfl

@[simp] theorem doneFail_owner (n : Node) (c : Cause) (s : State) :
    (doneFail n c s).owner = s.owner := by
  simp [doneFail]

@[simp] theorem startSave_owner (req gk : Nat) (s : State) :
    (startSave req gk s).owner = s.owner := by
  unfold startSave; split <;> simp

@[simp] theorem evictFor_owner (core prio need req : Nat) (s : State) :
    (evictFor core prio need req s).owner = s.owner := by
  unfold evictFor; exact foldl_owner (fun s x => by split <;> simp) _ _

@[simp] theorem abandonQueues_owner (gk : Nat) (s : State) :
    (abandonQueues gk s).owner = s.owner := by
  simp [abandonQueues]

@[simp] theorem readmit_owner (gk slot : Nat) (swapped : Option Nat) (s : State) :
    (readmit gk slot swapped s).owner = s.owner := by
  unfold readmit; split <;> rfl

@[simp] theorem swapIn_owner (gk : Nat) (s : State) : (swapIn gk s).owner = s.owner := by
  unfold swapIn; (repeat' split) <;> simp

@[simp] theorem releaseGang_owner (again : Bool) (gk : Nat) (s : State) :
    (releaseGang again gk s).owner = s.owner := by
  unfold releaseGang; dsimp only; rw [updGang_owner]; exact foldl_owner (fun s x => by simp) _ _

@[simp] theorem releaseAll_owner (ctx : Nat) (s : State) : (releaseAll ctx s).owner = s.owner := by
  unfold releaseAll; exact foldl_owner (fun s x => by simp) _ _

@[simp] theorem startQuiesce_owner (ctx : Nat) (s : State) :
    (startQuiesce ctx s).owner = s.owner := by
  unfold startQuiesce; dsimp only; (repeat' split) <;> simp

@[simp] theorem endQuiesce_owner (ctx : Nat) (s : State) : (endQuiesce ctx s).owner = s.owner := by
  unfold endQuiesce; split <;> simp

@[simp] theorem quiesceNotice_owner (ctx : Nat) (k : Word) (s : State) :
    (quiesceNotice ctx k s).owner = s.owner := by
  simp [quiesceNotice]

@[simp] theorem noteStart_owner (g : Gang) (s : State) : (noteStart g s).owner = s.owner := by
  unfold noteStart; dsimp only; (repeat' split) <;> simp

@[simp] theorem copyImages_owner (ctx core : Nat) (rs : List (Nat × ImageRes)) (s : State) :
    (copyImages ctx core rs s).owner = s.owner := by
  unfold copyImages; exact foldl_owner (fun s x => by split <;> simp) _ _

@[simp] theorem placeBatch_owner (key : Nat) (n : Node) (cluster : List Nat) (core b admitted :
    Nat) (cause : Option Cause) (s : State) :
    (placeBatch key n cluster core b admitted cause s).owner = s.owner := by
  unfold placeBatch; exact foldl_owner (fun s x => by simp) _ _

@[simp] theorem admitTo_owner (key : Nat) (n : Node) (cores : List Nat) (rs : List (Nat ×
    ImageRes)) (s : State) :
    (admitTo key n cores rs s).owner = s.owner := by
  unfold admitTo; exact foldl_owner (fun s x => by simp) _ _

@[simp] theorem markSkipped_owner (s : State) : (markSkipped s).owner = s.owner := by
  rfl

@[simp] theorem requestPreempt_owner (key : Nat) (n : Node) (s : State) :
    (requestPreempt key n s).owner = s.owner := by
  unfold requestPreempt; dsimp only
  (repeat' split) <;> first | rfl | (simp [*]; done) | (rw [foldl_owner] <;> (intros; (repeat' split) <;> first | rfl | (simp [*]; done))) | (simp (disch := (intros; (repeat' split) <;> first | rfl | (simp [*]; done))) only [*, foldl_owner]; simp [*]; done)

@[simp] theorem setGens_owner (xs : List (Nat × Dword)) (u : UView) (s : State) :
    (setGens xs u s).owner = s.owner := by
  unfold setGens; split <;> simp

@[simp] theorem deliverPending_owner (gk : Nat) (g : Gang) (p : Pending) (s : State) :
    (deliverPending gk g p s).owner = s.owner := by
  unfold deliverPending; dsimp only
  (repeat' split) <;> first | rfl | simp | exact foldl_owner (fun s x => by simp) _ _

@[simp] theorem stopGang_owner (gk : Nat) (g : Gang) (c : Cause) (s : State) :
    (stopGang gk g c s).owner = s.owner := by
  unfold stopGang
  (repeat' split) <;> first | rfl | (simp [*]; done) | (rw [foldl_owner] <;> (intros; (repeat' split) <;> first | rfl | (simp [*]; done))) | (simp (disch := (intros; (repeat' split) <;> first | rfl | (simp [*]; done))) only [*, foldl_owner]; simp [*]; done)

@[simp] theorem clearWait_owner (u : UView) (s : State) : (clearWait u s).owner = s.owner := by
  simp [clearWait]

@[simp] theorem loseLatches_owner (v : UView) (s : State) : (loseLatches v s).owner = s.owner := by
  simp [loseLatches]

@[simp] theorem lapse_owner (core k : Nat) (v : UView) (s : State) :
    (lapse core k v s).owner = s.owner := by
  simp [lapse]

@[simp] theorem lapseOn_owner (s : State) (core : Nat) : (lapseOn s core).owner = s.owner := by
  unfold lapseOn; exact foldl_owner (fun s x => by (repeat' split) <;> simp) _ _

@[simp] theorem sealDone_owner (ctx : Nat) (v : Word) (r : SealRes) (s : State) :
    (sealDone ctx v r s).owner = s.owner := by
  unfold sealDone; split <;> simp

@[simp] theorem unsealImage_owner (ctx : Nat) (v : Word) (s : State) :
    (unsealImage ctx v s).owner = s.owner := by
  simp [unsealImage]

@[simp] theorem designate_owner (die ctx idx base size wait : Nat) (s : State) :
    (designate die ctx idx base size wait s).owner = s.owner := by
  simp [designate]

@[simp] theorem nextDir_owner (ctx : Nat) (s : State) : (nextDir ctx s).owner = s.owner := by
  simp [nextDir]

@[simp] theorem writeAgeLimit_owner (ctx : Nat) (v : Word) (s : State) :
    (writeAgeLimit ctx v s).owner = s.owner := by
  unfold writeAgeLimit; exact foldl_owner (fun s x => by simp) _ _

@[simp] theorem startSec_owner (op core ctx : Nat) (node : Option Nat) (s : State) :
    (startSec op core ctx node s).owner = s.owner := by
  rfl

@[simp] theorem writeQuiesce_owner (ctx : Nat) (v : Word) (s : State) :
    (writeQuiesce ctx v s).owner = s.owner := by
  unfold writeQuiesce; (repeat' split) <;> simp

@[simp] theorem onFp_owner (u : UView) (fg : Gang → Gang) (fi : Inst → Inst) (s : State) :
    (onFp u fg fi s).owner = s.owner := by
  unfold onFp; split <;> simp

@[simp] theorem sysInvalidate_owner (u : UView) (start : State → State) (s : State) (h_start : ∀
    x0, (start x0).owner = x0.owner) :
    (sysInvalidate u start s).owner = s.owner := by
  unfold sysInvalidate
  simp (disch := (intros; (repeat' split) <;> first | rfl | simp [*])) only [foldl_owner]; (repeat' split) <;> simp [*]

@[simp] theorem secEvent_owner (op core : Nat) (s : State) :
    (secEvent op core s).owner = s.owner := by
  unfold secEvent; split <;> rfl

@[simp] theorem extendMeas_owner (i digest : Nat) (s : State) :
    (extendMeas i digest s).owner = s.owner := by
  unfold extendMeas; rfl

@[simp] theorem zeroEaves_owner (page : Nat) (s : State) : (zeroEaves page s).owner = s.owner := by
  unfold zeroEaves; exact foldl_owner (fun s x => by simp) _ _

@[simp] theorem collsEnded_owner (ctx : Nat) (s : State) : (collsEnded ctx s).owner = s.owner := by
  unfold collsEnded
  exact foldl_owner (fun s d => foldl_owner (fun s c => by split <;> simp) _ _) _ _

@[simp] theorem secSettle_owner (c : SecCmd) (status lo hi : Nat) (s : State) :
    (secSettle c status lo hi s).owner = s.owner := by
  unfold secSettle; split <;> rfl

@[simp] theorem awaitReply_owner (m : Hdr) (op : Nat) (f : HostWait → HostWait) (s : State) :
    (awaitReply m op f s).owner = s.owner := by
  rfl

@[simp] theorem putEntry_owner (msg : Option Nat) (at_ e : Nat) (s : State) :
    (putEntry msg at_ e s).owner = s.owner := by
  simp [putEntry]

@[simp] theorem setSession_owner (ses : Nat) (f : Session → Session) (s : State) :
    (setSession ses f s).owner = s.owner := by
  rfl

@[simp] theorem pieces_owner (m : Hdr) (op : Nat) (piece : Word) (bytes : List Byte) (wait : List
    Byte → Bool) (done : List Byte → State → State) (s : State) (h_done : ∀ x0 x1, (done x0
    x1).owner = x1.owner) :
    (pieces m op piece bytes wait done s).owner = s.owner := by
  unfold pieces
  simp (disch := (intros; (repeat' split) <;> first | rfl | simp [*])) only [foldl_owner]; (repeat' split) <;> simp [*]

@[simp] theorem storeFlash_owner (f : Flash) (s : State) : (storeFlash f s).owner = s.owner := by
  unfold storeFlash; rfl

@[simp] theorem touchFlash_owner (digest : Nat) (s : State) :
    (touchFlash digest s).owner = s.owner := by
  rfl

@[simp] theorem unmapPage_owner (ctx page : Nat) (msg : Option Nat) (s : State) :
    (unmapPage ctx page msg s).owner = s.owner := by
  unfold unmapPage; split <;> simp

@[simp] theorem updCtl_owner (s : State) (f : Controller → Controller) :
    (updCtl s f).owner = s.owner := by
  rfl

@[simp] theorem releaseHeld_owner (ctx ses : Nat) (s : State) :
    (releaseHeld ctx ses s).owner = s.owner := by
  rfl

@[simp] theorem bind_owner (m : Hdr) (ctx : Nat) (s : State) : (bind m ctx s).owner = s.owner := by
  rfl

@[simp] theorem openTenant_owner (m : Hdr) (eaves : BitVec 16) (lines : Nat) (s : State) :
    (openTenant m eaves lines s).owner = s.owner := by
  simp [openTenant]

@[simp] theorem tryTenant_owner (m : Hdr) (w1 w2 : Word) (s : State) :
    (tryTenant m w1 w2 s).owner = s.owner := by
  unfold tryTenant; dsimp only; (repeat' split) <;> simp

@[simp] theorem tryManagement_owner (m : Hdr) (w1 : Word) (psk : List Byte) (s : State) :
    (tryManagement m w1 psk s).owner = s.owner := by
  unfold tryManagement; split <;> simp

@[simp] theorem healthReply_owner (m : Hdr) (s : State) : (healthReply m s).owner = s.owner := by
  simp [healthReply]

@[simp] theorem fenceCore_owner (core : Nat) (s : State) : (fenceCore core s).owner = s.owner := by
  unfold fenceCore; exact foldl_owner (fun s x => by simp) _ _

@[simp] theorem remember_owner (core pipe : Nat) (ref : UnitRef) (s : State) :
    (remember core pipe ref s).owner = s.owner := by
  unfold remember; (repeat' split) <;> simp

@[simp] theorem noteIssue_owner (ref : UnitRef) (before after : State) :
    (noteIssue ref before after).owner = after.owner := by
  unfold noteIssue; split
  · split
    · rfl
    · split
      · simp
      · rfl
  · rfl

@[simp] theorem noteHold_owner (core pipe : Nat) (ref : UnitRef) (before after : State) :
    (noteHold core pipe ref before after).owner = after.owner := by
  unfold noteHold; dsimp only; (repeat' split) <;> simp

@[simp] theorem prepare_owner (core pipe : Nat) (ref : UnitRef) (s : State) :
    (prepare core pipe ref s).owner = s.owner := by
  simp [prepare]

@[simp] theorem growOlder_owner (s : State) : (growOlder s).owner = s.owner := by
  unfold growOlder
  exact foldl_owner (fun s e => foldl_owner (fun s r => by split <;> simp) _ _) _ _

@[simp] theorem tick_owner (s : State) : (tick s).owner = s.owner := by
  unfold tick; dsimp only
  split <;> simp (disch := (intros; simp)) only [foldl_owner, passTime_owner, growOlder_owner]

@[simp] theorem upset_owner (loc : Nat) (hard : Bool) (s : State) :
    (upset loc hard s).owner = s.owner := by
  rfl

@[simp] theorem upsetReg_owner (gk key : Nat) (s : State) : (upsetReg gk key s).owner = s.owner := by
  simp [upsetReg]

@[simp] theorem upsetInst_owner (id key : Nat) (s : State) :
    (upsetInst id key s).owner = s.owner := by
  simp [upsetInst]

@[simp] theorem upsetPlane_owner (core k : Nat) (s : State) :
    (upsetPlane core k s).owner = s.owner := by
  rfl

@[simp] theorem upsetLine_owner (ctx line num word : Nat) (s : State) :
    (upsetLine ctx line num word s).owner = s.owner := by
  simp [upsetLine]

@[simp] theorem upsetRow_owner (core row : Nat) (s : State) :
    (upsetRow core row s).owner = s.owner := by
  rfl

@[simp] theorem upsetFlash_owner (digest : Nat) (s : State) :
    (upsetFlash digest s).owner = s.owner := by
  rfl

@[simp] theorem placeWord_owner (w : Word) (s : State) : (placeWord w s).owner = s.owner := by
  simp [placeWord]

@[simp] theorem placeNext_owner (w : Word) (s : State) : (placeNext w s).owner = s.owner := by
  unfold placeNext; split <;> simp

@[simp] theorem State_withFetchWord_owner (s : State) (_nbits w : Nat) :
    (State.withFetchWord s _nbits w).owner = s.owner := by
  simp [State.withFetchWord]

end Sys2Proof.Machine
end

