-- ==== Sys2Proof/Laws/KeepForm.lean ====
section
/-!
SUPPORT. The operations that write memory or the owners of granules keep the canonical form of both.
-/
namespace Sys2Proof.Machine

theorem foldl_memWf {α : Type} {f : State → α → State}
    (h : ∀ s x, memWf s.mem = true → memWf (f s x).mem = true) (l : List α) (s : State)
    (hs : memWf s.mem = true) : memWf (l.foldl f s).mem = true := by
  induction l generalizing s with
  | nil => exact hs
  | cons x l ih => exact ih _ (h _ _ hs)

theorem applyOwn_memWf (d key ek : Nat) (bytes : List (Nat × Byte)) (s : State)
    (h : memWf s.mem = true) : memWf (applyOwn d key ek bytes s).mem = true :=
  writeBytes_memWf _ _ (by simpa using h)

theorem take_memWf (w : Pub) (s : State) (h : memWf s.mem = true) :
    memWf (take w s).mem = true :=
  writeBytes_memWf _ _ (by simpa using h)

theorem originate_memWf (d : Nat) (bytes : List (Nat × Byte)) (o : Origin) (s : State)
    (h : memWf s.mem = true) : memWf (originate d bytes o s).mem = true := 
  writeBytes_memWf _ _ (by simpa using h)

theorem storeSpot_memWf (p : Spot) (bs : List Byte) (s : State) (h : memWf s.mem = true) :
    memWf (storeSpot p bs s).mem = true := by
  unfold storeSpot
  split <;> first | exact h | exact writeBytes_memWf _ _ (by simpa using h)

theorem atomSpot_memWf (op : AccOp) (p : Spot) (s : State) (h : memWf s.mem = true) :
    memWf (atomSpot op p s).2.mem = true :=
  storeSpot_memWf p _ s h

theorem storeSpotMask_memWf (p : Spot) (bs : List Byte) (m : Nat → Bool) (s : State)
    (h : memWf s.mem = true) : memWf (storeSpot p bs s m).mem = true := by
  unfold storeSpot
  split <;> first | exact h | exact writeBytes_memWf _ _ (by simpa using h)

theorem performStore_memWf (a : Agent) (x : Access) (p : Spot) (s : State) (h : memWf s.mem = true) :
    memWf (performStore a x p s).mem = true := by
  unfold performStore; dsimp only
  (repeat' split) <;> first | exact h | exact storeSpotMask_memWf _ _ _ _ h

theorem performStores_memWf (a : Agent) (xs : List (Access × Spot)) (s : State)
    (h : memWf s.mem = true) : memWf (performStores a xs s).mem = true :=
  foldl_memWf (fun s e h => performStore_memWf a e.1 e.2 s h) _ _ h

theorem performAtoms_memWf (a : Agent) (entry k : Nat) (xs : List (Access × Spot)) (s : State)
    (h : memWf s.mem = true) : memWf (performAtoms a entry k xs s).2.mem = true := by
  induction xs generalizing k s with
  | nil => exact h
  | cons e l ih =>
    obtain ⟨x, p⟩ := e
    unfold performAtoms
    split
    · exact ih _ _ (by simpa using h)
    · exact ih _ _ (atomSpot_memWf _ _ _ h)

theorem performReds_memWf (a : Agent) (xs : List (Access × Spot)) (s : State)
    (h : memWf s.mem = true) : memWf (performReds a xs s).mem = true := by
  refine foldl_memWf (fun s e h => ?_) _ _ h
  split
  · simpa using h
  · exact atomSpot_memWf _ _ _ h

theorem performAll_memWf (a : Agent) (entry : Nat) (xs : List (Access × Spot)) (s : State)
    (h : memWf s.mem = true) : memWf (performAll a entry xs s).2.mem = true := by
  unfold performAll
  split
  · exact h
  · split
    · exact h
    · exact h
    · exact performStores_memWf _ _ _ h
    · exact performAtoms_memWf _ _ _ _ _ h
    · exact performReds_memWf _ _ _ h

theorem accPerform_memWf (p : AccPlan) (xs : List (Access × Spot)) (u : UView) (acts : List Nat) (s : State)
    (h : memWf s.mem = true) : memWf (accPerform p xs u acts s).mem = true := by
  unfold accPerform; dsimp only
  split
  · exact h
  · have hp := performAll_memWf (agentOf u) s.next xs (taken (if p.holds then s else defersNext s))
      (by split <;> simpa using h)
    generalize performAll (agentOf u) s.next xs (taken (if p.holds then s else defersNext s)) = r at hp ⊢
    split <;> simpa using hp

theorem accRetire_memWf (p : AccPlan) (rs : List (Access × AccRes)) (fin : State → State) (u : UView)
    (acts : List Nat) (s : State) (hf : ∀ s, (fin s).mem = s.mem) (h : memWf s.mem = true) :
    memWf (accRetire p rs fin u acts s).mem = true := by
  unfold accRetire; dsimp only
  split
  · simpa using h
  · rw [hf]
    exact accPerform_memWf _ _ _ _ _ (foldl_memWf (fun s x h => by simpa using h) _ _ h)

theorem accGo_memWf (p : AccPlan) (rs : List (Access × AccRes)) (fin : State → State) (u : UView)
    (acts : List Nat) (s : State) (hf : ∀ s, (fin s).mem = s.mem) (h : memWf s.mem = true) :
    memWf (accGo p rs fin u acts s).mem = true := by
  unfold accGo; dsimp only
  (repeat' split) <;> first
    | simpa [hf] using h
    | exact accRetire_memWf _ _ _ _ _ _ hf h
    | (rw [hf]; exact accPerform_memWf _ _ _ _ _ h)

theorem access_memWf (p : AccPlan) (xs : List Access) (u : UView) (acts : List Nat) (s : State)
    (h : memWf s.mem = true) : memWf (access p xs u acts s).mem = true := by
  unfold access; dsimp only
  split
  · exact accGo_memWf _ _ _ _ _ _ (fun s => by simp) h
  · split
    · simpa using h
    · exact accGo_memWf _ _ _ _ _ _ (fun s => by simp) (by simpa using h)

theorem performWrites_memWf (e : QEntry) (xs : List Access) (s : State) (h : memWf s.mem = true) :
    memWf (performWrites e xs s).mem = true := by
  unfold performWrites; dsimp only
  (repeat' split) <;> first
    | simpa using h
    | (rw [closeLanes_mem]; exact performAll_memWf _ _ _ _ (foldl_memWf (fun s x h => by simpa using h) _ _ h))

theorem landAt_memWf (core p : Nat) (c : XCmd) (q : Spot) (bs : List (Nat × Byte)) (s : State)
    (h : memWf s.mem = true) : memWf (landAt core p c q bs s).mem = true := by
  unfold landAt
  split
  · exact originate_memWf _ _ _ _ h
  all_goals first | exact writeBytes_memWf _ _ (by simpa using h) | simpa using h

theorem landAdd_memWf (core p : Nat) (c : XCmd) (q : Spot) (addend : Word) (addr : Dword) (s : State)
    (h : memWf s.mem = true) : memWf (landAdd core p c q addend addr s).mem = true := by
  unfold landAdd; dsimp only
  (repeat' split) <;> first
    | simpa using h
    | (rw [countCmd_mem]; exact atomSpot_memWf _ _ _ h)

theorem landWord_memWf (core p : Nat) (c : XCmd) (dst : Nat) (w : XWord) (s : State)
    (h : memWf s.mem = true) : memWf (landWord core p c dst w s).mem = true := by
  unfold landWord; dsimp only
  (repeat' split) <;> first
    | simpa using h
    | exact landAdd_memWf _ _ _ _ _ _ _ (by simpa using h)
    | (simp only [updCmd_mem, countCmd_mem]; exact landAt_memWf _ _ _ _ _ _ (by simpa using h))

theorem foldl_ownerWf {α : Type} {f : State → α → State}
    (h : ∀ s x, swf 0 s.owner = true → swf 0 (f s x).owner = true) (l : List α) (s : State)
    (hs : swf 0 s.owner = true) : swf 0 (l.foldl f s).owner = true := by
  induction l generalizing s with
  | nil => exact hs
  | cons x l ih => exact ih _ (h _ _ hs)

theorem setOwner_ownerWf (core base size v : Nat) (s : State) (h : swf 0 s.owner = true) :
    swf 0 (setOwner core base size v s).owner = true :=
  ssets_swf 0 _ _ h

theorem startRewrite_memWf (ctx core idx : Nat) (zero : Bool) (s : State)
    (h : memWf s.mem = true) : memWf (startRewrite ctx core idx zero s).mem = true := by
  unfold startRewrite; dsimp only
  rw [updTag_mem]
  split
  · exact zeroRange_memWf _ _ _ h
  · exact h

theorem renew_memWf (ctx core idx : Nat) (zero : Bool) (s : State) (h : memWf s.mem = true) :
    memWf (renew ctx core idx zero s).mem = true := by
  unfold renew
  split
  · simpa using h
  · exact startRewrite_memWf _ _ _ _ _ h

theorem allocBuffer_memWf (ctx core idx run size life : Nat) (s : State) (h : memWf s.mem = true) :
    memWf (allocBuffer ctx core idx run size life s).mem = true :=
  startRewrite_memWf _ _ _ _ _ (by simpa [setOwner] using h)

@[simp] theorem startRewrite_owner (ctx core idx : Nat) (zero : Bool) (s : State) :
    (startRewrite ctx core idx zero s).owner = s.owner := by
  unfold startRewrite; dsimp only
  rw [updTag_owner]; split <;> simp

@[simp] theorem renew_owner (ctx core idx : Nat) (zero : Bool) (s : State) :
    (renew ctx core idx zero s).owner = s.owner := by
  unfold renew; split <;> simp

theorem allocBuffer_ownerWf (ctx core idx run size life : Nat) (s : State)
    (h : swf 0 s.owner = true) : swf 0 (allocBuffer ctx core idx run size life s).owner = true := by
  unfold allocBuffer; dsimp only
  rw [startRewrite_owner]
  exact setOwner_ownerWf _ _ _ _ _ (by simpa using h)

theorem freeBuffer_ownerWf (ctx core idx : Nat) (s : State) (h : swf 0 s.owner = true) :
    swf 0 (freeBuffer ctx core idx s).owner = true := by
  unfold freeBuffer; dsimp only
  rw [updTag_owner]
  exact setOwner_ownerWf _ _ _ _ _ h

theorem dropBuffers_memWf (wipe : Bool) (ctx core : Nat) (s : State) (h : memWf s.mem = true) :
    memWf (dropBuffers wipe ctx core s).mem = true := by
  unfold dropBuffers
  refine foldl_memWf (fun s e h => ?_) _ _ h
  split
  · rw [setOwner_mem]
    split
    · exact zeroRange_memWf _ _ _ h
    · exact h
  · exact h

theorem dropBuffers_ownerWf (wipe : Bool) (ctx core : Nat) (s : State) (h : swf 0 s.owner = true) :
    swf 0 (dropBuffers wipe ctx core s).owner = true := by
  unfold dropBuffers
  refine foldl_ownerWf (fun s e h => ?_) _ _ h
  split
  · exact setOwner_ownerWf _ _ _ _ _ (by split <;> simpa using h)
  · exact h

theorem zeroEaves_memWf (page : Nat) (s : State) (h : memWf s.mem = true) :
    memWf (zeroEaves page s).mem = true :=
  foldl_memWf (fun s _ h => zeroRange_memWf _ _ s h) _ _ h

theorem movePage_memWf (ctx core idx page : Nat) (s : State) (h : memWf s.mem = true) :
    memWf (movePage ctx core idx page s).mem = true := by
  unfold movePage; dsimp only
  split
  · exact h
  · split
    · simpa using h
    · split
      · simpa using h
      · split
        · split
          · exact originate_memWf _ _ _ _ (by simpa using h)
          · rw [raiseDetached_mem, markBad_mem]
            exact originate_memWf _ _ _ _ (by simpa using h)
        · split
          · exact writeBytes_memWf _ _ (by simpa using h)
          · rw [raiseDetached_mem, markBad_mem]
            exact writeBytes_memWf _ _ (by simpa using h)

theorem markEntry_memWf (die at_ entry acc : Nat) (s : State) (h : memWf s.mem = true) :
    memWf (markEntry die at_ entry acc s).mem = true := by
  unfold markEntry; dsimp only
  (repeat' split) <;> first | exact h | exact originate_memWf _ _ _ _ h

theorem placeWord_memWf (w : Word) (s : State) (h : memWf s.mem = true) :
    memWf (placeWord w s).mem = true :=
  writeBytes_memWf _ _ (by simpa using h)

end Sys2Proof.Machine
end

