-- ==== Sys2Proof/Laws/PerInstr.lean ====
section
/-!
SUPPORT. Statements made per instruction, one lemma for each constructor of `Instr`.

`RoundTrip`: the word that the encoder gives a well-formed instruction decodes to that instruction, with
every operand, by the decoder of the compute pipes or by that of a copy processor; a step of the module
that is no word has none.
-/
namespace Sys2Proof.Laws

/-- Encoding and decoding agree on one instruction. -/
def RoundTrip.Statement (i : Instr) : Prop :=
  i.wf = true → ∀ w, encode i = some w → decodeCompute w = .ok i ∨ decodeXp w = .ok i

theorem RoundTrip.iaddA p o : RoundTrip.Statement (.iaddA p o) := by
  intro _ w e
  cases e
  left
  rw [decode_encA_shared _ _ _ _ _ _ _ _ (by decide)]
  change Except.ok (Instr.iaddA p (rO3 _)) = _
  rw [rO3_encA]

theorem RoundTrip.iaddI p o : RoundTrip.Statement (.iaddI p o) := by
  intro _ w e
  cases e
  left
  rw [decode_encA_shared _ _ _ _ _ _ _ _ (by decide)]
  change Except.ok (Instr.iaddI p (rO3 _)) = _
  rw [rO3_encA]

theorem RoundTrip.isubA p o : RoundTrip.Statement (.isubA p o) := by
  intro _ w e
  cases e
  left
  rw [decode_encA_shared _ _ _ _ _ _ _ _ (by decide)]
  change Except.ok (Instr.isubA p (rO3 _)) = _
  rw [rO3_encA]

theorem RoundTrip.isubI p o : RoundTrip.Statement (.isubI p o) := by
  intro _ w e
  cases e
  left
  rw [decode_encA_shared _ _ _ _ _ _ _ _ (by decide)]
  change Except.ok (Instr.isubI p (rO3 _)) = _
  rw [rO3_encA]

theorem RoundTrip.imulA p o : RoundTrip.Statement (.imulA p o) := by
  intro _ w e
  cases e
  left
  rw [decode_encA_shared _ _ _ _ _ _ _ _ (by decide)]
  change Except.ok (Instr.imulA p (rO3 _)) = _
  rw [rO3_encA]

theorem RoundTrip.imulI p o : RoundTrip.Statement (.imulI p o) := by
  intro _ w e
  cases e
  left
  rw [decode_encA_shared _ _ _ _ _ _ _ _ (by decide)]
  change Except.ok (Instr.imulI p (rO3 _)) = _
  rw [rO3_encA]

theorem RoundTrip.imulhS32 p o : RoundTrip.Statement (.imulhS32 p o) := by
  intro _ w e
  cases e
  left
  rw [decode_encA_shared _ _ _ _ _ _ _ _ (by decide)]
  change Except.ok (Instr.imulhS32 p (rO3 _)) = _
  rw [rO3_encA]

theorem RoundTrip.imulhN32 p o : RoundTrip.Statement (.imulhN32 p o) := by
  intro _ w e
  cases e
  left
  rw [decode_encA_shared _ _ _ _ _ _ _ _ (by decide)]
  change Except.ok (Instr.imulhN32 p (rO3 _)) = _
  rw [rO3_encA]

theorem RoundTrip.imad p o : RoundTrip.Statement (.imad p o) := by
  intro _ w e
  cases e
  left
  rw [decode_encA_shared _ _ _ _ _ _ _ _ (by decide)]
  change Except.ok (Instr.imad p (rO3 _)) = _
  rw [rO3_encA]

theorem RoundTrip.iaddSatS32 p o : RoundTrip.Statement (.iaddSatS32 p o) := by
  intro _ w e
  cases e
  left
  rw [decode_encA_shared _ _ _ _ _ _ _ _ (by decide)]
  change Except.ok (Instr.iaddSatS32 p (rO3 _)) = _
  rw [rO3_encA]

theorem RoundTrip.iaddSatN32 p o : RoundTrip.Statement (.iaddSatN32 p o) := by
  intro _ w e
  cases e
  left
  rw [decode_encA_shared _ _ _ _ _ _ _ _ (by decide)]
  change Except.ok (Instr.iaddSatN32 p (rO3 _)) = _
  rw [rO3_encA]

theorem RoundTrip.isubSatS32 p o : RoundTrip.Statement (.isubSatS32 p o) := by
  intro _ w e
  cases e
  left
  rw [decode_encA_shared _ _ _ _ _ _ _ _ (by decide)]
  change Except.ok (Instr.isubSatS32 p (rO3 _)) = _
  rw [rO3_encA]

theorem RoundTrip.isubSatN32 p o : RoundTrip.Statement (.isubSatN32 p o) := by
  intro _ w e
  cases e
  left
  rw [decode_encA_shared _ _ _ _ _ _ _ _ (by decide)]
  change Except.ok (Instr.isubSatN32 p (rO3 _)) = _
  rw [rO3_encA]

theorem RoundTrip.iminS32 p o : RoundTrip.Statement (.iminS32 p o) := by
  intro _ w e
  cases e
  left
  rw [decode_encA_shared _ _ _ _ _ _ _ _ (by decide)]
  change Except.ok (Instr.iminS32 p (rO3 _)) = _
  rw [rO3_encA]

theorem RoundTrip.iminN32 p o : RoundTrip.Statement (.iminN32 p o) := by
  intro _ w e
  cases e
  left
  rw [decode_encA_shared _ _ _ _ _ _ _ _ (by decide)]
  change Except.ok (Instr.iminN32 p (rO3 _)) = _
  rw [rO3_encA]

theorem RoundTrip.imaxS32 p o : RoundTrip.Statement (.imaxS32 p o) := by
  intro _ w e
  cases e
  left
  rw [decode_encA_shared _ _ _ _ _ _ _ _ (by decide)]
  change Except.ok (Instr.imaxS32 p (rO3 _)) = _
  rw [rO3_encA]

theorem RoundTrip.imaxN32 p o : RoundTrip.Statement (.imaxN32 p o) := by
  intro _ w e
  cases e
  left
  rw [decode_encA_shared _ _ _ _ _ _ _ _ (by decide)]
  change Except.ok (Instr.imaxN32 p (rO3 _)) = _
  rw [rO3_encA]

theorem RoundTrip.iabs p o : RoundTrip.Statement (.iabs p o) := by
  intro _ w e
  cases e
  left
  rw [decode_encA_shared _ _ _ _ _ _ _ _ (by decide)]
  refine (need_ok ?_).trans ?_
  · rw [fB_encA]
    rfl
  · change Except.ok (Instr.iabs p (rO2 _)) = _
    rw [rO2_encA]

theorem RoundTrip.iabsSat p o : RoundTrip.Statement (.iabsSat p o) := by
  intro _ w e
  cases e
  left
  rw [decode_encA_shared _ _ _ _ _ _ _ _ (by decide)]
  refine (need_ok ?_).trans ?_
  · rw [fB_encA]
    rfl
  · change Except.ok (Instr.iabsSat p (rO2 _)) = _
    rw [rO2_encA]

theorem RoundTrip.andA p o : RoundTrip.Statement (.andA p o) := by
  intro _ w e
  cases e
  left
  rw [decode_encA_shared _ _ _ _ _ _ _ _ (by decide)]
  change Except.ok (Instr.andA p (rO3 _)) = _
  rw [rO3_encA]

theorem RoundTrip.orB p o : RoundTrip.Statement (.orB p o) := by
  intro _ w e
  cases e
  left
  rw [decode_encA_shared _ _ _ _ _ _ _ _ (by decide)]
  change Except.ok (Instr.orB p (rO3 _)) = _
  rw [rO3_encA]

theorem RoundTrip.xorB p o : RoundTrip.Statement (.xorB p o) := by
  intro _ w e
  cases e
  left
  rw [decode_encA_shared _ _ _ _ _ _ _ _ (by decide)]
  change Except.ok (Instr.xorB p (rO3 _)) = _
  rw [rO3_encA]

theorem RoundTrip.andn p o : RoundTrip.Statement (.andn p o) := by
  intro _ w e
  cases e
  left
  rw [decode_encA_shared _ _ _ _ _ _ _ _ (by decide)]
  change Except.ok (Instr.andn p (rO3 _)) = _
  rw [rO3_encA]

theorem RoundTrip.andI p o : RoundTrip.Statement (.andI p o) := by
  intro _ w e
  cases e
  left
  rw [decode_encA_shared _ _ _ _ _ _ _ _ (by decide)]
  change Except.ok (Instr.andI p (rO3 _)) = _
  rw [rO3_encA]

theorem RoundTrip.shlA p o : RoundTrip.Statement (.shlA p o) := by
  intro _ w e
  cases e
  left
  rw [decode_encA_shared _ _ _ _ _ _ _ _ (by decide)]
  change Except.ok (Instr.shlA p (rO3 _)) = _
  rw [rO3_encA]

theorem RoundTrip.shlI p o : RoundTrip.Statement (.shlI p o) := by
  intro _ w e
  cases e
  left
  rw [decode_encA_shared _ _ _ _ _ _ _ _ (by decide)]
  change Except.ok (Instr.shlI p (rO3 _)) = _
  rw [rO3_encA]

theorem RoundTrip.shrA p o : RoundTrip.Statement (.shrA p o) := by
  intro _ w e
  cases e
  left
  rw [decode_encA_shared _ _ _ _ _ _ _ _ (by decide)]
  change Except.ok (Instr.shrA p (rO3 _)) = _
  rw [rO3_encA]

theorem RoundTrip.shrI p o : RoundTrip.Statement (.shrI p o) := by
  intro _ w e
  cases e
  left
  rw [decode_encA_shared _ _ _ _ _ _ _ _ (by decide)]
  change Except.ok (Instr.shrI p (rO3 _)) = _
  rw [rO3_encA]

theorem RoundTrip.sarA p o : RoundTrip.Statement (.sarA p o) := by
  intro _ w e
  cases e
  left
  rw [decode_encA_shared _ _ _ _ _ _ _ _ (by decide)]
  change Except.ok (Instr.sarA p (rO3 _)) = _
  rw [rO3_encA]

theorem RoundTrip.sarI p o : RoundTrip.Statement (.sarI p o) := by
  intro _ w e
  cases e
  left
  rw [decode_encA_shared _ _ _ _ _ _ _ _ (by decide)]
  change Except.ok (Instr.sarI p (rO3 _)) = _
  rw [rO3_encA]

theorem RoundTrip.rotA p o : RoundTrip.Statement (.rotA p o) := by
  intro _ w e
  cases e
  left
  rw [decode_encA_shared _ _ _ _ _ _ _ _ (by decide)]
  change Except.ok (Instr.rotA p (rO3 _)) = _
  rw [rO3_encA]

theorem RoundTrip.rotI p o : RoundTrip.Statement (.rotI p o) := by
  intro _ w e
  cases e
  left
  rw [decode_encA_shared _ _ _ _ _ _ _ _ (by decide)]
  change Except.ok (Instr.rotI p (rO3 _)) = _
  rw [rO3_encA]

theorem RoundTrip.bfxN32 p o : RoundTrip.Statement (.bfxN32 p o) := by
  intro _ w e
  cases e
  left
  rw [decode_encA_shared _ _ _ _ _ _ _ _ (by decide)]
  change Except.ok (Instr.bfxN32 p (rO3 _)) = _
  rw [rO3_encA]

theorem RoundTrip.bfxS32 p o : RoundTrip.Statement (.bfxS32 p o) := by
  intro _ w e
  cases e
  left
  rw [decode_encA_shared _ _ _ _ _ _ _ _ (by decide)]
  change Except.ok (Instr.bfxS32 p (rO3 _)) = _
  rw [rO3_encA]

theorem RoundTrip.bfi p o : RoundTrip.Statement (.bfi p o) := by
  intro _ w e
  cases e
  left
  rw [decode_encA_shared _ _ _ _ _ _ _ _ (by decide)]
  change Except.ok (Instr.bfi p (rO3 _)) = _
  rw [rO3_encA]

theorem RoundTrip.popc p o : RoundTrip.Statement (.popc p o) := by
  intro _ w e
  cases e
  left
  rw [decode_encA_shared _ _ _ _ _ _ _ _ (by decide)]
  refine (need_ok ?_).trans ?_
  · rw [fB_encA]
    rfl
  · change Except.ok (Instr.popc p (rO2 _)) = _
    rw [rO2_encA]

theorem RoundTrip.clz p o : RoundTrip.Statement (.clz p o) := by
  intro _ w e
  cases e
  left
  rw [decode_encA_shared _ _ _ _ _ _ _ _ (by decide)]
  refine (need_ok ?_).trans ?_
  · rw [fB_encA]
    rfl
  · change Except.ok (Instr.clz p (rO2 _)) = _
    rw [rO2_encA]

theorem RoundTrip.brev p o : RoundTrip.Statement (.brev p o) := by
  intro _ w e
  cases e
  left
  rw [decode_encA_shared _ _ _ _ _ _ _ _ (by decide)]
  refine (need_ok ?_).trans ?_
  · rw [fB_encA]
    rfl
  · change Except.ok (Instr.brev p (rO2 _)) = _
    rw [rO2_encA]

theorem RoundTrip.mov p o : RoundTrip.Statement (.mov p o) := by
  intro _ w e
  cases e
  left
  rw [decode_encA_shared _ _ _ _ _ _ _ _ (by decide)]
  refine (need_ok ?_).trans ?_
  · rw [fB_encA]
    rfl
  · change Except.ok (Instr.mov p (rO2 _)) = _
    rw [rO2_encA]

theorem RoundTrip.lea p o : RoundTrip.Statement (.lea p o) := by
  intro _ w e
  cases e
  left
  rw [decode_encA_shared _ _ _ _ _ _ _ _ (by decide)]
  refine (need_ok ?_).trans ?_
  · rw [fW_encA]
    rfl
  · change Except.ok (Instr.lea p (rO3n _)) = _
    rw [rO3n_encA]

theorem RoundTrip.icmpEq p o : RoundTrip.Statement (.icmpEq p o) := by
  intro _ w e
  cases e
  left
  rw [decode_encA_shared _ _ _ _ _ _ _ _ (by decide)]
  change Except.ok (Instr.icmpEq p (rO3 _)) = _
  rw [rO3_encA]

theorem RoundTrip.icmpNe p o : RoundTrip.Statement (.icmpNe p o) := by
  intro _ w e
  cases e
  left
  rw [decode_encA_shared _ _ _ _ _ _ _ _ (by decide)]
  change Except.ok (Instr.icmpNe p (rO3 _)) = _
  rw [rO3_encA]

theorem RoundTrip.icmpLtS32 p o : RoundTrip.Statement (.icmpLtS32 p o) := by
  intro _ w e
  cases e
  left
  rw [decode_encA_shared _ _ _ _ _ _ _ _ (by decide)]
  change Except.ok (Instr.icmpLtS32 p (rO3 _)) = _
  rw [rO3_encA]

theorem RoundTrip.icmpLeS32 p o : RoundTrip.Statement (.icmpLeS32 p o) := by
  intro _ w e
  cases e
  left
  rw [decode_encA_shared _ _ _ _ _ _ _ _ (by decide)]
  change Except.ok (Instr.icmpLeS32 p (rO3 _)) = _
  rw [rO3_encA]

theorem RoundTrip.icmpGtS32 p o : RoundTrip.Statement (.icmpGtS32 p o) := by
  intro _ w e
  cases e
  left
  rw [decode_encA_shared _ _ _ _ _ _ _ _ (by decide)]
  change Except.ok (Instr.icmpGtS32 p (rO3 _)) = _
  rw [rO3_encA]

theorem RoundTrip.icmpGeS32 p o : RoundTrip.Statement (.icmpGeS32 p o) := by
  intro _ w e
  cases e
  left
  rw [decode_encA_shared _ _ _ _ _ _ _ _ (by decide)]
  change Except.ok (Instr.icmpGeS32 p (rO3 _)) = _
  rw [rO3_encA]

theorem RoundTrip.icmpLtN32 p o : RoundTrip.Statement (.icmpLtN32 p o) := by
  intro _ w e
  cases e
  left
  rw [decode_encA_shared _ _ _ _ _ _ _ _ (by decide)]
  change Except.ok (Instr.icmpLtN32 p (rO3 _)) = _
  rw [rO3_encA]

theorem RoundTrip.icmpLeN32 p o : RoundTrip.Statement (.icmpLeN32 p o) := by
  intro _ w e
  cases e
  left
  rw [decode_encA_shared _ _ _ _ _ _ _ _ (by decide)]
  change Except.ok (Instr.icmpLeN32 p (rO3 _)) = _
  rw [rO3_encA]

theorem RoundTrip.sel p o : RoundTrip.Statement (.sel p o) := by
  intro _ w e
  cases e
  left
  rw [decode_encA_shared _ _ _ _ _ _ _ _ (by decide)]
  change Except.ok (Instr.sel p (rO3 _)) = _
  rw [rO3_encA]

theorem RoundTrip.icmpGtN32 p o : RoundTrip.Statement (.icmpGtN32 p o) := by
  intro _ w e
  cases e
  left
  rw [decode_encA_shared _ _ _ _ _ _ _ _ (by decide)]
  change Except.ok (Instr.icmpGtN32 p (rO3 _)) = _
  rw [rO3_encA]

theorem RoundTrip.icmpGeN32 p o : RoundTrip.Statement (.icmpGeN32 p o) := by
  intro _ w e
  cases e
  left
  rw [decode_encA_shared _ _ _ _ _ _ _ _ (by decide)]
  change Except.ok (Instr.icmpGeN32 p (rO3 _)) = _
  rw [rO3_encA]

theorem RoundTrip.iaddSatS16 p o : RoundTrip.Statement (.iaddSatS16 p o) := by
  intro _ w e
  cases e
  left
  rw [decode_encA_shared _ _ _ _ _ _ _ _ (by decide)]
  change Except.ok (Instr.iaddSatS16 p (rO3 _)) = _
  rw [rO3_encA]

theorem RoundTrip.iaddSatN16 p o : RoundTrip.Statement (.iaddSatN16 p o) := by
  intro _ w e
  cases e
  left
  rw [decode_encA_shared _ _ _ _ _ _ _ _ (by decide)]
  change Except.ok (Instr.iaddSatN16 p (rO3 _)) = _
  rw [rO3_encA]

theorem RoundTrip.isubSatS16 p o : RoundTrip.Statement (.isubSatS16 p o) := by
  intro _ w e
  cases e
  left
  rw [decode_encA_shared _ _ _ _ _ _ _ _ (by decide)]
  change Except.ok (Instr.isubSatS16 p (rO3 _)) = _
  rw [rO3_encA]

theorem RoundTrip.isubSatN16 p o : RoundTrip.Statement (.isubSatN16 p o) := by
  intro _ w e
  cases e
  left
  rw [decode_encA_shared _ _ _ _ _ _ _ _ (by decide)]
  change Except.ok (Instr.isubSatN16 p (rO3 _)) = _
  rw [rO3_encA]

theorem RoundTrip.iaddS16 p o : RoundTrip.Statement (.iaddS16 p o) := by
  intro _ w e
  cases e
  left
  rw [decode_encA_shared _ _ _ _ _ _ _ _ (by decide)]
  change Except.ok (Instr.iaddS16 p (rO3 _)) = _
  rw [rO3_encA]

theorem RoundTrip.iaddN16 p o : RoundTrip.Statement (.iaddN16 p o) := by
  intro _ w e
  cases e
  left
  rw [decode_encA_shared _ _ _ _ _ _ _ _ (by decide)]
  change Except.ok (Instr.iaddN16 p (rO3 _)) = _
  rw [rO3_encA]

theorem RoundTrip.isubS16 p o : RoundTrip.Statement (.isubS16 p o) := by
  intro _ w e
  cases e
  left
  rw [decode_encA_shared _ _ _ _ _ _ _ _ (by decide)]
  change Except.ok (Instr.isubS16 p (rO3 _)) = _
  rw [rO3_encA]

theorem RoundTrip.isubN16 p o : RoundTrip.Statement (.isubN16 p o) := by
  intro _ w e
  cases e
  left
  rw [decode_encA_shared _ _ _ _ _ _ _ _ (by decide)]
  change Except.ok (Instr.isubN16 p (rO3 _)) = _
  rw [rO3_encA]

theorem RoundTrip.imulS16 p o : RoundTrip.Statement (.imulS16 p o) := by
  intro _ w e
  cases e
  left
  rw [decode_encA_shared _ _ _ _ _ _ _ _ (by decide)]
  change Except.ok (Instr.imulS16 p (rO3 _)) = _
  rw [rO3_encA]

theorem RoundTrip.imulN16 p o : RoundTrip.Statement (.imulN16 p o) := by
  intro _ w e
  cases e
  left
  rw [decode_encA_shared _ _ _ _ _ _ _ _ (by decide)]
  change Except.ok (Instr.imulN16 p (rO3 _)) = _
  rw [rO3_encA]

theorem RoundTrip.imulSat p o : RoundTrip.Statement (.imulSat p o) := by
  intro _ w e
  cases e
  left
  rw [decode_encA_shared _ _ _ _ _ _ _ _ (by decide)]
  change Except.ok (Instr.imulSat p (rO3 _)) = _
  rw [rO3_encA]

theorem RoundTrip.movl p d m : RoundTrip.Statement (.movl p d m) := by
  intro _ w e
  cases e
  left
  exact decode_encW p d m false

theorem RoundTrip.movh p d m : RoundTrip.Statement (.movh p d m) := by
  intro _ w e
  cases e
  left
  exact decode_encW p d m true

theorem RoundTrip.faddF32 o : RoundTrip.Statement (.faddF32 o) := by
  intro _ w e
  cases e
  left
  rw [decode_encA_lane _ _ _ _ _ _ _ (by decide)]
  change Except.ok (Instr.faddF32 (rO3 _)) = _
  rw [rO3_encA]

theorem RoundTrip.fsubF32 o : RoundTrip.Statement (.fsubF32 o) := by
  intro _ w e
  cases e
  left
  rw [decode_encA_lane _ _ _ _ _ _ _ (by decide)]
  change Except.ok (Instr.fsubF32 (rO3 _)) = _
  rw [rO3_encA]

theorem RoundTrip.fmulF32 o : RoundTrip.Statement (.fmulF32 o) := by
  intro _ w e
  cases e
  left
  rw [decode_encA_lane _ _ _ _ _ _ _ (by decide)]
  change Except.ok (Instr.fmulF32 (rO3 _)) = _
  rw [rO3_encA]

theorem RoundTrip.ffmaF32 o : RoundTrip.Statement (.ffmaF32 o) := by
  intro _ w e
  cases e
  left
  rw [decode_encA_lane _ _ _ _ _ _ _ (by decide)]
  change Except.ok (Instr.ffmaF32 (rO3 _)) = _
  rw [rO3_encA]

theorem RoundTrip.fminF32 o : RoundTrip.Statement (.fminF32 o) := by
  intro _ w e
  cases e
  left
  rw [decode_encA_lane _ _ _ _ _ _ _ (by decide)]
  change Except.ok (Instr.fminF32 (rO3 _)) = _
  rw [rO3_encA]

theorem RoundTrip.fmaxF32 o : RoundTrip.Statement (.fmaxF32 o) := by
  intro _ w e
  cases e
  left
  rw [decode_encA_lane _ _ _ _ _ _ _ (by decide)]
  change Except.ok (Instr.fmaxF32 (rO3 _)) = _
  rw [rO3_encA]

theorem RoundTrip.faddF16 o : RoundTrip.Statement (.faddF16 o) := by
  intro _ w e
  cases e
  left
  rw [decode_encA_lane _ _ _ _ _ _ _ (by decide)]
  change Except.ok (Instr.faddF16 (rO3 _)) = _
  rw [rO3_encA]

theorem RoundTrip.fsubF16 o : RoundTrip.Statement (.fsubF16 o) := by
  intro _ w e
  cases e
  left
  rw [decode_encA_lane _ _ _ _ _ _ _ (by decide)]
  change Except.ok (Instr.fsubF16 (rO3 _)) = _
  rw [rO3_encA]

theorem RoundTrip.fmulF16 o : RoundTrip.Statement (.fmulF16 o) := by
  intro _ w e
  cases e
  left
  rw [decode_encA_lane _ _ _ _ _ _ _ (by decide)]
  change Except.ok (Instr.fmulF16 (rO3 _)) = _
  rw [rO3_encA]

theorem RoundTrip.ffmaF16 o : RoundTrip.Statement (.ffmaF16 o) := by
  intro _ w e
  cases e
  left
  rw [decode_encA_lane _ _ _ _ _ _ _ (by decide)]
  change Except.ok (Instr.ffmaF16 (rO3 _)) = _
  rw [rO3_encA]

theorem RoundTrip.fminF16 o : RoundTrip.Statement (.fminF16 o) := by
  intro _ w e
  cases e
  left
  rw [decode_encA_lane _ _ _ _ _ _ _ (by decide)]
  change Except.ok (Instr.fminF16 (rO3 _)) = _
  rw [rO3_encA]

theorem RoundTrip.fmaxF16 o : RoundTrip.Statement (.fmaxF16 o) := by
  intro _ w e
  cases e
  left
  rw [decode_encA_lane _ _ _ _ _ _ _ (by decide)]
  change Except.ok (Instr.fmaxF16 (rO3 _)) = _
  rw [rO3_encA]

theorem RoundTrip.faddBf16 o : RoundTrip.Statement (.faddBf16 o) := by
  intro _ w e
  cases e
  left
  rw [decode_encA_lane _ _ _ _ _ _ _ (by decide)]
  change Except.ok (Instr.faddBf16 (rO3 _)) = _
  rw [rO3_encA]

theorem RoundTrip.fsubBf16 o : RoundTrip.Statement (.fsubBf16 o) := by
  intro _ w e
  cases e
  left
  rw [decode_encA_lane _ _ _ _ _ _ _ (by decide)]
  change Except.ok (Instr.fsubBf16 (rO3 _)) = _
  rw [rO3_encA]

theorem RoundTrip.fmulBf16 o : RoundTrip.Statement (.fmulBf16 o) := by
  intro _ w e
  cases e
  left
  rw [decode_encA_lane _ _ _ _ _ _ _ (by decide)]
  change Except.ok (Instr.fmulBf16 (rO3 _)) = _
  rw [rO3_encA]

theorem RoundTrip.ffmaBf16 o : RoundTrip.Statement (.ffmaBf16 o) := by
  intro _ w e
  cases e
  left
  rw [decode_encA_lane _ _ _ _ _ _ _ (by decide)]
  change Except.ok (Instr.ffmaBf16 (rO3 _)) = _
  rw [rO3_encA]

theorem RoundTrip.fminBf16 o : RoundTrip.Statement (.fminBf16 o) := by
  intro _ w e
  cases e
  left
  rw [decode_encA_lane _ _ _ _ _ _ _ (by decide)]
  change Except.ok (Instr.fminBf16 (rO3 _)) = _
  rw [rO3_encA]

theorem RoundTrip.fmaxBf16 o : RoundTrip.Statement (.fmaxBf16 o) := by
  intro _ w e
  cases e
  left
  rw [decode_encA_lane _ _ _ _ _ _ _ (by decide)]
  change Except.ok (Instr.fmaxBf16 (rO3 _)) = _
  rw [rO3_encA]

theorem RoundTrip.fcmpEq o : RoundTrip.Statement (.fcmpEq o) := by
  intro _ w e
  cases e
  left
  rw [decode_encA_lane _ _ _ _ _ _ _ (by decide)]
  change Except.ok (Instr.fcmpEq (rO3 _)) = _
  rw [rO3_encA]

theorem RoundTrip.fcmpLt o : RoundTrip.Statement (.fcmpLt o) := by
  intro _ w e
  cases e
  left
  rw [decode_encA_lane _ _ _ _ _ _ _ (by decide)]
  change Except.ok (Instr.fcmpLt (rO3 _)) = _
  rw [rO3_encA]

theorem RoundTrip.fcmpLe o : RoundTrip.Statement (.fcmpLe o) := by
  intro _ w e
  cases e
  left
  rw [decode_encA_lane _ _ _ _ _ _ _ (by decide)]
  change Except.ok (Instr.fcmpLe (rO3 _)) = _
  rw [rO3_encA]

theorem RoundTrip.fcmpUn o : RoundTrip.Statement (.fcmpUn o) := by
  intro _ w e
  cases e
  left
  rw [decode_encA_lane _ _ _ _ _ _ _ (by decide)]
  change Except.ok (Instr.fcmpUn (rO3 _)) = _
  rw [rO3_encA]

theorem RoundTrip.fscale o : RoundTrip.Statement (.fscale o) := by
  intro _ w e
  cases e
  left
  rw [decode_encA_lane _ _ _ _ _ _ _ (by decide)]
  change Except.ok (Instr.fscale (rO3 _)) = _
  rw [rO3_encA]

theorem RoundTrip.fabs o : RoundTrip.Statement (.fabs o) := by
  intro h w e
  cases e
  left
  rw [decode_encA_lane _ _ _ _ _ _ _ (by decide)]
  refine (need_ok ?_).trans ?_
  · rw [fB_encA]
    exact h
  · change Except.ok (Instr.fabs (rO3 _)) = _
    rw [rO3_encA]

theorem RoundTrip.fneg o : RoundTrip.Statement (.fneg o) := by
  intro h w e
  cases e
  left
  rw [decode_encA_lane _ _ _ _ _ _ _ (by decide)]
  refine (need_ok ?_).trans ?_
  · rw [fB_encA]
    exact h
  · change Except.ok (Instr.fneg (rO3 _)) = _
    rw [rO3_encA]

theorem RoundTrip.frcp o : RoundTrip.Statement (.frcp o) := by
  intro h w e
  cases e
  left
  rw [decode_encA_lane _ _ _ _ _ _ _ (by decide)]
  refine (need_ok ?_).trans ?_
  · rw [fB_encA]
    exact h
  · change Except.ok (Instr.frcp (rO3 _)) = _
    rw [rO3_encA]

theorem RoundTrip.frsq o : RoundTrip.Statement (.frsq o) := by
  intro h w e
  cases e
  left
  rw [decode_encA_lane _ _ _ _ _ _ _ (by decide)]
  refine (need_ok ?_).trans ?_
  · rw [fB_encA]
    exact h
  · change Except.ok (Instr.frsq (rO3 _)) = _
    rw [rO3_encA]

theorem RoundTrip.fsqrt o : RoundTrip.Statement (.fsqrt o) := by
  intro h w e
  cases e
  left
  rw [decode_encA_lane _ _ _ _ _ _ _ (by decide)]
  refine (need_ok ?_).trans ?_
  · rw [fB_encA]
    exact h
  · change Except.ok (Instr.fsqrt (rO3 _)) = _
    rw [rO3_encA]

theorem RoundTrip.fexp2 o : RoundTrip.Statement (.fexp2 o) := by
  intro h w e
  cases e
  left
  rw [decode_encA_lane _ _ _ _ _ _ _ (by decide)]
  refine (need_ok ?_).trans ?_
  · rw [fB_encA]
    exact h
  · change Except.ok (Instr.fexp2 (rO3 _)) = _
    rw [rO3_encA]

theorem RoundTrip.flog2 o : RoundTrip.Statement (.flog2 o) := by
  intro h w e
  cases e
  left
  rw [decode_encA_lane _ _ _ _ _ _ _ (by decide)]
  refine (need_ok ?_).trans ?_
  · rw [fB_encA]
    exact h
  · change Except.ok (Instr.flog2 (rO3 _)) = _
    rw [rO3_encA]

theorem RoundTrip.fcvt o : RoundTrip.Statement (.fcvt o) := by
  intro h w e
  cases e
  left
  rw [decode_encA_lane _ _ _ _ _ _ _ (by decide)]
  refine (need_ok ?_).trans ?_
  · rw [fB_encA]
    exact h
  · change Except.ok (Instr.fcvt (rO3 _)) = _
    rw [rO3_encA]

theorem RoundTrip.fclass o : RoundTrip.Statement (.fclass o) := by
  intro h w e
  cases e
  left
  rw [decode_encA_lane _ _ _ _ _ _ _ (by decide)]
  refine (need_ok ?_).trans ?_
  · rw [fB_encA]
    exact h
  · change Except.ok (Instr.fclass (rO3 _)) = _
    rw [rO3_encA]

theorem RoundTrip.byteq o : RoundTrip.Statement (.byteq o) := by
  intro _ w e
  cases e
  left
  rw [decode_encA_lane _ _ _ _ _ _ _ (by decide)]
  change Except.ok (Instr.byteq (rO3 _)) = _
  rw [rO3_encA]

theorem RoundTrip.bfind o : RoundTrip.Statement (.bfind o) := by
  intro _ w e
  cases e
  left
  rw [decode_encA_lane _ _ _ _ _ _ _ (by decide)]
  change Except.ok (Instr.bfind (rO3 _)) = _
  rw [rO3_encA]

theorem RoundTrip.bperm o : RoundTrip.Statement (.bperm o) := by
  intro _ w e
  cases e
  left
  rw [decode_encA_lane _ _ _ _ _ _ _ (by decide)]
  change Except.ok (Instr.bperm (rO3 _)) = _
  rw [rO3_encA]

theorem RoundTrip.crcC o : RoundTrip.Statement (.crcC o) := by
  intro _ w e
  cases e
  left
  rw [decode_encA_lane _ _ _ _ _ _ _ (by decide)]
  change Except.ok (Instr.crcC (rO3 _)) = _
  rw [rO3_encA]

theorem RoundTrip.hmix o : RoundTrip.Statement (.hmix o) := by
  intro _ w e
  cases e
  left
  rw [decode_encA_lane _ _ _ _ _ _ _ (by decide)]
  change Except.ok (Instr.hmix (rO3 _)) = _
  rw [rO3_encA]

theorem RoundTrip.dfaStep4 o : RoundTrip.Statement (.dfaStep4 o) := by
  intro _ w e
  cases e
  left
  rw [decode_encA_lane _ _ _ _ _ _ _ (by decide)]
  change Except.ok (Instr.dfaStep4 (rO3 _)) = _
  rw [rO3_encA]

theorem RoundTrip.rngSeed o : RoundTrip.Statement (.rngSeed o) := by
  intro _ w e
  cases e
  left
  rw [decode_encA_lane _ _ _ _ _ _ _ (by decide)]
  refine (need_ok ?_).trans ?_
  · rw [fD_encA, fW_encA]
    rfl
  · change Except.ok (Instr.rngSeed (rOAB _)) = _
    rw [rOAB_encA]

theorem RoundTrip.rngNext o : RoundTrip.Statement (.rngNext o) := by
  intro _ w e
  cases e
  left
  rw [decode_encA_lane _ _ _ _ _ _ _ (by decide)]
  refine (need_ok ?_).trans ?_
  · rw [fA_encA, fB_encA]
    rfl
  · change Except.ok (Instr.rngNext (rOD _)) = _
    rw [rOD_encA]

theorem RoundTrip.prune o : RoundTrip.Statement (.prune o) := by
  intro _ w e
  cases e
  left
  rw [decode_encA_lane _ _ _ _ _ _ _ (by decide)]
  change Except.ok (Instr.prune (rO3 _)) = _
  rw [rO3_encA]

theorem RoundTrip.ballot o : RoundTrip.Statement (.ballot o) := by
  intro h w e
  cases e
  left
  rw [decode_encA_lane _ _ _ _ _ _ _ (by decide)]
  refine (need_ok ?_).trans ?_
  · rw [fB_encA]
    exact h
  · change Except.ok (Instr.ballot (rO3 _)) = _
    rw [rO3_encA]

theorem RoundTrip.shflIdx o : RoundTrip.Statement (.shflIdx o) := by
  intro _ w e
  cases e
  left
  rw [decode_encA_lane _ _ _ _ _ _ _ (by decide)]
  change Except.ok (Instr.shflIdx (rO3 _)) = _
  rw [rO3_encA]

theorem RoundTrip.shflXor o : RoundTrip.Statement (.shflXor o) := by
  intro _ w e
  cases e
  left
  rw [decode_encA_lane _ _ _ _ _ _ _ (by decide)]
  change Except.ok (Instr.shflXor (rO3 _)) = _
  rw [rO3_encA]

theorem RoundTrip.shflUp o : RoundTrip.Statement (.shflUp o) := by
  intro _ w e
  cases e
  left
  rw [decode_encA_lane _ _ _ _ _ _ _ (by decide)]
  change Except.ok (Instr.shflUp (rO3 _)) = _
  rw [rO3_encA]

theorem RoundTrip.shflDown o : RoundTrip.Statement (.shflDown o) := by
  intro _ w e
  cases e
  left
  rw [decode_encA_lane _ _ _ _ _ _ _ (by decide)]
  change Except.ok (Instr.shflDown (rO3 _)) = _
  rw [rO3_encA]

theorem RoundTrip.xred o e : RoundTrip.Statement (.xred o e) := by
  intro h w e
  cases e
  left
  have hs := fSel5_of_fB _ _ _ (fB_encA .lane 0x75#8 o.d o.a (0#1 ++ e) o.s o.w o.h)
  have hx := fX_of_fB _ false _ (fB_encA .lane 0x75#8 o.d o.a (0#1 ++ e) o.s o.w o.h)
  rw [decode_encA_lane _ _ _ _ _ _ _ (by decide)]
  refine (need_ok ?_).trans ?_
  · rw [hx, hs]
    have h : (reduceOk e) = true := h
    simpa using h
  · change Except.ok (Instr.xred (rO2 _) (fSel5 _)) = _
    rw [rO2_encA, hs]

theorem RoundTrip.xscan o x e : RoundTrip.Statement (.xscan o x e) := by
  intro h w e
  cases e
  left
  have hs := fSel5_of_fB _ _ _ (fB_encA .lane 0x76#8 o.d o.a (BitVec.ofBool x ++ e) o.s o.w o.h)
  have hx := fX_of_fB _ _ _ (fB_encA .lane 0x76#8 o.d o.a (BitVec.ofBool x ++ e) o.s o.w o.h)
  rw [decode_encA_lane _ _ _ _ _ _ _ (by decide)]
  refine (need_ok ?_).trans ?_
  · rw [hs]
    exact h
  · change Except.ok (Instr.xscan (rO2 _) (fX _) (fSel5 _)) = _
    rw [rO2_encA, hx, hs]

theorem RoundTrip.isect o : RoundTrip.Statement (.isect o) := by
  intro _ w e
  cases e
  left
  rw [decode_encA_lane _ _ _ _ _ _ _ (by decide)]
  refine (need_ok ?_).trans ?_
  · rw [fW_encA]
    rfl
  · change Except.ok (Instr.isect (rO3n _)) = _
    rw [rO3n_encA]

theorem RoundTrip.matchL o : RoundTrip.Statement (.matchL o) := by
  intro _ w e
  cases e
  left
  rw [decode_encA_lane _ _ _ _ _ _ _ (by decide)]
  refine (need_ok ?_).trans ?_
  · rw [fB_encA]
    rfl
  · change Except.ok (Instr.matchL (rO2 _)) = _
    rw [rO2_encA]

theorem RoundTrip.bcast o : RoundTrip.Statement (.bcast o) := by
  intro _ w e
  cases e
  left
  rw [decode_encA_lane _ _ _ _ _ _ _ (by decide)]
  change Except.ok (Instr.bcast (rO3 _)) = _
  rw [rO3_encA]

theorem RoundTrip.bnext o : RoundTrip.Statement (.bnext o) := by
  intro _ w e
  cases e
  left
  rw [decode_encA_lane _ _ _ _ _ _ _ (by decide)]
  refine (need_ok ?_).trans ?_
  · rw [fD_encA, fB_encA, fW_encA]
    rfl
  · change Except.ok (Instr.bnext (rOA _)) = _
    rw [rOA_encA]

theorem RoundTrip.setblk o : RoundTrip.Statement (.setblk o) := by
  intro _ w e
  cases e
  left
  rw [decode_encA_lane _ _ _ _ _ _ _ (by decide)]
  refine (need_ok ?_).trans ?_
  · rw [fD_encA, fB_encA, fW_encA]
    rfl
  · change Except.ok (Instr.setblk (rOA _)) = _
    rw [rOA_encA]

theorem RoundTrip.ldS16A o : RoundTrip.Statement (.ldS16A o) := by
  intro _ w e
  cases e
  left
  rw [decode_encA_lane _ _ _ _ _ _ _ (by decide)]
  change Except.ok (Instr.ldS16A (rO3 _)) = _
  rw [rO3_encA]

theorem RoundTrip.ldS16I o : RoundTrip.Statement (.ldS16I o) := by
  intro _ w e
  cases e
  left
  rw [decode_encA_lane _ _ _ _ _ _ _ (by decide)]
  change Except.ok (Instr.ldS16I (rO3 _)) = _
  rw [rO3_encA]

theorem RoundTrip.ldN16A o : RoundTrip.Statement (.ldN16A o) := by
  intro _ w e
  cases e
  left
  rw [decode_encA_lane _ _ _ _ _ _ _ (by decide)]
  change Except.ok (Instr.ldN16A (rO3 _)) = _
  rw [rO3_encA]

theorem RoundTrip.ldN16I o : RoundTrip.Statement (.ldN16I o) := by
  intro _ w e
  cases e
  left
  rw [decode_encA_lane _ _ _ _ _ _ _ (by decide)]
  change Except.ok (Instr.ldN16I (rO3 _)) = _
  rw [rO3_encA]

theorem RoundTrip.ldB32A o : RoundTrip.Statement (.ldB32A o) := by
  intro _ w e
  cases e
  left
  rw [decode_encA_lane _ _ _ _ _ _ _ (by decide)]
  change Except.ok (Instr.ldB32A (rO3 _)) = _
  rw [rO3_encA]

theorem RoundTrip.ldB32I o : RoundTrip.Statement (.ldB32I o) := by
  intro _ w e
  cases e
  left
  rw [decode_encA_lane _ _ _ _ _ _ _ (by decide)]
  change Except.ok (Instr.ldB32I (rO3 _)) = _
  rw [rO3_encA]

theorem RoundTrip.stB32A o : RoundTrip.Statement (.stB32A o) := by
  intro _ w e
  cases e
  left
  rw [decode_encA_lane _ _ _ _ _ _ _ (by decide)]
  refine (need_ok ?_).trans ?_
  · rw [fW_encA]
    rfl
  · change Except.ok (Instr.stB32A (rO3n _)) = _
    rw [rO3n_encA]

theorem RoundTrip.stB32I o : RoundTrip.Statement (.stB32I o) := by
  intro _ w e
  cases e
  left
  rw [decode_encA_lane _ _ _ _ _ _ _ (by decide)]
  refine (need_ok ?_).trans ?_
  · rw [fW_encA]
    rfl
  · change Except.ok (Instr.stB32I (rO3n _)) = _
    rw [rO3n_encA]

theorem RoundTrip.stN16A o : RoundTrip.Statement (.stN16A o) := by
  intro _ w e
  cases e
  left
  rw [decode_encA_lane _ _ _ _ _ _ _ (by decide)]
  refine (need_ok ?_).trans ?_
  · rw [fW_encA]
    rfl
  · change Except.ok (Instr.stN16A (rO3n _)) = _
    rw [rO3n_encA]

theorem RoundTrip.stN16I o : RoundTrip.Statement (.stN16I o) := by
  intro _ w e
  cases e
  left
  rw [decode_encA_lane _ _ _ _ _ _ _ (by decide)]
  refine (need_ok ?_).trans ?_
  · rw [fW_encA]
    rfl
  · change Except.ok (Instr.stN16I (rO3n _)) = _
    rw [rO3n_encA]

theorem RoundTrip.ldc o : RoundTrip.Statement (.ldc o) := by
  intro _ w e
  cases e
  left
  rw [decode_encA_lane _ _ _ _ _ _ _ (by decide)]
  change Except.ok (Instr.ldc (rO3 _)) = _
  rw [rO3_encA]

theorem RoundTrip.stc o : RoundTrip.Statement (.stc o) := by
  intro _ w e
  cases e
  left
  rw [decode_encA_lane _ _ _ _ _ _ _ (by decide)]
  refine (need_ok ?_).trans ?_
  · rw [fW_encA]
    rfl
  · change Except.ok (Instr.stc (rO3n _)) = _
    rw [rO3n_encA]

theorem RoundTrip.atomAdd o : RoundTrip.Statement (.atomAdd o) := by
  intro _ w e
  cases e
  left
  rw [decode_encA_lane _ _ _ _ _ _ _ (by decide)]
  refine (need_ok ?_).trans ?_
  · rw [fW_encA]
    rfl
  · change Except.ok (Instr.atomAdd (rO3n _)) = _
    rw [rO3n_encA]

theorem RoundTrip.atomAnd o : RoundTrip.Statement (.atomAnd o) := by
  intro _ w e
  cases e
  left
  rw [decode_encA_lane _ _ _ _ _ _ _ (by decide)]
  refine (need_ok ?_).trans ?_
  · rw [fW_encA]
    rfl
  · change Except.ok (Instr.atomAnd (rO3n _)) = _
    rw [rO3n_encA]

theorem RoundTrip.atomOr o : RoundTrip.Statement (.atomOr o) := by
  intro _ w e
  cases e
  left
  rw [decode_encA_lane _ _ _ _ _ _ _ (by decide)]
  refine (need_ok ?_).trans ?_
  · rw [fW_encA]
    rfl
  · change Except.ok (Instr.atomOr (rO3n _)) = _
    rw [rO3n_encA]

theorem RoundTrip.atomXor o : RoundTrip.Statement (.atomXor o) := by
  intro _ w e
  cases e
  left
  rw [decode_encA_lane _ _ _ _ _ _ _ (by decide)]
  refine (need_ok ?_).trans ?_
  · rw [fW_encA]
    rfl
  · change Except.ok (Instr.atomXor (rO3n _)) = _
    rw [rO3n_encA]

theorem RoundTrip.atomMinS32 o : RoundTrip.Statement (.atomMinS32 o) := by
  intro _ w e
  cases e
  left
  rw [decode_encA_lane _ _ _ _ _ _ _ (by decide)]
  refine (need_ok ?_).trans ?_
  · rw [fW_encA]
    rfl
  · change Except.ok (Instr.atomMinS32 (rO3n _)) = _
    rw [rO3n_encA]

theorem RoundTrip.atomMaxS32 o : RoundTrip.Statement (.atomMaxS32 o) := by
  intro _ w e
  cases e
  left
  rw [decode_encA_lane _ _ _ _ _ _ _ (by decide)]
  refine (need_ok ?_).trans ?_
  · rw [fW_encA]
    rfl
  · change Except.ok (Instr.atomMaxS32 (rO3n _)) = _
    rw [rO3n_encA]

theorem RoundTrip.atomMinN32 o : RoundTrip.Statement (.atomMinN32 o) := by
  intro _ w e
  cases e
  left
  rw [decode_encA_lane _ _ _ _ _ _ _ (by decide)]
  refine (need_ok ?_).trans ?_
  · rw [fW_encA]
    rfl
  · change Except.ok (Instr.atomMinN32 (rO3n _)) = _
    rw [rO3n_encA]

theorem RoundTrip.atomMaxN32 o : RoundTrip.Statement (.atomMaxN32 o) := by
  intro _ w e
  cases e
  left
  rw [decode_encA_lane _ _ _ _ _ _ _ (by decide)]
  refine (need_ok ?_).trans ?_
  · rw [fW_encA]
    rfl
  · change Except.ok (Instr.atomMaxN32 (rO3n _)) = _
    rw [rO3n_encA]

theorem RoundTrip.atomXchg o : RoundTrip.Statement (.atomXchg o) := by
  intro _ w e
  cases e
  left
  rw [decode_encA_lane _ _ _ _ _ _ _ (by decide)]
  refine (need_ok ?_).trans ?_
  · rw [fW_encA]
    rfl
  · change Except.ok (Instr.atomXchg (rO3n _)) = _
    rw [rO3n_encA]

theorem RoundTrip.atomCas o : RoundTrip.Statement (.atomCas o) := by
  intro _ w e
  cases e
  left
  rw [decode_encA_lane _ _ _ _ _ _ _ (by decide)]
  refine (need_ok ?_).trans ?_
  · rw [fW_encA]
    rfl
  · change Except.ok (Instr.atomCas (rO3n _)) = _
    rw [rO3n_encA]

theorem RoundTrip.redMAdd o : RoundTrip.Statement (.redMAdd o) := by
  intro _ w e
  cases e
  left
  rw [decode_encA_lane _ _ _ _ _ _ _ (by decide)]
  refine (need_ok ?_).trans ?_
  · rw [fW_encA]
    rfl
  · change Except.ok (Instr.redMAdd (rO3n _)) = _
    rw [rO3n_encA]

theorem RoundTrip.redMAddF32 o : RoundTrip.Statement (.redMAddF32 o) := by
  intro _ w e
  cases e
  left
  rw [decode_encA_lane _ _ _ _ _ _ _ (by decide)]
  refine (need_ok ?_).trans ?_
  · rw [fW_encA]
    rfl
  · change Except.ok (Instr.redMAddF32 (rO3n _)) = _
    rw [rO3n_encA]

theorem RoundTrip.redMMinS32 o : RoundTrip.Statement (.redMMinS32 o) := by
  intro _ w e
  cases e
  left
  rw [decode_encA_lane _ _ _ _ _ _ _ (by decide)]
  refine (need_ok ?_).trans ?_
  · rw [fW_encA]
    rfl
  · change Except.ok (Instr.redMMinS32 (rO3n _)) = _
    rw [rO3n_encA]

theorem RoundTrip.redMMaxS32 o : RoundTrip.Statement (.redMMaxS32 o) := by
  intro _ w e
  cases e
  left
  rw [decode_encA_lane _ _ _ _ _ _ _ (by decide)]
  refine (need_ok ?_).trans ?_
  · rw [fW_encA]
    rfl
  · change Except.ok (Instr.redMMaxS32 (rO3n _)) = _
    rw [rO3n_encA]

theorem RoundTrip.redMMinN32 o : RoundTrip.Statement (.redMMinN32 o) := by
  intro _ w e
  cases e
  left
  rw [decode_encA_lane _ _ _ _ _ _ _ (by decide)]
  refine (need_ok ?_).trans ?_
  · rw [fW_encA]
    rfl
  · change Except.ok (Instr.redMMinN32 (rO3n _)) = _
    rw [rO3n_encA]

theorem RoundTrip.redMMaxN32 o : RoundTrip.Statement (.redMMaxN32 o) := by
  intro _ w e
  cases e
  left
  rw [decode_encA_lane _ _ _ _ _ _ _ (by decide)]
  refine (need_ok ?_).trans ?_
  · rw [fW_encA]
    rfl
  · change Except.ok (Instr.redMMaxN32 (rO3n _)) = _
    rw [rO3n_encA]

theorem RoundTrip.ldv o : RoundTrip.Statement (.ldv o) := by
  intro _ w e
  cases e
  left
  rw [decode_encA_lane _ _ _ _ _ _ _ (by decide)]
  change Except.ok (Instr.ldv (rO3 _)) = _
  rw [rO3_encA]

theorem RoundTrip.stv o : RoundTrip.Statement (.stv o) := by
  intro _ w e
  cases e
  left
  rw [decode_encA_lane _ _ _ _ _ _ _ (by decide)]
  refine (need_ok ?_).trans ?_
  · rw [fW_encA]
    rfl
  · change Except.ok (Instr.stv (rO3n _)) = _
    rw [rO3n_encA]

theorem RoundTrip.vlatest o : RoundTrip.Statement (.vlatest o) := by
  intro _ w e
  cases e
  left
  rw [decode_encA_lane _ _ _ _ _ _ _ (by decide)]
  change Except.ok (Instr.vlatest (rO3 _)) = _
  rw [rO3_encA]

theorem RoundTrip.ldgA o : RoundTrip.Statement (.ldgA o) := by
  intro _ w e
  cases e
  left
  rw [decode_encA_gang _ _ _ _ _ _ _ (by decide)]
  change Except.ok (Instr.ldgA (rO3 _)) = _
  rw [rO3_encA]

theorem RoundTrip.ldgI o : RoundTrip.Statement (.ldgI o) := by
  intro _ w e
  cases e
  left
  rw [decode_encA_gang _ _ _ _ _ _ _ (by decide)]
  change Except.ok (Instr.ldgI (rO3 _)) = _
  rw [rO3_encA]

theorem RoundTrip.stgA o : RoundTrip.Statement (.stgA o) := by
  intro _ w e
  cases e
  left
  rw [decode_encA_gang _ _ _ _ _ _ _ (by decide)]
  refine (need_ok ?_).trans ?_
  · rw [fW_encA]
    rfl
  · change Except.ok (Instr.stgA (rO3n _)) = _
    rw [rO3n_encA]

theorem RoundTrip.stgI o : RoundTrip.Statement (.stgI o) := by
  intro _ w e
  cases e
  left
  rw [decode_encA_gang _ _ _ _ _ _ _ (by decide)]
  refine (need_ok ?_).trans ?_
  · rw [fW_encA]
    rfl
  · change Except.ok (Instr.stgI (rO3n _)) = _
    rw [rO3n_encA]

theorem RoundTrip.vpin o : RoundTrip.Statement (.vpin o) := by
  intro _ w e
  cases e
  left
  rw [decode_encA_gang _ _ _ _ _ _ _ (by decide)]
  refine (need_ok ?_).trans ?_
  · rw [fD_encA, fW_encA]
    rfl
  · change Except.ok (Instr.vpin (rOAB _)) = _
    rw [rOAB_encA]

theorem RoundTrip.vunpin o : RoundTrip.Statement (.vunpin o) := by
  intro _ w e
  cases e
  left
  rw [decode_encA_gang _ _ _ _ _ _ _ (by decide)]
  refine (need_ok ?_).trans ?_
  · rw [fD_encA, fW_encA]
    rfl
  · change Except.ok (Instr.vunpin (rOAB _)) = _
    rw [rOAB_encA]

theorem RoundTrip.vfloor o : RoundTrip.Statement (.vfloor o) := by
  intro _ w e
  cases e
  left
  rw [decode_encA_gang _ _ _ _ _ _ _ (by decide)]
  refine (need_ok ?_).trans ?_
  · rw [fD_encA, fW_encA]
    rfl
  · change Except.ok (Instr.vfloor (rOAB _)) = _
    rw [rOAB_encA]

theorem RoundTrip.spalloc o : RoundTrip.Statement (.spalloc o) := by
  intro _ w e
  cases e
  left
  rw [decode_encA_gang _ _ _ _ _ _ _ (by decide)]
  change Except.ok (Instr.spalloc (rO3 _)) = _
  rw [rO3_encA]

theorem RoundTrip.sprenew o : RoundTrip.Statement (.sprenew o) := by
  intro _ w e
  cases e
  left
  rw [decode_encA_gang _ _ _ _ _ _ _ (by decide)]
  refine (need_ok ?_).trans ?_
  · rw [fD_encA, fW_encA]
    rfl
  · change Except.ok (Instr.sprenew (rOAB _)) = _
    rw [rOAB_encA]

theorem RoundTrip.sprenewZ o : RoundTrip.Statement (.sprenewZ o) := by
  intro _ w e
  cases e
  left
  rw [decode_encA_gang _ _ _ _ _ _ _ (by decide)]
  refine (need_ok ?_).trans ?_
  · rw [fD_encA, fW_encA]
    rfl
  · change Except.ok (Instr.sprenewZ (rOAB _)) = _
    rw [rOAB_encA]

theorem RoundTrip.spfree o : RoundTrip.Statement (.spfree o) := by
  intro _ w e
  cases e
  left
  rw [decode_encA_gang _ _ _ _ _ _ _ (by decide)]
  refine (need_ok ?_).trans ?_
  · rw [fD_encA, fB_encA, fW_encA]
    rfl
  · change Except.ok (Instr.spfree (rOA _)) = _
    rw [rOA_encA]

theorem RoundTrip.spinfo o : RoundTrip.Statement (.spinfo o) := by
  intro _ w e
  cases e
  left
  rw [decode_encA_gang _ _ _ _ _ _ _ (by decide)]
  refine (need_ok ?_).trans ?_
  · rw [fB_encA]
    rfl
  · change Except.ok (Instr.spinfo (rO2 _)) = _
    rw [rO2_encA]

theorem RoundTrip.pkst o : RoundTrip.Statement (.pkst o) := by
  intro _ w e
  cases e
  left
  rw [decode_encA_gang _ _ _ _ _ _ _ (by decide)]
  change Except.ok (Instr.pkst (rO3 _)) = _
  rw [rO3_encA]

theorem RoundTrip.pkld o : RoundTrip.Statement (.pkld o) := by
  intro _ w e
  cases e
  left
  rw [decode_encA_gang _ _ _ _ _ _ _ (by decide)]
  change Except.ok (Instr.pkld (rO3 _)) = _
  rw [rO3_encA]

theorem RoundTrip.fence o : RoundTrip.Statement (.fence o) := by
  intro h w e
  cases e
  left
  rw [decode_encA_gang _ _ _ _ _ _ _ (by decide)]
  refine (need_ok ?_).trans ?_
  · rw [fW_encA, fD_encA, fA_encA, fB_encA]
    have h : (fenceOk o.d o.a o.b) = true := h
    simpa using h
  · change Except.ok (Instr.fence (rO3n _)) = _
    rw [rO3n_encA]

theorem RoundTrip.flush o : RoundTrip.Statement (.flush o) := by
  intro _ w e
  cases e
  left
  rw [decode_encA_gang _ _ _ _ _ _ _ (by decide)]
  refine (need_ok ?_).trans ?_
  · rw [fD_encA, fW_encA]
    rfl
  · change Except.ok (Instr.flush (rOAB _)) = _
    rw [rOAB_encA]

theorem RoundTrip.tdLoad o : RoundTrip.Statement (.tdLoad o) := by
  intro _ w e
  cases e
  left
  rw [decode_encA_gang _ _ _ _ _ _ _ (by decide)]
  refine (need_ok ?_).trans ?_
  · rw [fD_encA, fW_encA]
    rfl
  · change Except.ok (Instr.tdLoad (rOAB _)) = _
    rw [rOAB_encA]

theorem RoundTrip.tdSet o : RoundTrip.Statement (.tdSet o) := by
  intro _ w e
  cases e
  left
  rw [decode_encA_gang _ _ _ _ _ _ _ (by decide)]
  refine (need_ok ?_).trans ?_
  · rw [fD_encA, fW_encA]
    rfl
  · change Except.ok (Instr.tdSet (rOAB _)) = _
    rw [rOAB_encA]

theorem RoundTrip.mload o : RoundTrip.Statement (.mload o) := by
  intro _ w e
  cases e
  left
  rw [decode_encA_gang _ _ _ _ _ _ _ (by decide)]
  refine (need_ok ?_).trans ?_
  · rw [fD_encA, fW_encA]
    rfl
  · change Except.ok (Instr.mload (rOAB _)) = _
    rw [rOAB_encA]

theorem RoundTrip.mswap s h : RoundTrip.Statement (.mswap s h) := by
  intro _ w e
  cases e
  left
  rw [decode_encA_gang _ _ _ _ _ _ _ (by decide)]
  refine (need_ok ?_).trans ?_
  · rw [fD_encA, fA_encA, fB_encA, fW_encA]
    rfl
  · change Except.ok (Instr.mswap (fS _) (fH _)) = _
    rw [fS_encA, fH_encA]

theorem RoundTrip.mstream o : RoundTrip.Statement (.mstream o) := by
  intro _ w e
  cases e
  left
  rw [decode_encA_gang _ _ _ _ _ _ _ (by decide)]
  refine (need_ok ?_).trans ?_
  · rw [fD_encA, fW_encA]
    rfl
  · change Except.ok (Instr.mstream (rOAB _)) = _
    rw [rOAB_encA]

theorem RoundTrip.mzero o : RoundTrip.Statement (.mzero o) := by
  intro _ w e
  cases e
  left
  rw [decode_encA_gang _ _ _ _ _ _ _ (by decide)]
  refine (need_ok ?_).trans ?_
  · rw [fD_encA, fB_encA, fW_encA]
    rfl
  · change Except.ok (Instr.mzero (rOA _)) = _
    rw [rOA_encA]

theorem RoundTrip.mdrain o e : RoundTrip.Statement (.mdrain o e) := by
  intro h w e
  cases e
  left
  have hs := fSel3_of_fB _ _ (fB_encA .gang 0xA4#8 o.d o.a (0#3 ++ e) o.s o.w o.h)
  rw [decode_encA_gang _ _ _ _ _ _ _ (by decide)]
  refine (if_pos ?_).trans ((need_ok ?_).trans ?_)
  · rw [fB_encA]
    change (@BitVec.extractLsb' (3 + 3) 3 3 (0#3 ++ e) == 0#3) = true
    rw [BitVec.extractLsb'_append_eq_of_le (by decide)]
    rfl
  · rw [hs]
    exact h
  · change Except.ok (Instr.mdrain (rO2 _) (fSel3 _)) = _
    rw [rO2_encA, hs]

theorem RoundTrip.mdrainXp o : RoundTrip.Statement (.mdrainXp o) := by
  intro h w e
  cases e
  left
  rw [decode_encA_gang _ _ _ _ _ _ _ (by decide)]
  refine (if_neg ?_).trans ((need_ok ?_).trans ?_)
  · rw [fB_encA]
    exact drainPortOk_hi o.b h
  · rw [fD_encA, fW_encA, fB_encA]
    have h : (drainPortOk o.b) = true := h
    simpa using h
  · change Except.ok (Instr.mdrainXp (rOAB _)) = _
    rw [rOAB_encA]

theorem RoundTrip.mtile o : RoundTrip.Statement (.mtile o) := by
  intro _ w e
  cases e
  left
  rw [decode_encA_gang _ _ _ _ _ _ _ (by decide)]
  refine (need_ok ?_).trans ?_
  · rw [fW_encA]
    rfl
  · change Except.ok (Instr.mtile (rO3n _)) = _
    rw [rO3n_encA]

theorem RoundTrip.mstat o : RoundTrip.Statement (.mstat o) := by
  intro _ w e
  cases e
  left
  rw [decode_encA_gang _ _ _ _ _ _ _ (by decide)]
  refine (need_ok ?_).trans ?_
  · rw [fB_encA]
    rfl
  · change Except.ok (Instr.mstat (rO2 _)) = _
    rw [rO2_encA]

theorem RoundTrip.bra f : RoundTrip.Statement (.bra f) := by
  intro _ w e
  cases e
  left
  rw [decode_encB _ _ _ _ (by decide)]
  refine (need_ok ?_).trans ?_
  · rw [fQi_encB, fPol_encB]
    rfl
  · change Except.ok (Instr.bra (fOff19 _)) = _
    rw [fOff19_encB]

theorem RoundTrip.brcAny q pol f : RoundTrip.Statement (.brcAny q pol f) := by
  intro _ w e
  cases e
  left
  rw [decode_encB _ _ _ _ (by decide)]
  change Except.ok (Instr.brcAny (fQi _) (fPol _) (fOff19 _)) = _
  rw [fQi_encB, fPol_encB, fOff19_encB]

theorem RoundTrip.brcAll q pol f : RoundTrip.Statement (.brcAll q pol f) := by
  intro _ w e
  cases e
  left
  rw [decode_encB _ _ _ _ (by decide)]
  change Except.ok (Instr.brcAll (fQi _) (fPol _) (fOff19 _)) = _
  rw [fQi_encB, fPol_encB, fOff19_encB]

theorem RoundTrip.call f : RoundTrip.Statement (.call f) := by
  intro _ w e
  cases e
  left
  rw [decode_encB _ _ _ _ (by decide)]
  refine (need_ok ?_).trans ?_
  · rw [fQi_encB, fPol_encB]
    rfl
  · change Except.ok (Instr.call (fOff19 _)) = _
    rw [fOff19_encB]

theorem RoundTrip.ret o : RoundTrip.Statement (.ret o) := by
  intro _ w e
  cases e
  left
  rw [decode_encA_gang _ _ _ _ _ _ _ (by decide)]
  refine (need_ok ?_).trans ?_
  · rw [fD_encA, fB_encA, fW_encA]
    rfl
  · change Except.ok (Instr.ret (rOA _)) = _
    rw [rOA_encA]

theorem RoundTrip.regang s : RoundTrip.Statement (.regang s) := by
  intro _ w e
  cases e
  left
  rw [decode_encA_gang _ _ _ _ _ _ _ (by decide)]
  refine (need_ok ?_).trans ?_
  · rw [fD_encA, fA_encA, fB_encA, fW_encA, fH_encA]
    rfl
  · change Except.ok (Instr.regang (fS _)) = _
    rw [fS_encA]

theorem RoundTrip.exitG s : RoundTrip.Statement (.exitG s) := by
  intro _ w e
  cases e
  left
  rw [decode_encA_gang _ _ _ _ _ _ _ (by decide)]
  refine (need_ok ?_).trans ?_
  · rw [fD_encA, fA_encA, fB_encA, fW_encA, fH_encA]
    rfl
  · change Except.ok (Instr.exitG (fS _)) = _
    rw [fS_encA]

theorem RoundTrip.nop s : RoundTrip.Statement (.nop s) := by
  intro _ w e
  cases e
  left
  rw [decode_encA_gang _ _ _ _ _ _ _ (by decide)]
  refine (need_ok ?_).trans ?_
  · rw [fD_encA, fA_encA, fB_encA, fW_encA, fH_encA]
    rfl
  · change Except.ok (Instr.nop (fS _)) = _
    rw [fS_encA]

theorem RoundTrip.yield s : RoundTrip.Statement (.yield s) := by
  intro _ w e
  cases e
  left
  rw [decode_encA_gang _ _ _ _ _ _ _ (by decide)]
  refine (need_ok ?_).trans ?_
  · rw [fD_encA, fA_encA, fB_encA, fW_encA, fH_encA]
    rfl
  · change Except.ok (Instr.yield (fS _)) = _
    rw [fS_encA]

theorem RoundTrip.autoEnter i f : RoundTrip.Statement (.autoEnter i f) := by
  intro _ w e
  cases e
  left
  rw [decode_encE _ _ _ (by decide)]
  change Except.ok (Instr.autoEnter (fD _) (fOff17 _)) = _
  rw [fD_encE, fOff17_encE]

theorem RoundTrip.autoStep : RoundTrip.Statement (.autoStep) := by
  intro _ w e
  cases e
  left
  rw [decode_encA_gang _ _ _ _ _ _ _ (by decide)]
  refine (need_ok ?_).trans ?_
  · rw [fD_encA, fA_encA, fB_encA, fS_encA, fW_encA, fH_encA]
    rfl
  · rfl

theorem RoundTrip.autoExit : RoundTrip.Statement (.autoExit) := by
  intro _ w e
  cases e
  left
  rw [decode_encA_gang _ _ _ _ _ _ _ (by decide)]
  refine (need_ok ?_).trans ?_
  · rw [fD_encA, fA_encA, fB_encA, fS_encA, fW_encA, fH_encA]
    rfl
  · rfl

theorem RoundTrip.barInit o : RoundTrip.Statement (.barInit o) := by
  intro _ w e
  cases e
  left
  rw [decode_encA_gang _ _ _ _ _ _ _ (by decide)]
  refine (need_ok ?_).trans ?_
  · rw [fD_encA, fW_encA]
    rfl
  · change Except.ok (Instr.barInit (rOAB _)) = _
    rw [rOAB_encA]

theorem RoundTrip.barArrive o : RoundTrip.Statement (.barArrive o) := by
  intro _ w e
  cases e
  left
  rw [decode_encA_gang _ _ _ _ _ _ _ (by decide)]
  refine (need_ok ?_).trans ?_
  · rw [fB_encA]
    rfl
  · change Except.ok (Instr.barArrive (rO2 _)) = _
    rw [rO2_encA]

theorem RoundTrip.barWait o : RoundTrip.Statement (.barWait o) := by
  intro _ w e
  cases e
  left
  rw [decode_encA_gang _ _ _ _ _ _ _ (by decide)]
  refine (need_ok ?_).trans ?_
  · rw [fD_encA, fW_encA]
    rfl
  · change Except.ok (Instr.barWait (rOAB _)) = _
    rw [rOAB_encA]

theorem RoundTrip.barArm o : RoundTrip.Statement (.barArm o) := by
  intro _ w e
  cases e
  left
  rw [decode_encA_gang _ _ _ _ _ _ _ (by decide)]
  refine (need_ok ?_).trans ?_
  · rw [fD_encA, fW_encA]
    rfl
  · change Except.ok (Instr.barArm (rOAB _)) = _
    rw [rOAB_encA]

theorem RoundTrip.barTest o : RoundTrip.Statement (.barTest o) := by
  intro _ w e
  cases e
  left
  rw [decode_encA_gang _ _ _ _ _ _ _ (by decide)]
  change Except.ok (Instr.barTest (rO3 _)) = _
  rw [rO3_encA]

theorem RoundTrip.cohJoin o : RoundTrip.Statement (.cohJoin o) := by
  intro _ w e
  cases e
  left
  rw [decode_encA_gang _ _ _ _ _ _ _ (by decide)]
  change Except.ok (Instr.cohJoin (rO3 _)) = _
  rw [rO3_encA]

theorem RoundTrip.cohLeave o : RoundTrip.Statement (.cohLeave o) := by
  intro _ w e
  cases e
  left
  rw [decode_encA_gang _ _ _ _ _ _ _ (by decide)]
  refine (need_ok ?_).trans ?_
  · rw [fD_encA, fB_encA, fW_encA]
    rfl
  · change Except.ok (Instr.cohLeave (rOA _)) = _
    rw [rOA_encA]

theorem RoundTrip.cohInfo o : RoundTrip.Statement (.cohInfo o) := by
  intro _ w e
  cases e
  left
  rw [decode_encA_gang _ _ _ _ _ _ _ (by decide)]
  refine (need_ok ?_).trans ?_
  · rw [fB_encA]
    rfl
  · change Except.ok (Instr.cohInfo (rO2 _)) = _
    rw [rO2_encA]

theorem RoundTrip.nodePost o : RoundTrip.Statement (.nodePost o) := by
  intro _ w e
  cases e
  left
  rw [decode_encA_gang _ _ _ _ _ _ _ (by decide)]
  refine (need_ok ?_).trans ?_
  · rw [fB_encA]
    rfl
  · change Except.ok (Instr.nodePost (rO2 _)) = _
    rw [rO2_encA]

theorem RoundTrip.tlWait o : RoundTrip.Statement (.tlWait o) := by
  intro _ w e
  cases e
  left
  rw [decode_encA_gang _ _ _ _ _ _ _ (by decide)]
  refine (need_ok ?_).trans ?_
  · rw [fD_encA, fW_encA]
    rfl
  · change Except.ok (Instr.tlWait (rOAB _)) = _
    rw [rOAB_encA]

theorem RoundTrip.tlRead o : RoundTrip.Statement (.tlRead o) := by
  intro _ w e
  cases e
  left
  rw [decode_encA_gang _ _ _ _ _ _ _ (by decide)]
  refine (need_ok ?_).trans ?_
  · rw [fB_encA]
    rfl
  · change Except.ok (Instr.tlRead (rO2 _)) = _
    rw [rO2_encA]

theorem RoundTrip.xpStart o : RoundTrip.Statement (.xpStart o) := by
  intro _ w e
  cases e
  left
  rw [decode_encA_gang _ _ _ _ _ _ _ (by decide)]
  refine (need_ok ?_).trans ?_
  · rw [fD_encA, fW_encA]
    rfl
  · change Except.ok (Instr.xpStart (rOAB _)) = _
    rw [rOAB_encA]

theorem RoundTrip.xpStatus o : RoundTrip.Statement (.xpStatus o) := by
  intro _ w e
  cases e
  left
  rw [decode_encA_gang _ _ _ _ _ _ _ (by decide)]
  refine (need_ok ?_).trans ?_
  · rw [fB_encA]
    rfl
  · change Except.ok (Instr.xpStatus (rO2 _)) = _
    rw [rO2_encA]

theorem RoundTrip.idem s : RoundTrip.Statement (.idem s) := by
  intro _ w e
  cases e
  left
  rw [decode_encA_gang _ _ _ _ _ _ _ (by decide)]
  refine (need_ok ?_).trans ?_
  · rw [fD_encA, fA_encA, fB_encA, fW_encA, fH_encA]
    rfl
  · change Except.ok (Instr.idem (fS _)) = _
    rw [fS_encA]

theorem RoundTrip.contOpen a s : RoundTrip.Statement (.contOpen a s) := by
  intro _ w e
  cases e
  left
  rw [decode_encA_gang _ _ _ _ _ _ _ (by decide)]
  refine (need_ok ?_).trans ?_
  · rw [fD_encA, fB_encA, fW_encA, fH_encA]
    rfl
  · change Except.ok (Instr.contOpen (fA _) (fS _)) = _
    rw [fA_encA, fS_encA]

theorem RoundTrip.contClose s : RoundTrip.Statement (.contClose s) := by
  intro _ w e
  cases e
  left
  rw [decode_encA_gang _ _ _ _ _ _ _ (by decide)]
  refine (need_ok ?_).trans ?_
  · rw [fD_encA, fA_encA, fB_encA, fW_encA, fH_encA]
    rfl
  · change Except.ok (Instr.contClose (fS _)) = _
    rw [fS_encA]

theorem RoundTrip.trap n s : RoundTrip.Statement (.trap n s) := by
  intro _ w e
  cases e
  left
  rw [decode_encA_gang _ _ _ _ _ _ _ (by decide)]
  refine (need_ok ?_).trans ?_
  · rw [fD_encA, fA_encA, fW_encA, fH_encA]
    rfl
  · change Except.ok (Instr.trap (fB _) (fS _)) = _
    rw [fB_encA, fS_encA]

theorem RoundTrip.rett : RoundTrip.Statement (.rett) := by
  intro _ w e
  cases e
  left
  rw [decode_encA_gang _ _ _ _ _ _ _ (by decide)]
  refine (need_ok ?_).trans ?_
  · rw [fD_encA, fA_encA, fB_encA, fS_encA, fW_encA, fH_encA]
    rfl
  · rfl

theorem RoundTrip.sysrd d n s w h : RoundTrip.Statement (.sysrd d n s w h) := by
  intro _ w e
  cases e
  left
  rw [decode_encA_gang _ _ _ _ _ _ _ (by decide)]
  change Except.ok (Instr.sysrd (fD _) (fA _ ++ fB _) (fS _) (fW _) (fH _)) = _
  rw [fD_encA, fA_encA, fB_encA, fS_encA, fW_encA, fH_encA, sysNo_append]

theorem RoundTrip.syswr d n s h : RoundTrip.Statement (.syswr d n s h) := by
  intro _ w e
  cases e
  left
  rw [decode_encA_gang _ _ _ _ _ _ _ (by decide)]
  refine (need_ok ?_).trans ?_
  · rw [fW_encA]
    rfl
  · change Except.ok (Instr.syswr (fD _) (fA _ ++ fB _) (fS _) (fH _)) = _
    rw [fD_encA, fA_encA, fB_encA, fS_encA, fH_encA, sysNo_append]

theorem RoundTrip.stepMark s : RoundTrip.Statement (.stepMark s) := by
  intro _ w e
  cases e
  left
  rw [decode_encA_gang _ _ _ _ _ _ _ (by decide)]
  refine (need_ok ?_).trans ?_
  · rw [fD_encA, fA_encA, fB_encA, fW_encA, fH_encA]
    rfl
  · change Except.ok (Instr.stepMark (fS _)) = _
    rw [fS_encA]

theorem RoundTrip.movsGet d i w h : RoundTrip.Statement (.movsGet d i w h) := by
  intro _ w e
  cases e
  left
  rw [decode_encA_gang _ _ _ _ _ _ _ (by decide)]
  refine (if_pos ?_).trans ((need_ok ?_).trans ?_)
  · rw [fB_encA]
    rfl
  · rw [fS_encA]
    rfl
  · change Except.ok (Instr.movsGet (fD _) (fA _) (fW _) (fH _)) = _
    rw [fD_encA, fA_encA, fW_encA, fH_encA]

theorem RoundTrip.movsPut i a h : RoundTrip.Statement (.movsPut i a h) := by
  intro _ w e
  cases e
  left
  rw [decode_encA_gang _ _ _ _ _ _ _ (by decide)]
  refine (if_neg ?_).trans ((need_ok ?_).trans ?_)
  · rw [fB_encA]
    decide
  · rw [fB_encA, fS_encA, fW_encA]
    rfl
  · change Except.ok (Instr.movsPut (fD _) (fA _) (fH _)) = _
    rw [fD_encA, fA_encA, fH_encA]

theorem RoundTrip.autoSeal ctx core v : RoundTrip.Statement (.autoSeal ctx core v) := by
  intro _ w e
  cases e

theorem RoundTrip.autoUnseal ctx v : RoundTrip.Statement (.autoUnseal ctx v) := by
  intro _ w e
  cases e

theorem RoundTrip.vregDesignate ctx core v : RoundTrip.Statement (.vregDesignate ctx core v) := by
  intro _ w e
  cases e

theorem RoundTrip.vregRelease ctx core v : RoundTrip.Statement (.vregRelease ctx core v) := by
  intro _ w e
  cases e

theorem RoundTrip.secUnlock core : RoundTrip.Statement (.secUnlock core) := by
  intro _ w e
  cases e

theorem RoundTrip.secAttest core : RoundTrip.Statement (.secAttest core) := by
  intro _ w e
  cases e

theorem RoundTrip.secIdentity core : RoundTrip.Statement (.secIdentity core) := by
  intro _ w e
  cases e

theorem RoundTrip.secCommandDone : RoundTrip.Statement (.secCommandDone) := by
  intro _ w e
  cases e

theorem RoundTrip.tlbInvPage ctx v : RoundTrip.Statement (.tlbInvPage ctx v) := by
  intro _ w e
  cases e

theorem RoundTrip.tlbInvAll ctx v : RoundTrip.Statement (.tlbInvAll ctx v) := by
  intro _ w e
  cases e

theorem RoundTrip.tlbInvComplete ctx : RoundTrip.Statement (.tlbInvComplete ctx) := by
  intro _ w e
  cases e

theorem RoundTrip.ptRootWrite ctx high v : RoundTrip.Statement (.ptRootWrite ctx high v) := by
  intro _ w e
  cases e

theorem RoundTrip.quiesceRequest ctx : RoundTrip.Statement (.quiesceRequest ctx) := by
  intro _ w e
  cases e

theorem RoundTrip.quiesceRelease ctx : RoundTrip.Statement (.quiesceRelease ctx) := by
  intro _ w e
  cases e

theorem RoundTrip.waitBoundWrite ctx v : RoundTrip.Statement (.waitBoundWrite ctx v) := by
  intro _ w e
  cases e

theorem RoundTrip.runBoundWrite ctx v : RoundTrip.Statement (.runBoundWrite ctx v) := by
  intro _ w e
  cases e

theorem RoundTrip.vdirDataRead ctx : RoundTrip.Statement (.vdirDataRead ctx) := by
  intro _ w e
  cases e

theorem RoundTrip.submit m recs : RoundTrip.Statement (.submit m recs) := by
  intro _ w e
  cases e

theorem RoundTrip.memwr m addr bytes : RoundTrip.Statement (.memwr m addr bytes) := by
  intro _ w e
  cases e

theorem RoundTrip.memrd m addr len : RoundTrip.Statement (.memrd m addr len) := by
  intro _ w e
  cases e

theorem RoundTrip.hostFlush m addr len : RoundTrip.Statement (.hostFlush m addr len) := by
  intro _ w e
  cases e

theorem RoundTrip.hostQuiesceRequest m : RoundTrip.Statement (.hostQuiesceRequest m) := by
  intro _ w e
  cases e

theorem RoundTrip.hostQuiesceRelease m : RoundTrip.Statement (.hostQuiesceRelease m) := by
  intro _ w e
  cases e

theorem RoundTrip.coll m rec : RoundTrip.Statement (.coll m rec) := by
  intro _ w e
  cases e

theorem RoundTrip.collComplete die peers : RoundTrip.Statement (.collComplete die peers) := by
  intro _ w e
  cases e

theorem RoundTrip.collMemberFail ctx group rank : RoundTrip.Statement (.collMemberFail ctx group rank) := by
  intro _ w e
  cases e

theorem RoundTrip.loadObj m piece bytes : RoundTrip.Statement (.loadObj m piece bytes) := by
  intro _ w e
  cases e

theorem RoundTrip.loadp m piece bytes : RoundTrip.Statement (.loadp m piece bytes) := by
  intro _ w e
  cases e

theorem RoundTrip.unload m handle : RoundTrip.Statement (.unload m handle) := by
  intro _ w e
  cases e

theorem RoundTrip.handlerName m name : RoundTrip.Statement (.handlerName m name) := by
  intro _ w e
  cases e

theorem RoundTrip.cacheinv m key : RoundTrip.Statement (.cacheinv m key) := by
  intro _ w e
  cases e

theorem RoundTrip.fwload m piece bytes : RoundTrip.Statement (.fwload m piece bytes) := by
  intro _ w e
  cases e

theorem RoundTrip.openCtx m payload psk : RoundTrip.Statement (.openCtx m payload psk) := by
  intro _ w e
  cases e

theorem RoundTrip.endCtx m : RoundTrip.Statement (.endCtx m) := by
  intro _ w e
  cases e

theorem RoundTrip.healthQ m : RoundTrip.Statement (.healthQ m) := by
  intro _ w e
  cases e

theorem RoundTrip.pageServiceAnswer rec resolved : RoundTrip.Statement (.pageServiceAnswer rec resolved) := by
  intro _ w e
  cases e

theorem RoundTrip.unreliablePacketDrop : RoundTrip.Statement (.unreliablePacketDrop) := by
  intro _ w e
  cases e

theorem RoundTrip.issueQueuePerform id lane : RoundTrip.Statement (.issueQueuePerform id lane) := by
  intro _ w e
  cases e

theorem RoundTrip.storeBufferApply id : RoundTrip.Statement (.storeBufferApply id) := by
  intro _ w e
  cases e

theorem RoundTrip.applyQueueTake die id : RoundTrip.Statement (.applyQueueTake die id) := by
  intro _ w e
  cases e

theorem RoundTrip.homeUpdateArrival id : RoundTrip.Statement (.homeUpdateArrival id) := by
  intro _ w e
  cases e

theorem RoundTrip.gutterReplay id : RoundTrip.Statement (.gutterReplay id) := by
  intro _ w e
  cases e

theorem RoundTrip.translationWalkComplete die ctx page : RoundTrip.Statement (.translationWalkComplete die ctx page) := by
  intro _ w e
  cases e

theorem RoundTrip.barArrivalCounted id : RoundTrip.Statement (.barArrivalCounted id) := by
  intro _ w e
  cases e

theorem RoundTrip.cohJoinTimeout u : RoundTrip.Statement (.cohJoinTimeout u) := by
  intro _ w e
  cases e

theorem RoundTrip.barWaitBoundExpire u : RoundTrip.Statement (.barWaitBoundExpire u) := by
  intro _ w e
  cases e

theorem RoundTrip.tlWaitBoundExpire u : RoundTrip.Statement (.tlWaitBoundExpire u) := by
  intro _ w e
  cases e

theorem RoundTrip.versionWaitBoundExpire u : RoundTrip.Statement (.versionWaitBoundExpire u) := by
  intro _ w e
  cases e

theorem RoundTrip.vpubPublish core xp cmd : RoundTrip.Statement (.vpubPublish core xp cmd) := by
  intro _ w e
  cases e

theorem RoundTrip.copyProgramBegin core xp : RoundTrip.Statement (.copyProgramBegin core xp) := by
  intro _ w e
  cases e

theorem RoundTrip.copyWriteComplete core xp cmd dst : RoundTrip.Statement (.copyWriteComplete core xp cmd dst) := by
  intro _ w e
  cases e

theorem RoundTrip.copyCommandComplete core xp cmd : RoundTrip.Statement (.copyCommandComplete core xp cmd) := by
  intro _ w e
  cases e

theorem RoundTrip.copyWaitBoundExpire core xp : RoundTrip.Statement (.copyWaitBoundExpire core xp) := by
  intro _ w e
  cases e

theorem RoundTrip.followMtileIssue core xp slot : RoundTrip.Statement (.followMtileIssue core xp slot) := by
  intro _ w e
  cases e

theorem RoundTrip.matrixCommandExecute core : RoundTrip.Statement (.matrixCommandExecute core) := by
  intro _ w e
  cases e

theorem RoundTrip.drainPortBoundExpire core : RoundTrip.Statement (.drainPortBoundExpire core) := by
  intro _ w e
  cases e

theorem RoundTrip.matrixStateSave core : RoundTrip.Statement (.matrixStateSave core) := by
  intro _ w e
  cases e

theorem RoundTrip.matrixStateRestore core : RoundTrip.Statement (.matrixStateRestore core) := by
  intro _ w e
  cases e

theorem RoundTrip.purlinRefreshStart die : RoundTrip.Statement (.purlinRefreshStart die) := by
  intro _ w e
  cases e

theorem RoundTrip.purlinRefreshEnd die : RoundTrip.Statement (.purlinRefreshEnd die) := by
  intro _ w e
  cases e

theorem RoundTrip.holdLapse u p : RoundTrip.Statement (.holdLapse u p) := by
  intro _ w e
  cases e

theorem RoundTrip.yieldExpire u : RoundTrip.Statement (.yieldExpire u) := by
  intro _ w e
  cases e

theorem RoundTrip.ageLimitReached u : RoundTrip.Statement (.ageLimitReached u) := by
  intro _ w e
  cases e

theorem RoundTrip.deferredCauseDelivery gk : RoundTrip.Statement (.deferredCauseDelivery gk) := by
  intro _ w e
  cases e

theorem RoundTrip.handlerInstanceStart core : RoundTrip.Statement (.handlerInstanceStart core) := by
  intro _ w e
  cases e

theorem RoundTrip.runBoundWatchdog u : RoundTrip.Statement (.runBoundWatchdog u) := by
  intro _ w e
  cases e

theorem RoundTrip.admitUnit node cores : RoundTrip.Statement (.admitUnit node cores) := by
  intro _ w e
  cases e

theorem RoundTrip.admissionSkipTimeout node : RoundTrip.Statement (.admissionSkipTimeout node) := by
  intro _ w e
  cases e

theorem RoundTrip.gangSaveComplete gk : RoundTrip.Statement (.gangSaveComplete gk) := by
  intro _ w e
  cases e

theorem RoundTrip.gangReadmit gk : RoundTrip.Statement (.gangReadmit gk) := by
  intro _ w e
  cases e

theorem RoundTrip.readmitBoundSwap ctx core : RoundTrip.Statement (.readmitBoundSwap ctx core) := by
  intro _ w e
  cases e

theorem RoundTrip.sweeperRenew ctx core idx : RoundTrip.Statement (.sweeperRenew ctx core idx) := by
  intro _ w e
  cases e

theorem RoundTrip.bufferRestoreStart ctx core idx : RoundTrip.Statement (.bufferRestoreStart ctx core idx) := by
  intro _ w e
  cases e

theorem RoundTrip.bufferRestoreComplete ctx core idx : RoundTrip.Statement (.bufferRestoreComplete ctx core idx) := by
  intro _ w e
  cases e

theorem RoundTrip.quiesceCutComplete ctx : RoundTrip.Statement (.quiesceCutComplete ctx) := by
  intro _ w e
  cases e

theorem RoundTrip.quiesceBoundExpire ctx : RoundTrip.Statement (.quiesceBoundExpire ctx) := by
  intro _ w e
  cases e

theorem RoundTrip.nodeComplete node : RoundTrip.Statement (.nodeComplete node) := by
  intro _ w e
  cases e

theorem RoundTrip.scrubVisit purlin unit addr : RoundTrip.Statement (.scrubVisit purlin unit addr) := by
  intro _ w e
  cases e

theorem RoundTrip.controlParityError core : RoundTrip.Statement (.controlParityError core) := by
  intro _ w e
  cases e

theorem RoundTrip.errorRateThreshold core : RoundTrip.Statement (.errorRateThreshold core) := by
  intro _ w e
  cases e

theorem RoundTrip.predictiveFailureTimeout core : RoundTrip.Statement (.predictiveFailureTimeout core) := by
  intro _ w e
  cases e

theorem RoundTrip.oppLower : RoundTrip.Statement (.oppLower) := by
  intro _ w e
  cases e

theorem RoundTrip.oppRaise : RoundTrip.Statement (.oppRaise) := by
  intro _ w e
  cases e

theorem RoundTrip.oppChangeComplete : RoundTrip.Statement (.oppChangeComplete) := by
  intro _ w e
  cases e

theorem RoundTrip.overLimitShutdown rail core : RoundTrip.Statement (.overLimitShutdown rail core) := by
  intro _ w e
  cases e

theorem RoundTrip.powerUp : RoundTrip.Statement (.powerUp) := by
  intro _ w e
  cases e

theorem RoundTrip.lifecycleAdvance st : RoundTrip.Statement (.lifecycleAdvance st) := by
  intro _ w e
  cases e

theorem RoundTrip.bufferExpiry ctx core idx : RoundTrip.Statement (.bufferExpiry ctx core idx) := by
  intro _ w e
  cases e

theorem RoundTrip.renewalComplete ctx core idx : RoundTrip.Statement (.renewalComplete ctx core idx) := by
  intro _ w e
  cases e

theorem RoundTrip.ridgeLinkError gk lanes target pc : RoundTrip.Statement (.ridgeLinkError gk lanes target pc) := by
  intro _ w e
  cases e

theorem RoundTrip.powerLoss : RoundTrip.Statement (.powerLoss) := by
  intro _ w e
  cases e

theorem RoundTrip.debugPortRequest u step bp : RoundTrip.Statement (.debugPortRequest u step bp) := by
  intro _ w e
  cases e

theorem RoundTrip.malformedMessage ses m : RoundTrip.Statement (.malformedMessage ses m) := by
  intro _ w e
  cases e

theorem RoundTrip.railUndervolt core : RoundTrip.Statement (.railUndervolt core) := by
  intro _ w e
  cases e

theorem RoundTrip.errorRateBelowThreshold core : RoundTrip.Statement (.errorRateBelowThreshold core) := by
  intro _ w e
  cases e

theorem RoundTrip.xpNop : RoundTrip.Statement (.xpNop) := by
  intro _ w e
  cases e
  right
  have h26_6 : BitVec.extractLsb' 26 6 (0x00#6 ++ 0#26 : Word) = 0#6 := by
    change @BitVec.extractLsb' (6 + 26) 26 6 _ = _
    rw [BitVec.extractLsb'_append_eq_of_le (by decide)]
    rfl
  have h30_2 : BitVec.extractLsb' 30 2 (0x00#6 ++ 0#26 : Word) = 0#2 := by
    change @BitVec.extractLsb' (6 + 26) 30 2 _ = _
    rw [BitVec.extractLsb'_append_eq_of_le (by decide)]
    rfl
  have h0_26 : BitVec.extractLsb' 0 26 (0x00#6 ++ 0#26 : Word) = 0#26 := by
    change @BitVec.extractLsb' (6 + 26) 0 26 _ = _
    rw [BitVec.extractLsb'_append_eq_of_add_le (by decide)]
    rfl
  show decodeXp (0x00#6 ++ 0#26 : Word) = _
  refine (decodeXp_op (by rw [h30_2]; decide) h26_6).trans ?_
  refine (xneed_ok ?_).trans ?_
  · change (BitVec.extractLsb' 0 26 _ == 0#26) = true
    rw [h0_26]
    rfl
  · rfl

theorem RoundTrip.xpHalt : RoundTrip.Statement (.xpHalt) := by
  intro _ w e
  cases e
  right
  have h26_6 : BitVec.extractLsb' 26 6 (0x01#6 ++ 0#26 : Word) = 1#6 := by
    change @BitVec.extractLsb' (6 + 26) 26 6 _ = _
    rw [BitVec.extractLsb'_append_eq_of_le (by decide)]
    rfl
  have h30_2 : BitVec.extractLsb' 30 2 (0x01#6 ++ 0#26 : Word) = 0#2 := by
    change @BitVec.extractLsb' (6 + 26) 30 2 _ = _
    rw [BitVec.extractLsb'_append_eq_of_le (by decide)]
    rfl
  have h0_26 : BitVec.extractLsb' 0 26 (0x01#6 ++ 0#26 : Word) = 0#26 := by
    change @BitVec.extractLsb' (6 + 26) 0 26 _ = _
    rw [BitVec.extractLsb'_append_eq_of_add_le (by decide)]
    rfl
  show decodeXp (0x01#6 ++ 0#26 : Word) = _
  refine (decodeXp_op (by rw [h30_2]; decide) h26_6).trans ?_
  refine (xneed_ok ?_).trans ?_
  · change (BitVec.extractLsb' 0 26 _ == 0#26) = true
    rw [h0_26]
    rfl
  · rfl

theorem RoundTrip.xpMovi d hs m : RoundTrip.Statement (.xpMovi d hs m) := by
  intro _ w e
  cases e
  right
  have h26_6 : BitVec.extractLsb' 26 6 (0x02#6 ++ d ++ BitVec.ofBool hs ++ 0#5 ++ m : Word) = 2#6 := by
    change @BitVec.extractLsb' (6 + 4 + 1 + 5 + 16) 26 6 _ = _
    rw [BitVec.extractLsb'_append_eq_of_le (by decide)]
    rw [BitVec.extractLsb'_append_eq_of_le (by decide)]
    rw [BitVec.extractLsb'_append_eq_of_le (by decide)]
    rw [BitVec.extractLsb'_append_eq_of_le (by decide)]
    rfl
  have h30_2 : BitVec.extractLsb' 30 2 (0x02#6 ++ d ++ BitVec.ofBool hs ++ 0#5 ++ m : Word) = 0#2 := by
    change @BitVec.extractLsb' (6 + 4 + 1 + 5 + 16) 30 2 _ = _
    rw [BitVec.extractLsb'_append_eq_of_le (by decide)]
    rw [BitVec.extractLsb'_append_eq_of_le (by decide)]
    rw [BitVec.extractLsb'_append_eq_of_le (by decide)]
    rw [BitVec.extractLsb'_append_eq_of_le (by decide)]
    rfl
  have h16_5 : BitVec.extractLsb' 16 5 (0x02#6 ++ d ++ BitVec.ofBool hs ++ 0#5 ++ m : Word) = 0#5 := by
    change @BitVec.extractLsb' (6 + 4 + 1 + 5 + 16) 16 5 _ = _
    rw [BitVec.extractLsb'_append_eq_of_le (by decide)]
    rw [BitVec.extractLsb'_append_eq_of_add_le (by decide)]
    rfl
  have h22_4 : BitVec.extractLsb' 22 4 (0x02#6 ++ d ++ BitVec.ofBool hs ++ 0#5 ++ m : Word) = d := by
    change @BitVec.extractLsb' (6 + 4 + 1 + 5 + 16) 22 4 _ = _
    rw [BitVec.extractLsb'_append_eq_of_le (by decide)]
    rw [BitVec.extractLsb'_append_eq_of_le (by decide)]
    rw [BitVec.extractLsb'_append_eq_of_le (by decide)]
    rw [BitVec.extractLsb'_append_eq_of_add_le (by decide), BitVec.extractLsb'_eq_self]
  have h21_1 : (0x02#6 ++ d ++ BitVec.ofBool hs ++ 0#5 ++ m : Word).getLsbD 21 = hs := by
    change @BitVec.getLsbD (6 + 4 + 1 + 5 + 16) _ 21 = _
    rw [getLsbD_append_hi _ _ _ (by decide)]
    rw [getLsbD_append_hi _ _ _ (by decide)]
    rw [getLsbD_append_lo _ _ _ (by decide)]
    cases hs <;> rfl
  have h0_16 : BitVec.extractLsb' 0 16 (0x02#6 ++ d ++ BitVec.ofBool hs ++ 0#5 ++ m : Word) = m := by
    change @BitVec.extractLsb' (6 + 4 + 1 + 5 + 16) 0 16 _ = _
    rw [BitVec.extractLsb'_append_eq_of_add_le (by decide), BitVec.extractLsb'_eq_self]
  show decodeXp (0x02#6 ++ d ++ BitVec.ofBool hs ++ 0#5 ++ m : Word) = _
  refine (decodeXp_op (by rw [h30_2]; decide) h26_6).trans ?_
  refine (xneed_ok ?_).trans ?_
  · change (BitVec.extractLsb' 16 5 _ == 0#5) = true
    rw [h16_5]
    rfl
  · change Except.ok (Instr.xpMovi (BitVec.extractLsb' 22 4 _) (BitVec.getLsbD _ 21) (BitVec.extractLsb' 0 16 _)) = _
    rw [h22_4, h21_1, h0_16]

theorem RoundTrip.xpLdx d l o : RoundTrip.Statement (.xpLdx d l o) := by
  intro _ w e
  cases e
  right
  have h26_6 : BitVec.extractLsb' 26 6 (0x03#6 ++ d ++ l ++ 0#3 ++ o : Word) = 3#6 := by
    change @BitVec.extractLsb' (6 + 4 + 3 + 3 + 16) 26 6 _ = _
    rw [BitVec.extractLsb'_append_eq_of_le (by decide)]
    rw [BitVec.extractLsb'_append_eq_of_le (by decide)]
    rw [BitVec.extractLsb'_append_eq_of_le (by decide)]
    rw [BitVec.extractLsb'_append_eq_of_le (by decide)]
    rfl
  have h30_2 : BitVec.extractLsb' 30 2 (0x03#6 ++ d ++ l ++ 0#3 ++ o : Word) = 0#2 := by
    change @BitVec.extractLsb' (6 + 4 + 3 + 3 + 16) 30 2 _ = _
    rw [BitVec.extractLsb'_append_eq_of_le (by decide)]
    rw [BitVec.extractLsb'_append_eq_of_le (by decide)]
    rw [BitVec.extractLsb'_append_eq_of_le (by decide)]
    rw [BitVec.extractLsb'_append_eq_of_le (by decide)]
    rfl
  have h16_3 : BitVec.extractLsb' 16 3 (0x03#6 ++ d ++ l ++ 0#3 ++ o : Word) = 0#3 := by
    change @BitVec.extractLsb' (6 + 4 + 3 + 3 + 16) 16 3 _ = _
    rw [BitVec.extractLsb'_append_eq_of_le (by decide)]
    rw [BitVec.extractLsb'_append_eq_of_add_le (by decide)]
    rfl
  have h22_4 : BitVec.extractLsb' 22 4 (0x03#6 ++ d ++ l ++ 0#3 ++ o : Word) = d := by
    change @BitVec.extractLsb' (6 + 4 + 3 + 3 + 16) 22 4 _ = _
    rw [BitVec.extractLsb'_append_eq_of_le (by decide)]
    rw [BitVec.extractLsb'_append_eq_of_le (by decide)]
    rw [BitVec.extractLsb'_append_eq_of_le (by decide)]
    rw [BitVec.extractLsb'_append_eq_of_add_le (by decide), BitVec.extractLsb'_eq_self]
  have h19_3 : BitVec.extractLsb' 19 3 (0x03#6 ++ d ++ l ++ 0#3 ++ o : Word) = l := by
    change @BitVec.extractLsb' (6 + 4 + 3 + 3 + 16) 19 3 _ = _
    rw [BitVec.extractLsb'_append_eq_of_le (by decide)]
    rw [BitVec.extractLsb'_append_eq_of_le (by decide)]
    rw [BitVec.extractLsb'_append_eq_of_add_le (by decide), BitVec.extractLsb'_eq_self]
  have h0_16 : BitVec.extractLsb' 0 16 (0x03#6 ++ d ++ l ++ 0#3 ++ o : Word) = o := by
    change @BitVec.extractLsb' (6 + 4 + 3 + 3 + 16) 0 16 _ = _
    rw [BitVec.extractLsb'_append_eq_of_add_le (by decide), BitVec.extractLsb'_eq_self]
  show decodeXp (0x03#6 ++ d ++ l ++ 0#3 ++ o : Word) = _
  refine (decodeXp_op (by rw [h30_2]; decide) h26_6).trans ?_
  refine (xneed_ok ?_).trans ?_
  · change (BitVec.extractLsb' 16 3 _ == 0#3) = true
    rw [h16_3]
    rfl
  · change Except.ok (Instr.xpLdx (BitVec.extractLsb' 22 4 _) (BitVec.extractLsb' 19 3 _) (BitVec.extractLsb' 0 16 _)) = _
    rw [h22_4, h19_3, h0_16]

theorem RoundTrip.xpAddReg o : RoundTrip.Statement (.xpAddReg o) := by
  intro _ w e
  cases e
  right
  have h26_6 : BitVec.extractLsb' 26 6 (0x04#6 ++ o.d ++ o.a ++ 0#1 ++ o.b ++ 0#13 : Word) = 4#6 := by
    change @BitVec.extractLsb' (6 + 4 + 4 + 1 + 4 + 13) 26 6 _ = _
    rw [BitVec.extractLsb'_append_eq_of_le (by decide)]
    rw [BitVec.extractLsb'_append_eq_of_le (by decide)]
    rw [BitVec.extractLsb'_append_eq_of_le (by decide)]
    rw [BitVec.extractLsb'_append_eq_of_le (by decide)]
    rw [BitVec.extractLsb'_append_eq_of_le (by decide)]
    rfl
  have h30_2 : BitVec.extractLsb' 30 2 (0x04#6 ++ o.d ++ o.a ++ 0#1 ++ o.b ++ 0#13 : Word) = 0#2 := by
    change @BitVec.extractLsb' (6 + 4 + 4 + 1 + 4 + 13) 30 2 _ = _
    rw [BitVec.extractLsb'_append_eq_of_le (by decide)]
    rw [BitVec.extractLsb'_append_eq_of_le (by decide)]
    rw [BitVec.extractLsb'_append_eq_of_le (by decide)]
    rw [BitVec.extractLsb'_append_eq_of_le (by decide)]
    rw [BitVec.extractLsb'_append_eq_of_le (by decide)]
    rfl
  have h17_1 : (0x04#6 ++ o.d ++ o.a ++ 0#1 ++ o.b ++ 0#13 : Word).getLsbD 17 = false := by
    change @BitVec.getLsbD (6 + 4 + 4 + 1 + 4 + 13) _ 17 = _
    rw [getLsbD_append_hi _ _ _ (by decide)]
    rw [getLsbD_append_hi _ _ _ (by decide)]
    rw [getLsbD_append_lo _ _ _ (by decide)]
    rfl
  have h0_13 : BitVec.extractLsb' 0 13 (0x04#6 ++ o.d ++ o.a ++ 0#1 ++ o.b ++ 0#13 : Word) = 0#13 := by
    change @BitVec.extractLsb' (6 + 4 + 4 + 1 + 4 + 13) 0 13 _ = _
    rw [BitVec.extractLsb'_append_eq_of_add_le (by decide)]
    rfl
  have h22_4 : BitVec.extractLsb' 22 4 (0x04#6 ++ o.d ++ o.a ++ 0#1 ++ o.b ++ 0#13 : Word) = o.d := by
    change @BitVec.extractLsb' (6 + 4 + 4 + 1 + 4 + 13) 22 4 _ = _
    rw [BitVec.extractLsb'_append_eq_of_le (by decide)]
    rw [BitVec.extractLsb'_append_eq_of_le (by decide)]
    rw [BitVec.extractLsb'_append_eq_of_le (by decide)]
    rw [BitVec.extractLsb'_append_eq_of_le (by decide)]
    rw [BitVec.extractLsb'_append_eq_of_add_le (by decide), BitVec.extractLsb'_eq_self]
  have h18_4 : BitVec.extractLsb' 18 4 (0x04#6 ++ o.d ++ o.a ++ 0#1 ++ o.b ++ 0#13 : Word) = o.a := by
    change @BitVec.extractLsb' (6 + 4 + 4 + 1 + 4 + 13) 18 4 _ = _
    rw [BitVec.extractLsb'_append_eq_of_le (by decide)]
    rw [BitVec.extractLsb'_append_eq_of_le (by decide)]
    rw [BitVec.extractLsb'_append_eq_of_le (by decide)]
    rw [BitVec.extractLsb'_append_eq_of_add_le (by decide), BitVec.extractLsb'_eq_self]
  have h13_4 : BitVec.extractLsb' 13 4 (0x04#6 ++ o.d ++ o.a ++ 0#1 ++ o.b ++ 0#13 : Word) = o.b := by
    change @BitVec.extractLsb' (6 + 4 + 4 + 1 + 4 + 13) 13 4 _ = _
    rw [BitVec.extractLsb'_append_eq_of_le (by decide)]
    rw [BitVec.extractLsb'_append_eq_of_add_le (by decide), BitVec.extractLsb'_eq_self]
  show decodeXp (0x04#6 ++ o.d ++ o.a ++ 0#1 ++ o.b ++ 0#13 : Word) = _
  refine (decodeXp_op (by rw [h30_2]; decide) h26_6).trans ?_
  refine (if_neg (by rw [h17_1]; decide)).trans ?_
  refine (xneed_ok ?_).trans ?_
  · change (BitVec.extractLsb' 0 13 _ == 0#13) = true
    rw [h0_13]
    rfl
  · change Except.ok (Instr.xpAddReg ⟨BitVec.extractLsb' 22 4 _, BitVec.extractLsb' 18 4 _, BitVec.extractLsb' 13 4 _⟩) = _
    rw [h22_4, h18_4, h13_4]

theorem RoundTrip.xpAddImm o : RoundTrip.Statement (.xpAddImm o) := by
  intro _ w e
  cases e
  right
  have h26_6 : BitVec.extractLsb' 26 6 (0x04#6 ++ o.d ++ o.a ++ 1#1 ++ o.i : Word) = 4#6 := by
    change @BitVec.extractLsb' (6 + 4 + 4 + 1 + 17) 26 6 _ = _
    rw [BitVec.extractLsb'_append_eq_of_le (by decide)]
    rw [BitVec.extractLsb'_append_eq_of_le (by decide)]
    rw [BitVec.extractLsb'_append_eq_of_le (by decide)]
    rw [BitVec.extractLsb'_append_eq_of_le (by decide)]
    rfl
  have h30_2 : BitVec.extractLsb' 30 2 (0x04#6 ++ o.d ++ o.a ++ 1#1 ++ o.i : Word) = 0#2 := by
    change @BitVec.extractLsb' (6 + 4 + 4 + 1 + 17) 30 2 _ = _
    rw [BitVec.extractLsb'_append_eq_of_le (by decide)]
    rw [BitVec.extractLsb'_append_eq_of_le (by decide)]
    rw [BitVec.extractLsb'_append_eq_of_le (by decide)]
    rw [BitVec.extractLsb'_append_eq_of_le (by decide)]
    rfl
  have h17_1 : (0x04#6 ++ o.d ++ o.a ++ 1#1 ++ o.i : Word).getLsbD 17 = true := by
    change @BitVec.getLsbD (6 + 4 + 4 + 1 + 17) _ 17 = _
    rw [getLsbD_append_hi _ _ _ (by decide)]
    rw [getLsbD_append_lo _ _ _ (by decide)]
    rfl
  have h22_4 : BitVec.extractLsb' 22 4 (0x04#6 ++ o.d ++ o.a ++ 1#1 ++ o.i : Word) = o.d := by
    change @BitVec.extractLsb' (6 + 4 + 4 + 1 + 17) 22 4 _ = _
    rw [BitVec.extractLsb'_append_eq_of_le (by decide)]
    rw [BitVec.extractLsb'_append_eq_of_le (by decide)]
    rw [BitVec.extractLsb'_append_eq_of_le (by decide)]
    rw [BitVec.extractLsb'_append_eq_of_add_le (by decide), BitVec.extractLsb'_eq_self]
  have h18_4 : BitVec.extractLsb' 18 4 (0x04#6 ++ o.d ++ o.a ++ 1#1 ++ o.i : Word) = o.a := by
    change @BitVec.extractLsb' (6 + 4 + 4 + 1 + 17) 18 4 _ = _
    rw [BitVec.extractLsb'_append_eq_of_le (by decide)]
    rw [BitVec.extractLsb'_append_eq_of_le (by decide)]
    rw [BitVec.extractLsb'_append_eq_of_add_le (by decide), BitVec.extractLsb'_eq_self]
  have h0_17 : BitVec.extractLsb' 0 17 (0x04#6 ++ o.d ++ o.a ++ 1#1 ++ o.i : Word) = o.i := by
    change @BitVec.extractLsb' (6 + 4 + 4 + 1 + 17) 0 17 _ = _
    rw [BitVec.extractLsb'_append_eq_of_add_le (by decide), BitVec.extractLsb'_eq_self]
  show decodeXp (0x04#6 ++ o.d ++ o.a ++ 1#1 ++ o.i : Word) = _
  refine (decodeXp_op (by rw [h30_2]; decide) h26_6).trans ?_
  refine (if_pos h17_1).trans ?_
  change Except.ok (Instr.xpAddImm ⟨BitVec.extractLsb' 22 4 _, BitVec.extractLsb' 18 4 _, BitVec.extractLsb' 0 17 _⟩) = _
  rw [h22_4, h18_4, h0_17]

theorem RoundTrip.xpSubReg o : RoundTrip.Statement (.xpSubReg o) := by
  intro _ w e
  cases e
  right
  have h26_6 : BitVec.extractLsb' 26 6 (0x05#6 ++ o.d ++ o.a ++ 0#1 ++ o.b ++ 0#13 : Word) = 5#6 := by
    change @BitVec.extractLsb' (6 + 4 + 4 + 1 + 4 + 13) 26 6 _ = _
    rw [BitVec.extractLsb'_append_eq_of_le (by decide)]
    rw [BitVec.extractLsb'_append_eq_of_le (by decide)]
    rw [BitVec.extractLsb'_append_eq_of_le (by decide)]
    rw [BitVec.extractLsb'_append_eq_of_le (by decide)]
    rw [BitVec.extractLsb'_append_eq_of_le (by decide)]
    rfl
  have h30_2 : BitVec.extractLsb' 30 2 (0x05#6 ++ o.d ++ o.a ++ 0#1 ++ o.b ++ 0#13 : Word) = 0#2 := by
    change @BitVec.extractLsb' (6 + 4 + 4 + 1 + 4 + 13) 30 2 _ = _
    rw [BitVec.extractLsb'_append_eq_of_le (by decide)]
    rw [BitVec.extractLsb'_append_eq_of_le (by decide)]
    rw [BitVec.extractLsb'_append_eq_of_le (by decide)]
    rw [BitVec.extractLsb'_append_eq_of_le (by decide)]
    rw [BitVec.extractLsb'_append_eq_of_le (by decide)]
    rfl
  have h17_1 : (0x05#6 ++ o.d ++ o.a ++ 0#1 ++ o.b ++ 0#13 : Word).getLsbD 17 = false := by
    change @BitVec.getLsbD (6 + 4 + 4 + 1 + 4 + 13) _ 17 = _
    rw [getLsbD_append_hi _ _ _ (by decide)]
    rw [getLsbD_append_hi _ _ _ (by decide)]
    rw [getLsbD_append_lo _ _ _ (by decide)]
    rfl
  have h0_13 : BitVec.extractLsb' 0 13 (0x05#6 ++ o.d ++ o.a ++ 0#1 ++ o.b ++ 0#13 : Word) = 0#13 := by
    change @BitVec.extractLsb' (6 + 4 + 4 + 1 + 4 + 13) 0 13 _ = _
    rw [BitVec.extractLsb'_append_eq_of_add_le (by decide)]
    rfl
  have h22_4 : BitVec.extractLsb' 22 4 (0x05#6 ++ o.d ++ o.a ++ 0#1 ++ o.b ++ 0#13 : Word) = o.d := by
    change @BitVec.extractLsb' (6 + 4 + 4 + 1 + 4 + 13) 22 4 _ = _
    rw [BitVec.extractLsb'_append_eq_of_le (by decide)]
    rw [BitVec.extractLsb'_append_eq_of_le (by decide)]
    rw [BitVec.extractLsb'_append_eq_of_le (by decide)]
    rw [BitVec.extractLsb'_append_eq_of_le (by decide)]
    rw [BitVec.extractLsb'_append_eq_of_add_le (by decide), BitVec.extractLsb'_eq_self]
  have h18_4 : BitVec.extractLsb' 18 4 (0x05#6 ++ o.d ++ o.a ++ 0#1 ++ o.b ++ 0#13 : Word) = o.a := by
    change @BitVec.extractLsb' (6 + 4 + 4 + 1 + 4 + 13) 18 4 _ = _
    rw [BitVec.extractLsb'_append_eq_of_le (by decide)]
    rw [BitVec.extractLsb'_append_eq_of_le (by decide)]
    rw [BitVec.extractLsb'_append_eq_of_le (by decide)]
    rw [BitVec.extractLsb'_append_eq_of_add_le (by decide), BitVec.extractLsb'_eq_self]
  have h13_4 : BitVec.extractLsb' 13 4 (0x05#6 ++ o.d ++ o.a ++ 0#1 ++ o.b ++ 0#13 : Word) = o.b := by
    change @BitVec.extractLsb' (6 + 4 + 4 + 1 + 4 + 13) 13 4 _ = _
    rw [BitVec.extractLsb'_append_eq_of_le (by decide)]
    rw [BitVec.extractLsb'_append_eq_of_add_le (by decide), BitVec.extractLsb'_eq_self]
  show decodeXp (0x05#6 ++ o.d ++ o.a ++ 0#1 ++ o.b ++ 0#13 : Word) = _
  refine (decodeXp_op (by rw [h30_2]; decide) h26_6).trans ?_
  refine (if_neg (by rw [h17_1]; decide)).trans ?_
  refine (xneed_ok ?_).trans ?_
  · change (BitVec.extractLsb' 0 13 _ == 0#13) = true
    rw [h0_13]
    rfl
  · change Except.ok (Instr.xpSubReg ⟨BitVec.extractLsb' 22 4 _, BitVec.extractLsb' 18 4 _, BitVec.extractLsb' 13 4 _⟩) = _
    rw [h22_4, h18_4, h13_4]

theorem RoundTrip.xpSubImm o : RoundTrip.Statement (.xpSubImm o) := by
  intro _ w e
  cases e
  right
  have h26_6 : BitVec.extractLsb' 26 6 (0x05#6 ++ o.d ++ o.a ++ 1#1 ++ o.i : Word) = 5#6 := by
    change @BitVec.extractLsb' (6 + 4 + 4 + 1 + 17) 26 6 _ = _
    rw [BitVec.extractLsb'_append_eq_of_le (by decide)]
    rw [BitVec.extractLsb'_append_eq_of_le (by decide)]
    rw [BitVec.extractLsb'_append_eq_of_le (by decide)]
    rw [BitVec.extractLsb'_append_eq_of_le (by decide)]
    rfl
  have h30_2 : BitVec.extractLsb' 30 2 (0x05#6 ++ o.d ++ o.a ++ 1#1 ++ o.i : Word) = 0#2 := by
    change @BitVec.extractLsb' (6 + 4 + 4 + 1 + 17) 30 2 _ = _
    rw [BitVec.extractLsb'_append_eq_of_le (by decide)]
    rw [BitVec.extractLsb'_append_eq_of_le (by decide)]
    rw [BitVec.extractLsb'_append_eq_of_le (by decide)]
    rw [BitVec.extractLsb'_append_eq_of_le (by decide)]
    rfl
  have h17_1 : (0x05#6 ++ o.d ++ o.a ++ 1#1 ++ o.i : Word).getLsbD 17 = true := by
    change @BitVec.getLsbD (6 + 4 + 4 + 1 + 17) _ 17 = _
    rw [getLsbD_append_hi _ _ _ (by decide)]
    rw [getLsbD_append_lo _ _ _ (by decide)]
    rfl
  have h22_4 : BitVec.extractLsb' 22 4 (0x05#6 ++ o.d ++ o.a ++ 1#1 ++ o.i : Word) = o.d := by
    change @BitVec.extractLsb' (6 + 4 + 4 + 1 + 17) 22 4 _ = _
    rw [BitVec.extractLsb'_append_eq_of_le (by decide)]
    rw [BitVec.extractLsb'_append_eq_of_le (by decide)]
    rw [BitVec.extractLsb'_append_eq_of_le (by decide)]
    rw [BitVec.extractLsb'_append_eq_of_add_le (by decide), BitVec.extractLsb'_eq_self]
  have h18_4 : BitVec.extractLsb' 18 4 (0x05#6 ++ o.d ++ o.a ++ 1#1 ++ o.i : Word) = o.a := by
    change @BitVec.extractLsb' (6 + 4 + 4 + 1 + 17) 18 4 _ = _
    rw [BitVec.extractLsb'_append_eq_of_le (by decide)]
    rw [BitVec.extractLsb'_append_eq_of_le (by decide)]
    rw [BitVec.extractLsb'_append_eq_of_add_le (by decide), BitVec.extractLsb'_eq_self]
  have h0_17 : BitVec.extractLsb' 0 17 (0x05#6 ++ o.d ++ o.a ++ 1#1 ++ o.i : Word) = o.i := by
    change @BitVec.extractLsb' (6 + 4 + 4 + 1 + 17) 0 17 _ = _
    rw [BitVec.extractLsb'_append_eq_of_add_le (by decide), BitVec.extractLsb'_eq_self]
  show decodeXp (0x05#6 ++ o.d ++ o.a ++ 1#1 ++ o.i : Word) = _
  refine (decodeXp_op (by rw [h30_2]; decide) h26_6).trans ?_
  refine (if_pos h17_1).trans ?_
  change Except.ok (Instr.xpSubImm ⟨BitVec.extractLsb' 22 4 _, BitVec.extractLsb' 18 4 _, BitVec.extractLsb' 0 17 _⟩) = _
  rw [h22_4, h18_4, h0_17]

theorem RoundTrip.xpMulReg o : RoundTrip.Statement (.xpMulReg o) := by
  intro _ w e
  cases e
  right
  have h26_6 : BitVec.extractLsb' 26 6 (0x06#6 ++ o.d ++ o.a ++ 0#1 ++ o.b ++ 0#13 : Word) = 6#6 := by
    change @BitVec.extractLsb' (6 + 4 + 4 + 1 + 4 + 13) 26 6 _ = _
    rw [BitVec.extractLsb'_append_eq_of_le (by decide)]
    rw [BitVec.extractLsb'_append_eq_of_le (by decide)]
    rw [BitVec.extractLsb'_append_eq_of_le (by decide)]
    rw [BitVec.extractLsb'_append_eq_of_le (by decide)]
    rw [BitVec.extractLsb'_append_eq_of_le (by decide)]
    rfl
  have h30_2 : BitVec.extractLsb' 30 2 (0x06#6 ++ o.d ++ o.a ++ 0#1 ++ o.b ++ 0#13 : Word) = 0#2 := by
    change @BitVec.extractLsb' (6 + 4 + 4 + 1 + 4 + 13) 30 2 _ = _
    rw [BitVec.extractLsb'_append_eq_of_le (by decide)]
    rw [BitVec.extractLsb'_append_eq_of_le (by decide)]
    rw [BitVec.extractLsb'_append_eq_of_le (by decide)]
    rw [BitVec.extractLsb'_append_eq_of_le (by decide)]
    rw [BitVec.extractLsb'_append_eq_of_le (by decide)]
    rfl
  have h17_1 : (0x06#6 ++ o.d ++ o.a ++ 0#1 ++ o.b ++ 0#13 : Word).getLsbD 17 = false := by
    change @BitVec.getLsbD (6 + 4 + 4 + 1 + 4 + 13) _ 17 = _
    rw [getLsbD_append_hi _ _ _ (by decide)]
    rw [getLsbD_append_hi _ _ _ (by decide)]
    rw [getLsbD_append_lo _ _ _ (by decide)]
    rfl
  have h0_13 : BitVec.extractLsb' 0 13 (0x06#6 ++ o.d ++ o.a ++ 0#1 ++ o.b ++ 0#13 : Word) = 0#13 := by
    change @BitVec.extractLsb' (6 + 4 + 4 + 1 + 4 + 13) 0 13 _ = _
    rw [BitVec.extractLsb'_append_eq_of_add_le (by decide)]
    rfl
  have h22_4 : BitVec.extractLsb' 22 4 (0x06#6 ++ o.d ++ o.a ++ 0#1 ++ o.b ++ 0#13 : Word) = o.d := by
    change @BitVec.extractLsb' (6 + 4 + 4 + 1 + 4 + 13) 22 4 _ = _
    rw [BitVec.extractLsb'_append_eq_of_le (by decide)]
    rw [BitVec.extractLsb'_append_eq_of_le (by decide)]
    rw [BitVec.extractLsb'_append_eq_of_le (by decide)]
    rw [BitVec.extractLsb'_append_eq_of_le (by decide)]
    rw [BitVec.extractLsb'_append_eq_of_add_le (by decide), BitVec.extractLsb'_eq_self]
  have h18_4 : BitVec.extractLsb' 18 4 (0x06#6 ++ o.d ++ o.a ++ 0#1 ++ o.b ++ 0#13 : Word) = o.a := by
    change @BitVec.extractLsb' (6 + 4 + 4 + 1 + 4 + 13) 18 4 _ = _
    rw [BitVec.extractLsb'_append_eq_of_le (by decide)]
    rw [BitVec.extractLsb'_append_eq_of_le (by decide)]
    rw [BitVec.extractLsb'_append_eq_of_le (by decide)]
    rw [BitVec.extractLsb'_append_eq_of_add_le (by decide), BitVec.extractLsb'_eq_self]
  have h13_4 : BitVec.extractLsb' 13 4 (0x06#6 ++ o.d ++ o.a ++ 0#1 ++ o.b ++ 0#13 : Word) = o.b := by
    change @BitVec.extractLsb' (6 + 4 + 4 + 1 + 4 + 13) 13 4 _ = _
    rw [BitVec.extractLsb'_append_eq_of_le (by decide)]
    rw [BitVec.extractLsb'_append_eq_of_add_le (by decide), BitVec.extractLsb'_eq_self]
  show decodeXp (0x06#6 ++ o.d ++ o.a ++ 0#1 ++ o.b ++ 0#13 : Word) = _
  refine (decodeXp_op (by rw [h30_2]; decide) h26_6).trans ?_
  refine (if_neg (by rw [h17_1]; decide)).trans ?_
  refine (xneed_ok ?_).trans ?_
  · change (BitVec.extractLsb' 0 13 _ == 0#13) = true
    rw [h0_13]
    rfl
  · change Except.ok (Instr.xpMulReg ⟨BitVec.extractLsb' 22 4 _, BitVec.extractLsb' 18 4 _, BitVec.extractLsb' 13 4 _⟩) = _
    rw [h22_4, h18_4, h13_4]

theorem RoundTrip.xpMulImm o : RoundTrip.Statement (.xpMulImm o) := by
  intro _ w e
  cases e
  right
  have h26_6 : BitVec.extractLsb' 26 6 (0x06#6 ++ o.d ++ o.a ++ 1#1 ++ o.i : Word) = 6#6 := by
    change @BitVec.extractLsb' (6 + 4 + 4 + 1 + 17) 26 6 _ = _
    rw [BitVec.extractLsb'_append_eq_of_le (by decide)]
    rw [BitVec.extractLsb'_append_eq_of_le (by decide)]
    rw [BitVec.extractLsb'_append_eq_of_le (by decide)]
    rw [BitVec.extractLsb'_append_eq_of_le (by decide)]
    rfl
  have h30_2 : BitVec.extractLsb' 30 2 (0x06#6 ++ o.d ++ o.a ++ 1#1 ++ o.i : Word) = 0#2 := by
    change @BitVec.extractLsb' (6 + 4 + 4 + 1 + 17) 30 2 _ = _
    rw [BitVec.extractLsb'_append_eq_of_le (by decide)]
    rw [BitVec.extractLsb'_append_eq_of_le (by decide)]
    rw [BitVec.extractLsb'_append_eq_of_le (by decide)]
    rw [BitVec.extractLsb'_append_eq_of_le (by decide)]
    rfl
  have h17_1 : (0x06#6 ++ o.d ++ o.a ++ 1#1 ++ o.i : Word).getLsbD 17 = true := by
    change @BitVec.getLsbD (6 + 4 + 4 + 1 + 17) _ 17 = _
    rw [getLsbD_append_hi _ _ _ (by decide)]
    rw [getLsbD_append_lo _ _ _ (by decide)]
    rfl
  have h22_4 : BitVec.extractLsb' 22 4 (0x06#6 ++ o.d ++ o.a ++ 1#1 ++ o.i : Word) = o.d := by
    change @BitVec.extractLsb' (6 + 4 + 4 + 1 + 17) 22 4 _ = _
    rw [BitVec.extractLsb'_append_eq_of_le (by decide)]
    rw [BitVec.extractLsb'_append_eq_of_le (by decide)]
    rw [BitVec.extractLsb'_append_eq_of_le (by decide)]
    rw [BitVec.extractLsb'_append_eq_of_add_le (by decide), BitVec.extractLsb'_eq_self]
  have h18_4 : BitVec.extractLsb' 18 4 (0x06#6 ++ o.d ++ o.a ++ 1#1 ++ o.i : Word) = o.a := by
    change @BitVec.extractLsb' (6 + 4 + 4 + 1 + 17) 18 4 _ = _
    rw [BitVec.extractLsb'_append_eq_of_le (by decide)]
    rw [BitVec.extractLsb'_append_eq_of_le (by decide)]
    rw [BitVec.extractLsb'_append_eq_of_add_le (by decide), BitVec.extractLsb'_eq_self]
  have h0_17 : BitVec.extractLsb' 0 17 (0x06#6 ++ o.d ++ o.a ++ 1#1 ++ o.i : Word) = o.i := by
    change @BitVec.extractLsb' (6 + 4 + 4 + 1 + 17) 0 17 _ = _
    rw [BitVec.extractLsb'_append_eq_of_add_le (by decide), BitVec.extractLsb'_eq_self]
  show decodeXp (0x06#6 ++ o.d ++ o.a ++ 1#1 ++ o.i : Word) = _
  refine (decodeXp_op (by rw [h30_2]; decide) h26_6).trans ?_
  refine (if_pos h17_1).trans ?_
  change Except.ok (Instr.xpMulImm ⟨BitVec.extractLsb' 22 4 _, BitVec.extractLsb' 18 4 _, BitVec.extractLsb' 0 17 _⟩) = _
  rw [h22_4, h18_4, h0_17]

theorem RoundTrip.xpShlReg o : RoundTrip.Statement (.xpShlReg o) := by
  intro _ w e
  cases e
  right
  have h26_6 : BitVec.extractLsb' 26 6 (0x07#6 ++ o.d ++ o.a ++ 0#1 ++ o.b ++ 0#13 : Word) = 7#6 := by
    change @BitVec.extractLsb' (6 + 4 + 4 + 1 + 4 + 13) 26 6 _ = _
    rw [BitVec.extractLsb'_append_eq_of_le (by decide)]
    rw [BitVec.extractLsb'_append_eq_of_le (by decide)]
    rw [BitVec.extractLsb'_append_eq_of_le (by decide)]
    rw [BitVec.extractLsb'_append_eq_of_le (by decide)]
    rw [BitVec.extractLsb'_append_eq_of_le (by decide)]
    rfl
  have h30_2 : BitVec.extractLsb' 30 2 (0x07#6 ++ o.d ++ o.a ++ 0#1 ++ o.b ++ 0#13 : Word) = 0#2 := by
    change @BitVec.extractLsb' (6 + 4 + 4 + 1 + 4 + 13) 30 2 _ = _
    rw [BitVec.extractLsb'_append_eq_of_le (by decide)]
    rw [BitVec.extractLsb'_append_eq_of_le (by decide)]
    rw [BitVec.extractLsb'_append_eq_of_le (by decide)]
    rw [BitVec.extractLsb'_append_eq_of_le (by decide)]
    rw [BitVec.extractLsb'_append_eq_of_le (by decide)]
    rfl
  have h17_1 : (0x07#6 ++ o.d ++ o.a ++ 0#1 ++ o.b ++ 0#13 : Word).getLsbD 17 = false := by
    change @BitVec.getLsbD (6 + 4 + 4 + 1 + 4 + 13) _ 17 = _
    rw [getLsbD_append_hi _ _ _ (by decide)]
    rw [getLsbD_append_hi _ _ _ (by decide)]
    rw [getLsbD_append_lo _ _ _ (by decide)]
    rfl
  have h0_13 : BitVec.extractLsb' 0 13 (0x07#6 ++ o.d ++ o.a ++ 0#1 ++ o.b ++ 0#13 : Word) = 0#13 := by
    change @BitVec.extractLsb' (6 + 4 + 4 + 1 + 4 + 13) 0 13 _ = _
    rw [BitVec.extractLsb'_append_eq_of_add_le (by decide)]
    rfl
  have h22_4 : BitVec.extractLsb' 22 4 (0x07#6 ++ o.d ++ o.a ++ 0#1 ++ o.b ++ 0#13 : Word) = o.d := by
    change @BitVec.extractLsb' (6 + 4 + 4 + 1 + 4 + 13) 22 4 _ = _
    rw [BitVec.extractLsb'_append_eq_of_le (by decide)]
    rw [BitVec.extractLsb'_append_eq_of_le (by decide)]
    rw [BitVec.extractLsb'_append_eq_of_le (by decide)]
    rw [BitVec.extractLsb'_append_eq_of_le (by decide)]
    rw [BitVec.extractLsb'_append_eq_of_add_le (by decide), BitVec.extractLsb'_eq_self]
  have h18_4 : BitVec.extractLsb' 18 4 (0x07#6 ++ o.d ++ o.a ++ 0#1 ++ o.b ++ 0#13 : Word) = o.a := by
    change @BitVec.extractLsb' (6 + 4 + 4 + 1 + 4 + 13) 18 4 _ = _
    rw [BitVec.extractLsb'_append_eq_of_le (by decide)]
    rw [BitVec.extractLsb'_append_eq_of_le (by decide)]
    rw [BitVec.extractLsb'_append_eq_of_le (by decide)]
    rw [BitVec.extractLsb'_append_eq_of_add_le (by decide), BitVec.extractLsb'_eq_self]
  have h13_4 : BitVec.extractLsb' 13 4 (0x07#6 ++ o.d ++ o.a ++ 0#1 ++ o.b ++ 0#13 : Word) = o.b := by
    change @BitVec.extractLsb' (6 + 4 + 4 + 1 + 4 + 13) 13 4 _ = _
    rw [BitVec.extractLsb'_append_eq_of_le (by decide)]
    rw [BitVec.extractLsb'_append_eq_of_add_le (by decide), BitVec.extractLsb'_eq_self]
  show decodeXp (0x07#6 ++ o.d ++ o.a ++ 0#1 ++ o.b ++ 0#13 : Word) = _
  refine (decodeXp_op (by rw [h30_2]; decide) h26_6).trans ?_
  refine (if_neg (by rw [h17_1]; decide)).trans ?_
  refine (xneed_ok ?_).trans ?_
  · change (BitVec.extractLsb' 0 13 _ == 0#13) = true
    rw [h0_13]
    rfl
  · change Except.ok (Instr.xpShlReg ⟨BitVec.extractLsb' 22 4 _, BitVec.extractLsb' 18 4 _, BitVec.extractLsb' 13 4 _⟩) = _
    rw [h22_4, h18_4, h13_4]

theorem RoundTrip.xpShlImm o : RoundTrip.Statement (.xpShlImm o) := by
  intro h w e
  cases e
  right
  have h26_6 : BitVec.extractLsb' 26 6 (0x07#6 ++ o.d ++ o.a ++ 1#1 ++ o.i : Word) = 7#6 := by
    change @BitVec.extractLsb' (6 + 4 + 4 + 1 + 17) 26 6 _ = _
    rw [BitVec.extractLsb'_append_eq_of_le (by decide)]
    rw [BitVec.extractLsb'_append_eq_of_le (by decide)]
    rw [BitVec.extractLsb'_append_eq_of_le (by decide)]
    rw [BitVec.extractLsb'_append_eq_of_le (by decide)]
    rfl
  have h30_2 : BitVec.extractLsb' 30 2 (0x07#6 ++ o.d ++ o.a ++ 1#1 ++ o.i : Word) = 0#2 := by
    change @BitVec.extractLsb' (6 + 4 + 4 + 1 + 17) 30 2 _ = _
    rw [BitVec.extractLsb'_append_eq_of_le (by decide)]
    rw [BitVec.extractLsb'_append_eq_of_le (by decide)]
    rw [BitVec.extractLsb'_append_eq_of_le (by decide)]
    rw [BitVec.extractLsb'_append_eq_of_le (by decide)]
    rfl
  have h17_1 : (0x07#6 ++ o.d ++ o.a ++ 1#1 ++ o.i : Word).getLsbD 17 = true := by
    change @BitVec.getLsbD (6 + 4 + 4 + 1 + 17) _ 17 = _
    rw [getLsbD_append_hi _ _ _ (by decide)]
    rw [getLsbD_append_lo _ _ _ (by decide)]
    rfl
  have h0_17 : BitVec.extractLsb' 0 17 (0x07#6 ++ o.d ++ o.a ++ 1#1 ++ o.i : Word) = o.i := by
    change @BitVec.extractLsb' (6 + 4 + 4 + 1 + 17) 0 17 _ = _
    rw [BitVec.extractLsb'_append_eq_of_add_le (by decide), BitVec.extractLsb'_eq_self]
  have h22_4 : BitVec.extractLsb' 22 4 (0x07#6 ++ o.d ++ o.a ++ 1#1 ++ o.i : Word) = o.d := by
    change @BitVec.extractLsb' (6 + 4 + 4 + 1 + 17) 22 4 _ = _
    rw [BitVec.extractLsb'_append_eq_of_le (by decide)]
    rw [BitVec.extractLsb'_append_eq_of_le (by decide)]
    rw [BitVec.extractLsb'_append_eq_of_le (by decide)]
    rw [BitVec.extractLsb'_append_eq_of_add_le (by decide), BitVec.extractLsb'_eq_self]
  have h18_4 : BitVec.extractLsb' 18 4 (0x07#6 ++ o.d ++ o.a ++ 1#1 ++ o.i : Word) = o.a := by
    change @BitVec.extractLsb' (6 + 4 + 4 + 1 + 17) 18 4 _ = _
    rw [BitVec.extractLsb'_append_eq_of_le (by decide)]
    rw [BitVec.extractLsb'_append_eq_of_le (by decide)]
    rw [BitVec.extractLsb'_append_eq_of_add_le (by decide), BitVec.extractLsb'_eq_self]
  show decodeXp (0x07#6 ++ o.d ++ o.a ++ 1#1 ++ o.i : Word) = _
  refine (decodeXp_op (by rw [h30_2]; decide) h26_6).trans ?_
  refine (if_pos h17_1).trans ?_
  refine (xneed_ok ?_).trans ?_
  · change (shiftImmOk (BitVec.extractLsb' 0 17 _)) = true
    rw [h0_17]
    exact h
  · change Except.ok (Instr.xpShlImm ⟨BitVec.extractLsb' 22 4 _, BitVec.extractLsb' 18 4 _, BitVec.extractLsb' 0 17 _⟩) = _
    rw [h22_4, h18_4, h0_17]

theorem RoundTrip.xpShrReg o : RoundTrip.Statement (.xpShrReg o) := by
  intro _ w e
  cases e
  right
  have h26_6 : BitVec.extractLsb' 26 6 (0x08#6 ++ o.d ++ o.a ++ 0#1 ++ o.b ++ 0#13 : Word) = 8#6 := by
    change @BitVec.extractLsb' (6 + 4 + 4 + 1 + 4 + 13) 26 6 _ = _
    rw [BitVec.extractLsb'_append_eq_of_le (by decide)]
    rw [BitVec.extractLsb'_append_eq_of_le (by decide)]
    rw [BitVec.extractLsb'_append_eq_of_le (by decide)]
    rw [BitVec.extractLsb'_append_eq_of_le (by decide)]
    rw [BitVec.extractLsb'_append_eq_of_le (by decide)]
    rfl
  have h30_2 : BitVec.extractLsb' 30 2 (0x08#6 ++ o.d ++ o.a ++ 0#1 ++ o.b ++ 0#13 : Word) = 0#2 := by
    change @BitVec.extractLsb' (6 + 4 + 4 + 1 + 4 + 13) 30 2 _ = _
    rw [BitVec.extractLsb'_append_eq_of_le (by decide)]
    rw [BitVec.extractLsb'_append_eq_of_le (by decide)]
    rw [BitVec.extractLsb'_append_eq_of_le (by decide)]
    rw [BitVec.extractLsb'_append_eq_of_le (by decide)]
    rw [BitVec.extractLsb'_append_eq_of_le (by decide)]
    rfl
  have h17_1 : (0x08#6 ++ o.d ++ o.a ++ 0#1 ++ o.b ++ 0#13 : Word).getLsbD 17 = false := by
    change @BitVec.getLsbD (6 + 4 + 4 + 1 + 4 + 13) _ 17 = _
    rw [getLsbD_append_hi _ _ _ (by decide)]
    rw [getLsbD_append_hi _ _ _ (by decide)]
    rw [getLsbD_append_lo _ _ _ (by decide)]
    rfl
  have h0_13 : BitVec.extractLsb' 0 13 (0x08#6 ++ o.d ++ o.a ++ 0#1 ++ o.b ++ 0#13 : Word) = 0#13 := by
    change @BitVec.extractLsb' (6 + 4 + 4 + 1 + 4 + 13) 0 13 _ = _
    rw [BitVec.extractLsb'_append_eq_of_add_le (by decide)]
    rfl
  have h22_4 : BitVec.extractLsb' 22 4 (0x08#6 ++ o.d ++ o.a ++ 0#1 ++ o.b ++ 0#13 : Word) = o.d := by
    change @BitVec.extractLsb' (6 + 4 + 4 + 1 + 4 + 13) 22 4 _ = _
    rw [BitVec.extractLsb'_append_eq_of_le (by decide)]
    rw [BitVec.extractLsb'_append_eq_of_le (by decide)]
    rw [BitVec.extractLsb'_append_eq_of_le (by decide)]
    rw [BitVec.extractLsb'_append_eq_of_le (by decide)]
    rw [BitVec.extractLsb'_append_eq_of_add_le (by decide), BitVec.extractLsb'_eq_self]
  have h18_4 : BitVec.extractLsb' 18 4 (0x08#6 ++ o.d ++ o.a ++ 0#1 ++ o.b ++ 0#13 : Word) = o.a := by
    change @BitVec.extractLsb' (6 + 4 + 4 + 1 + 4 + 13) 18 4 _ = _
    rw [BitVec.extractLsb'_append_eq_of_le (by decide)]
    rw [BitVec.extractLsb'_append_eq_of_le (by decide)]
    rw [BitVec.extractLsb'_append_eq_of_le (by decide)]
    rw [BitVec.extractLsb'_append_eq_of_add_le (by decide), BitVec.extractLsb'_eq_self]
  have h13_4 : BitVec.extractLsb' 13 4 (0x08#6 ++ o.d ++ o.a ++ 0#1 ++ o.b ++ 0#13 : Word) = o.b := by
    change @BitVec.extractLsb' (6 + 4 + 4 + 1 + 4 + 13) 13 4 _ = _
    rw [BitVec.extractLsb'_append_eq_of_le (by decide)]
    rw [BitVec.extractLsb'_append_eq_of_add_le (by decide), BitVec.extractLsb'_eq_self]
  show decodeXp (0x08#6 ++ o.d ++ o.a ++ 0#1 ++ o.b ++ 0#13 : Word) = _
  refine (decodeXp_op (by rw [h30_2]; decide) h26_6).trans ?_
  refine (if_neg (by rw [h17_1]; decide)).trans ?_
  refine (xneed_ok ?_).trans ?_
  · change (BitVec.extractLsb' 0 13 _ == 0#13) = true
    rw [h0_13]
    rfl
  · change Except.ok (Instr.xpShrReg ⟨BitVec.extractLsb' 22 4 _, BitVec.extractLsb' 18 4 _, BitVec.extractLsb' 13 4 _⟩) = _
    rw [h22_4, h18_4, h13_4]

theorem RoundTrip.xpShrImm o : RoundTrip.Statement (.xpShrImm o) := by
  intro h w e
  cases e
  right
  have h26_6 : BitVec.extractLsb' 26 6 (0x08#6 ++ o.d ++ o.a ++ 1#1 ++ o.i : Word) = 8#6 := by
    change @BitVec.extractLsb' (6 + 4 + 4 + 1 + 17) 26 6 _ = _
    rw [BitVec.extractLsb'_append_eq_of_le (by decide)]
    rw [BitVec.extractLsb'_append_eq_of_le (by decide)]
    rw [BitVec.extractLsb'_append_eq_of_le (by decide)]
    rw [BitVec.extractLsb'_append_eq_of_le (by decide)]
    rfl
  have h30_2 : BitVec.extractLsb' 30 2 (0x08#6 ++ o.d ++ o.a ++ 1#1 ++ o.i : Word) = 0#2 := by
    change @BitVec.extractLsb' (6 + 4 + 4 + 1 + 17) 30 2 _ = _
    rw [BitVec.extractLsb'_append_eq_of_le (by decide)]
    rw [BitVec.extractLsb'_append_eq_of_le (by decide)]
    rw [BitVec.extractLsb'_append_eq_of_le (by decide)]
    rw [BitVec.extractLsb'_append_eq_of_le (by decide)]
    rfl
  have h17_1 : (0x08#6 ++ o.d ++ o.a ++ 1#1 ++ o.i : Word).getLsbD 17 = true := by
    change @BitVec.getLsbD (6 + 4 + 4 + 1 + 17) _ 17 = _
    rw [getLsbD_append_hi _ _ _ (by decide)]
    rw [getLsbD_append_lo _ _ _ (by decide)]
    rfl
  have h0_17 : BitVec.extractLsb' 0 17 (0x08#6 ++ o.d ++ o.a ++ 1#1 ++ o.i : Word) = o.i := by
    change @BitVec.extractLsb' (6 + 4 + 4 + 1 + 17) 0 17 _ = _
    rw [BitVec.extractLsb'_append_eq_of_add_le (by decide), BitVec.extractLsb'_eq_self]
  have h22_4 : BitVec.extractLsb' 22 4 (0x08#6 ++ o.d ++ o.a ++ 1#1 ++ o.i : Word) = o.d := by
    change @BitVec.extractLsb' (6 + 4 + 4 + 1 + 17) 22 4 _ = _
    rw [BitVec.extractLsb'_append_eq_of_le (by decide)]
    rw [BitVec.extractLsb'_append_eq_of_le (by decide)]
    rw [BitVec.extractLsb'_append_eq_of_le (by decide)]
    rw [BitVec.extractLsb'_append_eq_of_add_le (by decide), BitVec.extractLsb'_eq_self]
  have h18_4 : BitVec.extractLsb' 18 4 (0x08#6 ++ o.d ++ o.a ++ 1#1 ++ o.i : Word) = o.a := by
    change @BitVec.extractLsb' (6 + 4 + 4 + 1 + 17) 18 4 _ = _
    rw [BitVec.extractLsb'_append_eq_of_le (by decide)]
    rw [BitVec.extractLsb'_append_eq_of_le (by decide)]
    rw [BitVec.extractLsb'_append_eq_of_add_le (by decide), BitVec.extractLsb'_eq_self]
  show decodeXp (0x08#6 ++ o.d ++ o.a ++ 1#1 ++ o.i : Word) = _
  refine (decodeXp_op (by rw [h30_2]; decide) h26_6).trans ?_
  refine (if_pos h17_1).trans ?_
  refine (xneed_ok ?_).trans ?_
  · change (shiftImmOk (BitVec.extractLsb' 0 17 _)) = true
    rw [h0_17]
    exact h
  · change Except.ok (Instr.xpShrImm ⟨BitVec.extractLsb' 22 4 _, BitVec.extractLsb' 18 4 _, BitVec.extractLsb' 0 17 _⟩) = _
    rw [h22_4, h18_4, h0_17]

theorem RoundTrip.xpAndReg o : RoundTrip.Statement (.xpAndReg o) := by
  intro _ w e
  cases e
  right
  have h26_6 : BitVec.extractLsb' 26 6 (0x09#6 ++ o.d ++ o.a ++ 0#1 ++ o.b ++ 0#13 : Word) = 9#6 := by
    change @BitVec.extractLsb' (6 + 4 + 4 + 1 + 4 + 13) 26 6 _ = _
    rw [BitVec.extractLsb'_append_eq_of_le (by decide)]
    rw [BitVec.extractLsb'_append_eq_of_le (by decide)]
    rw [BitVec.extractLsb'_append_eq_of_le (by decide)]
    rw [BitVec.extractLsb'_append_eq_of_le (by decide)]
    rw [BitVec.extractLsb'_append_eq_of_le (by decide)]
    rfl
  have h30_2 : BitVec.extractLsb' 30 2 (0x09#6 ++ o.d ++ o.a ++ 0#1 ++ o.b ++ 0#13 : Word) = 0#2 := by
    change @BitVec.extractLsb' (6 + 4 + 4 + 1 + 4 + 13) 30 2 _ = _
    rw [BitVec.extractLsb'_append_eq_of_le (by decide)]
    rw [BitVec.extractLsb'_append_eq_of_le (by decide)]
    rw [BitVec.extractLsb'_append_eq_of_le (by decide)]
    rw [BitVec.extractLsb'_append_eq_of_le (by decide)]
    rw [BitVec.extractLsb'_append_eq_of_le (by decide)]
    rfl
  have h17_1 : (0x09#6 ++ o.d ++ o.a ++ 0#1 ++ o.b ++ 0#13 : Word).getLsbD 17 = false := by
    change @BitVec.getLsbD (6 + 4 + 4 + 1 + 4 + 13) _ 17 = _
    rw [getLsbD_append_hi _ _ _ (by decide)]
    rw [getLsbD_append_hi _ _ _ (by decide)]
    rw [getLsbD_append_lo _ _ _ (by decide)]
    rfl
  have h0_13 : BitVec.extractLsb' 0 13 (0x09#6 ++ o.d ++ o.a ++ 0#1 ++ o.b ++ 0#13 : Word) = 0#13 := by
    change @BitVec.extractLsb' (6 + 4 + 4 + 1 + 4 + 13) 0 13 _ = _
    rw [BitVec.extractLsb'_append_eq_of_add_le (by decide)]
    rfl
  have h22_4 : BitVec.extractLsb' 22 4 (0x09#6 ++ o.d ++ o.a ++ 0#1 ++ o.b ++ 0#13 : Word) = o.d := by
    change @BitVec.extractLsb' (6 + 4 + 4 + 1 + 4 + 13) 22 4 _ = _
    rw [BitVec.extractLsb'_append_eq_of_le (by decide)]
    rw [BitVec.extractLsb'_append_eq_of_le (by decide)]
    rw [BitVec.extractLsb'_append_eq_of_le (by decide)]
    rw [BitVec.extractLsb'_append_eq_of_le (by decide)]
    rw [BitVec.extractLsb'_append_eq_of_add_le (by decide), BitVec.extractLsb'_eq_self]
  have h18_4 : BitVec.extractLsb' 18 4 (0x09#6 ++ o.d ++ o.a ++ 0#1 ++ o.b ++ 0#13 : Word) = o.a := by
    change @BitVec.extractLsb' (6 + 4 + 4 + 1 + 4 + 13) 18 4 _ = _
    rw [BitVec.extractLsb'_append_eq_of_le (by decide)]
    rw [BitVec.extractLsb'_append_eq_of_le (by decide)]
    rw [BitVec.extractLsb'_append_eq_of_le (by decide)]
    rw [BitVec.extractLsb'_append_eq_of_add_le (by decide), BitVec.extractLsb'_eq_self]
  have h13_4 : BitVec.extractLsb' 13 4 (0x09#6 ++ o.d ++ o.a ++ 0#1 ++ o.b ++ 0#13 : Word) = o.b := by
    change @BitVec.extractLsb' (6 + 4 + 4 + 1 + 4 + 13) 13 4 _ = _
    rw [BitVec.extractLsb'_append_eq_of_le (by decide)]
    rw [BitVec.extractLsb'_append_eq_of_add_le (by decide), BitVec.extractLsb'_eq_self]
  show decodeXp (0x09#6 ++ o.d ++ o.a ++ 0#1 ++ o.b ++ 0#13 : Word) = _
  refine (decodeXp_op (by rw [h30_2]; decide) h26_6).trans ?_
  refine (if_neg (by rw [h17_1]; decide)).trans ?_
  refine (xneed_ok ?_).trans ?_
  · change (BitVec.extractLsb' 0 13 _ == 0#13) = true
    rw [h0_13]
    rfl
  · change Except.ok (Instr.xpAndReg ⟨BitVec.extractLsb' 22 4 _, BitVec.extractLsb' 18 4 _, BitVec.extractLsb' 13 4 _⟩) = _
    rw [h22_4, h18_4, h13_4]

theorem RoundTrip.xpAndImm o : RoundTrip.Statement (.xpAndImm o) := by
  intro _ w e
  cases e
  right
  have h26_6 : BitVec.extractLsb' 26 6 (0x09#6 ++ o.d ++ o.a ++ 1#1 ++ o.i : Word) = 9#6 := by
    change @BitVec.extractLsb' (6 + 4 + 4 + 1 + 17) 26 6 _ = _
    rw [BitVec.extractLsb'_append_eq_of_le (by decide)]
    rw [BitVec.extractLsb'_append_eq_of_le (by decide)]
    rw [BitVec.extractLsb'_append_eq_of_le (by decide)]
    rw [BitVec.extractLsb'_append_eq_of_le (by decide)]
    rfl
  have h30_2 : BitVec.extractLsb' 30 2 (0x09#6 ++ o.d ++ o.a ++ 1#1 ++ o.i : Word) = 0#2 := by
    change @BitVec.extractLsb' (6 + 4 + 4 + 1 + 17) 30 2 _ = _
    rw [BitVec.extractLsb'_append_eq_of_le (by decide)]
    rw [BitVec.extractLsb'_append_eq_of_le (by decide)]
    rw [BitVec.extractLsb'_append_eq_of_le (by decide)]
    rw [BitVec.extractLsb'_append_eq_of_le (by decide)]
    rfl
  have h17_1 : (0x09#6 ++ o.d ++ o.a ++ 1#1 ++ o.i : Word).getLsbD 17 = true := by
    change @BitVec.getLsbD (6 + 4 + 4 + 1 + 17) _ 17 = _
    rw [getLsbD_append_hi _ _ _ (by decide)]
    rw [getLsbD_append_lo _ _ _ (by decide)]
    rfl
  have h22_4 : BitVec.extractLsb' 22 4 (0x09#6 ++ o.d ++ o.a ++ 1#1 ++ o.i : Word) = o.d := by
    change @BitVec.extractLsb' (6 + 4 + 4 + 1 + 17) 22 4 _ = _
    rw [BitVec.extractLsb'_append_eq_of_le (by decide)]
    rw [BitVec.extractLsb'_append_eq_of_le (by decide)]
    rw [BitVec.extractLsb'_append_eq_of_le (by decide)]
    rw [BitVec.extractLsb'_append_eq_of_add_le (by decide), BitVec.extractLsb'_eq_self]
  have h18_4 : BitVec.extractLsb' 18 4 (0x09#6 ++ o.d ++ o.a ++ 1#1 ++ o.i : Word) = o.a := by
    change @BitVec.extractLsb' (6 + 4 + 4 + 1 + 17) 18 4 _ = _
    rw [BitVec.extractLsb'_append_eq_of_le (by decide)]
    rw [BitVec.extractLsb'_append_eq_of_le (by decide)]
    rw [BitVec.extractLsb'_append_eq_of_add_le (by decide), BitVec.extractLsb'_eq_self]
  have h0_17 : BitVec.extractLsb' 0 17 (0x09#6 ++ o.d ++ o.a ++ 1#1 ++ o.i : Word) = o.i := by
    change @BitVec.extractLsb' (6 + 4 + 4 + 1 + 17) 0 17 _ = _
    rw [BitVec.extractLsb'_append_eq_of_add_le (by decide), BitVec.extractLsb'_eq_self]
  show decodeXp (0x09#6 ++ o.d ++ o.a ++ 1#1 ++ o.i : Word) = _
  refine (decodeXp_op (by rw [h30_2]; decide) h26_6).trans ?_
  refine (if_pos h17_1).trans ?_
  change Except.ok (Instr.xpAndImm ⟨BitVec.extractLsb' 22 4 _, BitVec.extractLsb' 18 4 _, BitVec.extractLsb' 0 17 _⟩) = _
  rw [h22_4, h18_4, h0_17]

theorem RoundTrip.xpOrReg o : RoundTrip.Statement (.xpOrReg o) := by
  intro _ w e
  cases e
  right
  have h26_6 : BitVec.extractLsb' 26 6 (0x0A#6 ++ o.d ++ o.a ++ 0#1 ++ o.b ++ 0#13 : Word) = 10#6 := by
    change @BitVec.extractLsb' (6 + 4 + 4 + 1 + 4 + 13) 26 6 _ = _
    rw [BitVec.extractLsb'_append_eq_of_le (by decide)]
    rw [BitVec.extractLsb'_append_eq_of_le (by decide)]
    rw [BitVec.extractLsb'_append_eq_of_le (by decide)]
    rw [BitVec.extractLsb'_append_eq_of_le (by decide)]
    rw [BitVec.extractLsb'_append_eq_of_le (by decide)]
    rfl
  have h30_2 : BitVec.extractLsb' 30 2 (0x0A#6 ++ o.d ++ o.a ++ 0#1 ++ o.b ++ 0#13 : Word) = 0#2 := by
    change @BitVec.extractLsb' (6 + 4 + 4 + 1 + 4 + 13) 30 2 _ = _
    rw [BitVec.extractLsb'_append_eq_of_le (by decide)]
    rw [BitVec.extractLsb'_append_eq_of_le (by decide)]
    rw [BitVec.extractLsb'_append_eq_of_le (by decide)]
    rw [BitVec.extractLsb'_append_eq_of_le (by decide)]
    rw [BitVec.extractLsb'_append_eq_of_le (by decide)]
    rfl
  have h17_1 : (0x0A#6 ++ o.d ++ o.a ++ 0#1 ++ o.b ++ 0#13 : Word).getLsbD 17 = false := by
    change @BitVec.getLsbD (6 + 4 + 4 + 1 + 4 + 13) _ 17 = _
    rw [getLsbD_append_hi _ _ _ (by decide)]
    rw [getLsbD_append_hi _ _ _ (by decide)]
    rw [getLsbD_append_lo _ _ _ (by decide)]
    rfl
  have h0_13 : BitVec.extractLsb' 0 13 (0x0A#6 ++ o.d ++ o.a ++ 0#1 ++ o.b ++ 0#13 : Word) = 0#13 := by
    change @BitVec.extractLsb' (6 + 4 + 4 + 1 + 4 + 13) 0 13 _ = _
    rw [BitVec.extractLsb'_append_eq_of_add_le (by decide)]
    rfl
  have h22_4 : BitVec.extractLsb' 22 4 (0x0A#6 ++ o.d ++ o.a ++ 0#1 ++ o.b ++ 0#13 : Word) = o.d := by
    change @BitVec.extractLsb' (6 + 4 + 4 + 1 + 4 + 13) 22 4 _ = _
    rw [BitVec.extractLsb'_append_eq_of_le (by decide)]
    rw [BitVec.extractLsb'_append_eq_of_le (by decide)]
    rw [BitVec.extractLsb'_append_eq_of_le (by decide)]
    rw [BitVec.extractLsb'_append_eq_of_le (by decide)]
    rw [BitVec.extractLsb'_append_eq_of_add_le (by decide), BitVec.extractLsb'_eq_self]
  have h18_4 : BitVec.extractLsb' 18 4 (0x0A#6 ++ o.d ++ o.a ++ 0#1 ++ o.b ++ 0#13 : Word) = o.a := by
    change @BitVec.extractLsb' (6 + 4 + 4 + 1 + 4 + 13) 18 4 _ = _
    rw [BitVec.extractLsb'_append_eq_of_le (by decide)]
    rw [BitVec.extractLsb'_append_eq_of_le (by decide)]
    rw [BitVec.extractLsb'_append_eq_of_le (by decide)]
    rw [BitVec.extractLsb'_append_eq_of_add_le (by decide), BitVec.extractLsb'_eq_self]
  have h13_4 : BitVec.extractLsb' 13 4 (0x0A#6 ++ o.d ++ o.a ++ 0#1 ++ o.b ++ 0#13 : Word) = o.b := by
    change @BitVec.extractLsb' (6 + 4 + 4 + 1 + 4 + 13) 13 4 _ = _
    rw [BitVec.extractLsb'_append_eq_of_le (by decide)]
    rw [BitVec.extractLsb'_append_eq_of_add_le (by decide), BitVec.extractLsb'_eq_self]
  show decodeXp (0x0A#6 ++ o.d ++ o.a ++ 0#1 ++ o.b ++ 0#13 : Word) = _
  refine (decodeXp_op (by rw [h30_2]; decide) h26_6).trans ?_
  refine (if_neg (by rw [h17_1]; decide)).trans ?_
  refine (xneed_ok ?_).trans ?_
  · change (BitVec.extractLsb' 0 13 _ == 0#13) = true
    rw [h0_13]
    rfl
  · change Except.ok (Instr.xpOrReg ⟨BitVec.extractLsb' 22 4 _, BitVec.extractLsb' 18 4 _, BitVec.extractLsb' 13 4 _⟩) = _
    rw [h22_4, h18_4, h13_4]

theorem RoundTrip.xpOrImm o : RoundTrip.Statement (.xpOrImm o) := by
  intro _ w e
  cases e
  right
  have h26_6 : BitVec.extractLsb' 26 6 (0x0A#6 ++ o.d ++ o.a ++ 1#1 ++ o.i : Word) = 10#6 := by
    change @BitVec.extractLsb' (6 + 4 + 4 + 1 + 17) 26 6 _ = _
    rw [BitVec.extractLsb'_append_eq_of_le (by decide)]
    rw [BitVec.extractLsb'_append_eq_of_le (by decide)]
    rw [BitVec.extractLsb'_append_eq_of_le (by decide)]
    rw [BitVec.extractLsb'_append_eq_of_le (by decide)]
    rfl
  have h30_2 : BitVec.extractLsb' 30 2 (0x0A#6 ++ o.d ++ o.a ++ 1#1 ++ o.i : Word) = 0#2 := by
    change @BitVec.extractLsb' (6 + 4 + 4 + 1 + 17) 30 2 _ = _
    rw [BitVec.extractLsb'_append_eq_of_le (by decide)]
    rw [BitVec.extractLsb'_append_eq_of_le (by decide)]
    rw [BitVec.extractLsb'_append_eq_of_le (by decide)]
    rw [BitVec.extractLsb'_append_eq_of_le (by decide)]
    rfl
  have h17_1 : (0x0A#6 ++ o.d ++ o.a ++ 1#1 ++ o.i : Word).getLsbD 17 = true := by
    change @BitVec.getLsbD (6 + 4 + 4 + 1 + 17) _ 17 = _
    rw [getLsbD_append_hi _ _ _ (by decide)]
    rw [getLsbD_append_lo _ _ _ (by decide)]
    rfl
  have h22_4 : BitVec.extractLsb' 22 4 (0x0A#6 ++ o.d ++ o.a ++ 1#1 ++ o.i : Word) = o.d := by
    change @BitVec.extractLsb' (6 + 4 + 4 + 1 + 17) 22 4 _ = _
    rw [BitVec.extractLsb'_append_eq_of_le (by decide)]
    rw [BitVec.extractLsb'_append_eq_of_le (by decide)]
    rw [BitVec.extractLsb'_append_eq_of_le (by decide)]
    rw [BitVec.extractLsb'_append_eq_of_add_le (by decide), BitVec.extractLsb'_eq_self]
  have h18_4 : BitVec.extractLsb' 18 4 (0x0A#6 ++ o.d ++ o.a ++ 1#1 ++ o.i : Word) = o.a := by
    change @BitVec.extractLsb' (6 + 4 + 4 + 1 + 17) 18 4 _ = _
    rw [BitVec.extractLsb'_append_eq_of_le (by decide)]
    rw [BitVec.extractLsb'_append_eq_of_le (by decide)]
    rw [BitVec.extractLsb'_append_eq_of_add_le (by decide), BitVec.extractLsb'_eq_self]
  have h0_17 : BitVec.extractLsb' 0 17 (0x0A#6 ++ o.d ++ o.a ++ 1#1 ++ o.i : Word) = o.i := by
    change @BitVec.extractLsb' (6 + 4 + 4 + 1 + 17) 0 17 _ = _
    rw [BitVec.extractLsb'_append_eq_of_add_le (by decide), BitVec.extractLsb'_eq_self]
  show decodeXp (0x0A#6 ++ o.d ++ o.a ++ 1#1 ++ o.i : Word) = _
  refine (decodeXp_op (by rw [h30_2]; decide) h26_6).trans ?_
  refine (if_pos h17_1).trans ?_
  change Except.ok (Instr.xpOrImm ⟨BitVec.extractLsb' 22 4 _, BitVec.extractLsb' 18 4 _, BitVec.extractLsb' 0 17 _⟩) = _
  rw [h22_4, h18_4, h0_17]

theorem RoundTrip.xpCmpEqReg o : RoundTrip.Statement (.xpCmpEqReg o) := by
  intro _ w e
  cases e
  right
  have h26_6 : BitVec.extractLsb' 26 6 (0x0C#6 ++ o.d ++ o.a ++ 0#1 ++ o.b ++ 0#13 : Word) = 12#6 := by
    change @BitVec.extractLsb' (6 + 4 + 4 + 1 + 4 + 13) 26 6 _ = _
    rw [BitVec.extractLsb'_append_eq_of_le (by decide)]
    rw [BitVec.extractLsb'_append_eq_of_le (by decide)]
    rw [BitVec.extractLsb'_append_eq_of_le (by decide)]
    rw [BitVec.extractLsb'_append_eq_of_le (by decide)]
    rw [BitVec.extractLsb'_append_eq_of_le (by decide)]
    rfl
  have h30_2 : BitVec.extractLsb' 30 2 (0x0C#6 ++ o.d ++ o.a ++ 0#1 ++ o.b ++ 0#13 : Word) = 0#2 := by
    change @BitVec.extractLsb' (6 + 4 + 4 + 1 + 4 + 13) 30 2 _ = _
    rw [BitVec.extractLsb'_append_eq_of_le (by decide)]
    rw [BitVec.extractLsb'_append_eq_of_le (by decide)]
    rw [BitVec.extractLsb'_append_eq_of_le (by decide)]
    rw [BitVec.extractLsb'_append_eq_of_le (by decide)]
    rw [BitVec.extractLsb'_append_eq_of_le (by decide)]
    rfl
  have h17_1 : (0x0C#6 ++ o.d ++ o.a ++ 0#1 ++ o.b ++ 0#13 : Word).getLsbD 17 = false := by
    change @BitVec.getLsbD (6 + 4 + 4 + 1 + 4 + 13) _ 17 = _
    rw [getLsbD_append_hi _ _ _ (by decide)]
    rw [getLsbD_append_hi _ _ _ (by decide)]
    rw [getLsbD_append_lo _ _ _ (by decide)]
    rfl
  have h0_13 : BitVec.extractLsb' 0 13 (0x0C#6 ++ o.d ++ o.a ++ 0#1 ++ o.b ++ 0#13 : Word) = 0#13 := by
    change @BitVec.extractLsb' (6 + 4 + 4 + 1 + 4 + 13) 0 13 _ = _
    rw [BitVec.extractLsb'_append_eq_of_add_le (by decide)]
    rfl
  have h22_4 : BitVec.extractLsb' 22 4 (0x0C#6 ++ o.d ++ o.a ++ 0#1 ++ o.b ++ 0#13 : Word) = o.d := by
    change @BitVec.extractLsb' (6 + 4 + 4 + 1 + 4 + 13) 22 4 _ = _
    rw [BitVec.extractLsb'_append_eq_of_le (by decide)]
    rw [BitVec.extractLsb'_append_eq_of_le (by decide)]
    rw [BitVec.extractLsb'_append_eq_of_le (by decide)]
    rw [BitVec.extractLsb'_append_eq_of_le (by decide)]
    rw [BitVec.extractLsb'_append_eq_of_add_le (by decide), BitVec.extractLsb'_eq_self]
  have h18_4 : BitVec.extractLsb' 18 4 (0x0C#6 ++ o.d ++ o.a ++ 0#1 ++ o.b ++ 0#13 : Word) = o.a := by
    change @BitVec.extractLsb' (6 + 4 + 4 + 1 + 4 + 13) 18 4 _ = _
    rw [BitVec.extractLsb'_append_eq_of_le (by decide)]
    rw [BitVec.extractLsb'_append_eq_of_le (by decide)]
    rw [BitVec.extractLsb'_append_eq_of_le (by decide)]
    rw [BitVec.extractLsb'_append_eq_of_add_le (by decide), BitVec.extractLsb'_eq_self]
  have h13_4 : BitVec.extractLsb' 13 4 (0x0C#6 ++ o.d ++ o.a ++ 0#1 ++ o.b ++ 0#13 : Word) = o.b := by
    change @BitVec.extractLsb' (6 + 4 + 4 + 1 + 4 + 13) 13 4 _ = _
    rw [BitVec.extractLsb'_append_eq_of_le (by decide)]
    rw [BitVec.extractLsb'_append_eq_of_add_le (by decide), BitVec.extractLsb'_eq_self]
  show decodeXp (0x0C#6 ++ o.d ++ o.a ++ 0#1 ++ o.b ++ 0#13 : Word) = _
  refine (decodeXp_op (by rw [h30_2]; decide) h26_6).trans ?_
  refine (if_neg (by rw [h17_1]; decide)).trans ?_
  refine (xneed_ok ?_).trans ?_
  · change (BitVec.extractLsb' 0 13 _ == 0#13) = true
    rw [h0_13]
    rfl
  · change Except.ok (Instr.xpCmpEqReg ⟨BitVec.extractLsb' 22 4 _, BitVec.extractLsb' 18 4 _, BitVec.extractLsb' 13 4 _⟩) = _
    rw [h22_4, h18_4, h13_4]

theorem RoundTrip.xpCmpEqImm o : RoundTrip.Statement (.xpCmpEqImm o) := by
  intro _ w e
  cases e
  right
  have h26_6 : BitVec.extractLsb' 26 6 (0x0C#6 ++ o.d ++ o.a ++ 1#1 ++ o.i : Word) = 12#6 := by
    change @BitVec.extractLsb' (6 + 4 + 4 + 1 + 17) 26 6 _ = _
    rw [BitVec.extractLsb'_append_eq_of_le (by decide)]
    rw [BitVec.extractLsb'_append_eq_of_le (by decide)]
    rw [BitVec.extractLsb'_append_eq_of_le (by decide)]
    rw [BitVec.extractLsb'_append_eq_of_le (by decide)]
    rfl
  have h30_2 : BitVec.extractLsb' 30 2 (0x0C#6 ++ o.d ++ o.a ++ 1#1 ++ o.i : Word) = 0#2 := by
    change @BitVec.extractLsb' (6 + 4 + 4 + 1 + 17) 30 2 _ = _
    rw [BitVec.extractLsb'_append_eq_of_le (by decide)]
    rw [BitVec.extractLsb'_append_eq_of_le (by decide)]
    rw [BitVec.extractLsb'_append_eq_of_le (by decide)]
    rw [BitVec.extractLsb'_append_eq_of_le (by decide)]
    rfl
  have h17_1 : (0x0C#6 ++ o.d ++ o.a ++ 1#1 ++ o.i : Word).getLsbD 17 = true := by
    change @BitVec.getLsbD (6 + 4 + 4 + 1 + 17) _ 17 = _
    rw [getLsbD_append_hi _ _ _ (by decide)]
    rw [getLsbD_append_lo _ _ _ (by decide)]
    rfl
  have h22_4 : BitVec.extractLsb' 22 4 (0x0C#6 ++ o.d ++ o.a ++ 1#1 ++ o.i : Word) = o.d := by
    change @BitVec.extractLsb' (6 + 4 + 4 + 1 + 17) 22 4 _ = _
    rw [BitVec.extractLsb'_append_eq_of_le (by decide)]
    rw [BitVec.extractLsb'_append_eq_of_le (by decide)]
    rw [BitVec.extractLsb'_append_eq_of_le (by decide)]
    rw [BitVec.extractLsb'_append_eq_of_add_le (by decide), BitVec.extractLsb'_eq_self]
  have h18_4 : BitVec.extractLsb' 18 4 (0x0C#6 ++ o.d ++ o.a ++ 1#1 ++ o.i : Word) = o.a := by
    change @BitVec.extractLsb' (6 + 4 + 4 + 1 + 17) 18 4 _ = _
    rw [BitVec.extractLsb'_append_eq_of_le (by decide)]
    rw [BitVec.extractLsb'_append_eq_of_le (by decide)]
    rw [BitVec.extractLsb'_append_eq_of_add_le (by decide), BitVec.extractLsb'_eq_self]
  have h0_17 : BitVec.extractLsb' 0 17 (0x0C#6 ++ o.d ++ o.a ++ 1#1 ++ o.i : Word) = o.i := by
    change @BitVec.extractLsb' (6 + 4 + 4 + 1 + 17) 0 17 _ = _
    rw [BitVec.extractLsb'_append_eq_of_add_le (by decide), BitVec.extractLsb'_eq_self]
  show decodeXp (0x0C#6 ++ o.d ++ o.a ++ 1#1 ++ o.i : Word) = _
  refine (decodeXp_op (by rw [h30_2]; decide) h26_6).trans ?_
  refine (if_pos h17_1).trans ?_
  change Except.ok (Instr.xpCmpEqImm ⟨BitVec.extractLsb' 22 4 _, BitVec.extractLsb' 18 4 _, BitVec.extractLsb' 0 17 _⟩) = _
  rw [h22_4, h18_4, h0_17]

theorem RoundTrip.xpCmpNeReg o : RoundTrip.Statement (.xpCmpNeReg o) := by
  intro _ w e
  cases e
  right
  have h26_6 : BitVec.extractLsb' 26 6 (0x0D#6 ++ o.d ++ o.a ++ 0#1 ++ o.b ++ 0#13 : Word) = 13#6 := by
    change @BitVec.extractLsb' (6 + 4 + 4 + 1 + 4 + 13) 26 6 _ = _
    rw [BitVec.extractLsb'_append_eq_of_le (by decide)]
    rw [BitVec.extractLsb'_append_eq_of_le (by decide)]
    rw [BitVec.extractLsb'_append_eq_of_le (by decide)]
    rw [BitVec.extractLsb'_append_eq_of_le (by decide)]
    rw [BitVec.extractLsb'_append_eq_of_le (by decide)]
    rfl
  have h30_2 : BitVec.extractLsb' 30 2 (0x0D#6 ++ o.d ++ o.a ++ 0#1 ++ o.b ++ 0#13 : Word) = 0#2 := by
    change @BitVec.extractLsb' (6 + 4 + 4 + 1 + 4 + 13) 30 2 _ = _
    rw [BitVec.extractLsb'_append_eq_of_le (by decide)]
    rw [BitVec.extractLsb'_append_eq_of_le (by decide)]
    rw [BitVec.extractLsb'_append_eq_of_le (by decide)]
    rw [BitVec.extractLsb'_append_eq_of_le (by decide)]
    rw [BitVec.extractLsb'_append_eq_of_le (by decide)]
    rfl
  have h17_1 : (0x0D#6 ++ o.d ++ o.a ++ 0#1 ++ o.b ++ 0#13 : Word).getLsbD 17 = false := by
    change @BitVec.getLsbD (6 + 4 + 4 + 1 + 4 + 13) _ 17 = _
    rw [getLsbD_append_hi _ _ _ (by decide)]
    rw [getLsbD_append_hi _ _ _ (by decide)]
    rw [getLsbD_append_lo _ _ _ (by decide)]
    rfl
  have h0_13 : BitVec.extractLsb' 0 13 (0x0D#6 ++ o.d ++ o.a ++ 0#1 ++ o.b ++ 0#13 : Word) = 0#13 := by
    change @BitVec.extractLsb' (6 + 4 + 4 + 1 + 4 + 13) 0 13 _ = _
    rw [BitVec.extractLsb'_append_eq_of_add_le (by decide)]
    rfl
  have h22_4 : BitVec.extractLsb' 22 4 (0x0D#6 ++ o.d ++ o.a ++ 0#1 ++ o.b ++ 0#13 : Word) = o.d := by
    change @BitVec.extractLsb' (6 + 4 + 4 + 1 + 4 + 13) 22 4 _ = _
    rw [BitVec.extractLsb'_append_eq_of_le (by decide)]
    rw [BitVec.extractLsb'_append_eq_of_le (by decide)]
    rw [BitVec.extractLsb'_append_eq_of_le (by decide)]
    rw [BitVec.extractLsb'_append_eq_of_le (by decide)]
    rw [BitVec.extractLsb'_append_eq_of_add_le (by decide), BitVec.extractLsb'_eq_self]
  have h18_4 : BitVec.extractLsb' 18 4 (0x0D#6 ++ o.d ++ o.a ++ 0#1 ++ o.b ++ 0#13 : Word) = o.a := by
    change @BitVec.extractLsb' (6 + 4 + 4 + 1 + 4 + 13) 18 4 _ = _
    rw [BitVec.extractLsb'_append_eq_of_le (by decide)]
    rw [BitVec.extractLsb'_append_eq_of_le (by decide)]
    rw [BitVec.extractLsb'_append_eq_of_le (by decide)]
    rw [BitVec.extractLsb'_append_eq_of_add_le (by decide), BitVec.extractLsb'_eq_self]
  have h13_4 : BitVec.extractLsb' 13 4 (0x0D#6 ++ o.d ++ o.a ++ 0#1 ++ o.b ++ 0#13 : Word) = o.b := by
    change @BitVec.extractLsb' (6 + 4 + 4 + 1 + 4 + 13) 13 4 _ = _
    rw [BitVec.extractLsb'_append_eq_of_le (by decide)]
    rw [BitVec.extractLsb'_append_eq_of_add_le (by decide), BitVec.extractLsb'_eq_self]
  show decodeXp (0x0D#6 ++ o.d ++ o.a ++ 0#1 ++ o.b ++ 0#13 : Word) = _
  refine (decodeXp_op (by rw [h30_2]; decide) h26_6).trans ?_
  refine (if_neg (by rw [h17_1]; decide)).trans ?_
  refine (xneed_ok ?_).trans ?_
  · change (BitVec.extractLsb' 0 13 _ == 0#13) = true
    rw [h0_13]
    rfl
  · change Except.ok (Instr.xpCmpNeReg ⟨BitVec.extractLsb' 22 4 _, BitVec.extractLsb' 18 4 _, BitVec.extractLsb' 13 4 _⟩) = _
    rw [h22_4, h18_4, h13_4]

theorem RoundTrip.xpCmpNeImm o : RoundTrip.Statement (.xpCmpNeImm o) := by
  intro _ w e
  cases e
  right
  have h26_6 : BitVec.extractLsb' 26 6 (0x0D#6 ++ o.d ++ o.a ++ 1#1 ++ o.i : Word) = 13#6 := by
    change @BitVec.extractLsb' (6 + 4 + 4 + 1 + 17) 26 6 _ = _
    rw [BitVec.extractLsb'_append_eq_of_le (by decide)]
    rw [BitVec.extractLsb'_append_eq_of_le (by decide)]
    rw [BitVec.extractLsb'_append_eq_of_le (by decide)]
    rw [BitVec.extractLsb'_append_eq_of_le (by decide)]
    rfl
  have h30_2 : BitVec.extractLsb' 30 2 (0x0D#6 ++ o.d ++ o.a ++ 1#1 ++ o.i : Word) = 0#2 := by
    change @BitVec.extractLsb' (6 + 4 + 4 + 1 + 17) 30 2 _ = _
    rw [BitVec.extractLsb'_append_eq_of_le (by decide)]
    rw [BitVec.extractLsb'_append_eq_of_le (by decide)]
    rw [BitVec.extractLsb'_append_eq_of_le (by decide)]
    rw [BitVec.extractLsb'_append_eq_of_le (by decide)]
    rfl
  have h17_1 : (0x0D#6 ++ o.d ++ o.a ++ 1#1 ++ o.i : Word).getLsbD 17 = true := by
    change @BitVec.getLsbD (6 + 4 + 4 + 1 + 17) _ 17 = _
    rw [getLsbD_append_hi _ _ _ (by decide)]
    rw [getLsbD_append_lo _ _ _ (by decide)]
    rfl
  have h22_4 : BitVec.extractLsb' 22 4 (0x0D#6 ++ o.d ++ o.a ++ 1#1 ++ o.i : Word) = o.d := by
    change @BitVec.extractLsb' (6 + 4 + 4 + 1 + 17) 22 4 _ = _
    rw [BitVec.extractLsb'_append_eq_of_le (by decide)]
    rw [BitVec.extractLsb'_append_eq_of_le (by decide)]
    rw [BitVec.extractLsb'_append_eq_of_le (by decide)]
    rw [BitVec.extractLsb'_append_eq_of_add_le (by decide), BitVec.extractLsb'_eq_self]
  have h18_4 : BitVec.extractLsb' 18 4 (0x0D#6 ++ o.d ++ o.a ++ 1#1 ++ o.i : Word) = o.a := by
    change @BitVec.extractLsb' (6 + 4 + 4 + 1 + 17) 18 4 _ = _
    rw [BitVec.extractLsb'_append_eq_of_le (by decide)]
    rw [BitVec.extractLsb'_append_eq_of_le (by decide)]
    rw [BitVec.extractLsb'_append_eq_of_add_le (by decide), BitVec.extractLsb'_eq_self]
  have h0_17 : BitVec.extractLsb' 0 17 (0x0D#6 ++ o.d ++ o.a ++ 1#1 ++ o.i : Word) = o.i := by
    change @BitVec.extractLsb' (6 + 4 + 4 + 1 + 17) 0 17 _ = _
    rw [BitVec.extractLsb'_append_eq_of_add_le (by decide), BitVec.extractLsb'_eq_self]
  show decodeXp (0x0D#6 ++ o.d ++ o.a ++ 1#1 ++ o.i : Word) = _
  refine (decodeXp_op (by rw [h30_2]; decide) h26_6).trans ?_
  refine (if_pos h17_1).trans ?_
  change Except.ok (Instr.xpCmpNeImm ⟨BitVec.extractLsb' 22 4 _, BitVec.extractLsb' 18 4 _, BitVec.extractLsb' 0 17 _⟩) = _
  rw [h22_4, h18_4, h0_17]

theorem RoundTrip.xpCmpLtReg o : RoundTrip.Statement (.xpCmpLtReg o) := by
  intro _ w e
  cases e
  right
  have h26_6 : BitVec.extractLsb' 26 6 (0x0E#6 ++ o.d ++ o.a ++ 0#1 ++ o.b ++ 0#13 : Word) = 14#6 := by
    change @BitVec.extractLsb' (6 + 4 + 4 + 1 + 4 + 13) 26 6 _ = _
    rw [BitVec.extractLsb'_append_eq_of_le (by decide)]
    rw [BitVec.extractLsb'_append_eq_of_le (by decide)]
    rw [BitVec.extractLsb'_append_eq_of_le (by decide)]
    rw [BitVec.extractLsb'_append_eq_of_le (by decide)]
    rw [BitVec.extractLsb'_append_eq_of_le (by decide)]
    rfl
  have h30_2 : BitVec.extractLsb' 30 2 (0x0E#6 ++ o.d ++ o.a ++ 0#1 ++ o.b ++ 0#13 : Word) = 0#2 := by
    change @BitVec.extractLsb' (6 + 4 + 4 + 1 + 4 + 13) 30 2 _ = _
    rw [BitVec.extractLsb'_append_eq_of_le (by decide)]
    rw [BitVec.extractLsb'_append_eq_of_le (by decide)]
    rw [BitVec.extractLsb'_append_eq_of_le (by decide)]
    rw [BitVec.extractLsb'_append_eq_of_le (by decide)]
    rw [BitVec.extractLsb'_append_eq_of_le (by decide)]
    rfl
  have h17_1 : (0x0E#6 ++ o.d ++ o.a ++ 0#1 ++ o.b ++ 0#13 : Word).getLsbD 17 = false := by
    change @BitVec.getLsbD (6 + 4 + 4 + 1 + 4 + 13) _ 17 = _
    rw [getLsbD_append_hi _ _ _ (by decide)]
    rw [getLsbD_append_hi _ _ _ (by decide)]
    rw [getLsbD_append_lo _ _ _ (by decide)]
    rfl
  have h0_13 : BitVec.extractLsb' 0 13 (0x0E#6 ++ o.d ++ o.a ++ 0#1 ++ o.b ++ 0#13 : Word) = 0#13 := by
    change @BitVec.extractLsb' (6 + 4 + 4 + 1 + 4 + 13) 0 13 _ = _
    rw [BitVec.extractLsb'_append_eq_of_add_le (by decide)]
    rfl
  have h22_4 : BitVec.extractLsb' 22 4 (0x0E#6 ++ o.d ++ o.a ++ 0#1 ++ o.b ++ 0#13 : Word) = o.d := by
    change @BitVec.extractLsb' (6 + 4 + 4 + 1 + 4 + 13) 22 4 _ = _
    rw [BitVec.extractLsb'_append_eq_of_le (by decide)]
    rw [BitVec.extractLsb'_append_eq_of_le (by decide)]
    rw [BitVec.extractLsb'_append_eq_of_le (by decide)]
    rw [BitVec.extractLsb'_append_eq_of_le (by decide)]
    rw [BitVec.extractLsb'_append_eq_of_add_le (by decide), BitVec.extractLsb'_eq_self]
  have h18_4 : BitVec.extractLsb' 18 4 (0x0E#6 ++ o.d ++ o.a ++ 0#1 ++ o.b ++ 0#13 : Word) = o.a := by
    change @BitVec.extractLsb' (6 + 4 + 4 + 1 + 4 + 13) 18 4 _ = _
    rw [BitVec.extractLsb'_append_eq_of_le (by decide)]
    rw [BitVec.extractLsb'_append_eq_of_le (by decide)]
    rw [BitVec.extractLsb'_append_eq_of_le (by decide)]
    rw [BitVec.extractLsb'_append_eq_of_add_le (by decide), BitVec.extractLsb'_eq_self]
  have h13_4 : BitVec.extractLsb' 13 4 (0x0E#6 ++ o.d ++ o.a ++ 0#1 ++ o.b ++ 0#13 : Word) = o.b := by
    change @BitVec.extractLsb' (6 + 4 + 4 + 1 + 4 + 13) 13 4 _ = _
    rw [BitVec.extractLsb'_append_eq_of_le (by decide)]
    rw [BitVec.extractLsb'_append_eq_of_add_le (by decide), BitVec.extractLsb'_eq_self]
  show decodeXp (0x0E#6 ++ o.d ++ o.a ++ 0#1 ++ o.b ++ 0#13 : Word) = _
  refine (decodeXp_op (by rw [h30_2]; decide) h26_6).trans ?_
  refine (if_neg (by rw [h17_1]; decide)).trans ?_
  refine (xneed_ok ?_).trans ?_
  · change (BitVec.extractLsb' 0 13 _ == 0#13) = true
    rw [h0_13]
    rfl
  · change Except.ok (Instr.xpCmpLtReg ⟨BitVec.extractLsb' 22 4 _, BitVec.extractLsb' 18 4 _, BitVec.extractLsb' 13 4 _⟩) = _
    rw [h22_4, h18_4, h13_4]

theorem RoundTrip.xpCmpLtImm o : RoundTrip.Statement (.xpCmpLtImm o) := by
  intro _ w e
  cases e
  right
  have h26_6 : BitVec.extractLsb' 26 6 (0x0E#6 ++ o.d ++ o.a ++ 1#1 ++ o.i : Word) = 14#6 := by
    change @BitVec.extractLsb' (6 + 4 + 4 + 1 + 17) 26 6 _ = _
    rw [BitVec.extractLsb'_append_eq_of_le (by decide)]
    rw [BitVec.extractLsb'_append_eq_of_le (by decide)]
    rw [BitVec.extractLsb'_append_eq_of_le (by decide)]
    rw [BitVec.extractLsb'_append_eq_of_le (by decide)]
    rfl
  have h30_2 : BitVec.extractLsb' 30 2 (0x0E#6 ++ o.d ++ o.a ++ 1#1 ++ o.i : Word) = 0#2 := by
    change @BitVec.extractLsb' (6 + 4 + 4 + 1 + 17) 30 2 _ = _
    rw [BitVec.extractLsb'_append_eq_of_le (by decide)]
    rw [BitVec.extractLsb'_append_eq_of_le (by decide)]
    rw [BitVec.extractLsb'_append_eq_of_le (by decide)]
    rw [BitVec.extractLsb'_append_eq_of_le (by decide)]
    rfl
  have h17_1 : (0x0E#6 ++ o.d ++ o.a ++ 1#1 ++ o.i : Word).getLsbD 17 = true := by
    change @BitVec.getLsbD (6 + 4 + 4 + 1 + 17) _ 17 = _
    rw [getLsbD_append_hi _ _ _ (by decide)]
    rw [getLsbD_append_lo _ _ _ (by decide)]
    rfl
  have h22_4 : BitVec.extractLsb' 22 4 (0x0E#6 ++ o.d ++ o.a ++ 1#1 ++ o.i : Word) = o.d := by
    change @BitVec.extractLsb' (6 + 4 + 4 + 1 + 17) 22 4 _ = _
    rw [BitVec.extractLsb'_append_eq_of_le (by decide)]
    rw [BitVec.extractLsb'_append_eq_of_le (by decide)]
    rw [BitVec.extractLsb'_append_eq_of_le (by decide)]
    rw [BitVec.extractLsb'_append_eq_of_add_le (by decide), BitVec.extractLsb'_eq_self]
  have h18_4 : BitVec.extractLsb' 18 4 (0x0E#6 ++ o.d ++ o.a ++ 1#1 ++ o.i : Word) = o.a := by
    change @BitVec.extractLsb' (6 + 4 + 4 + 1 + 17) 18 4 _ = _
    rw [BitVec.extractLsb'_append_eq_of_le (by decide)]
    rw [BitVec.extractLsb'_append_eq_of_le (by decide)]
    rw [BitVec.extractLsb'_append_eq_of_add_le (by decide), BitVec.extractLsb'_eq_self]
  have h0_17 : BitVec.extractLsb' 0 17 (0x0E#6 ++ o.d ++ o.a ++ 1#1 ++ o.i : Word) = o.i := by
    change @BitVec.extractLsb' (6 + 4 + 4 + 1 + 17) 0 17 _ = _
    rw [BitVec.extractLsb'_append_eq_of_add_le (by decide), BitVec.extractLsb'_eq_self]
  show decodeXp (0x0E#6 ++ o.d ++ o.a ++ 1#1 ++ o.i : Word) = _
  refine (decodeXp_op (by rw [h30_2]; decide) h26_6).trans ?_
  refine (if_pos h17_1).trans ?_
  change Except.ok (Instr.xpCmpLtImm ⟨BitVec.extractLsb' 22 4 _, BitVec.extractLsb' 18 4 _, BitVec.extractLsb' 0 17 _⟩) = _
  rw [h22_4, h18_4, h0_17]

theorem RoundTrip.xpCmpLtuReg o : RoundTrip.Statement (.xpCmpLtuReg o) := by
  intro _ w e
  cases e
  right
  have h26_6 : BitVec.extractLsb' 26 6 (0x0F#6 ++ o.d ++ o.a ++ 0#1 ++ o.b ++ 0#13 : Word) = 15#6 := by
    change @BitVec.extractLsb' (6 + 4 + 4 + 1 + 4 + 13) 26 6 _ = _
    rw [BitVec.extractLsb'_append_eq_of_le (by decide)]
    rw [BitVec.extractLsb'_append_eq_of_le (by decide)]
    rw [BitVec.extractLsb'_append_eq_of_le (by decide)]
    rw [BitVec.extractLsb'_append_eq_of_le (by decide)]
    rw [BitVec.extractLsb'_append_eq_of_le (by decide)]
    rfl
  have h30_2 : BitVec.extractLsb' 30 2 (0x0F#6 ++ o.d ++ o.a ++ 0#1 ++ o.b ++ 0#13 : Word) = 0#2 := by
    change @BitVec.extractLsb' (6 + 4 + 4 + 1 + 4 + 13) 30 2 _ = _
    rw [BitVec.extractLsb'_append_eq_of_le (by decide)]
    rw [BitVec.extractLsb'_append_eq_of_le (by decide)]
    rw [BitVec.extractLsb'_append_eq_of_le (by decide)]
    rw [BitVec.extractLsb'_append_eq_of_le (by decide)]
    rw [BitVec.extractLsb'_append_eq_of_le (by decide)]
    rfl
  have h17_1 : (0x0F#6 ++ o.d ++ o.a ++ 0#1 ++ o.b ++ 0#13 : Word).getLsbD 17 = false := by
    change @BitVec.getLsbD (6 + 4 + 4 + 1 + 4 + 13) _ 17 = _
    rw [getLsbD_append_hi _ _ _ (by decide)]
    rw [getLsbD_append_hi _ _ _ (by decide)]
    rw [getLsbD_append_lo _ _ _ (by decide)]
    rfl
  have h0_13 : BitVec.extractLsb' 0 13 (0x0F#6 ++ o.d ++ o.a ++ 0#1 ++ o.b ++ 0#13 : Word) = 0#13 := by
    change @BitVec.extractLsb' (6 + 4 + 4 + 1 + 4 + 13) 0 13 _ = _
    rw [BitVec.extractLsb'_append_eq_of_add_le (by decide)]
    rfl
  have h22_4 : BitVec.extractLsb' 22 4 (0x0F#6 ++ o.d ++ o.a ++ 0#1 ++ o.b ++ 0#13 : Word) = o.d := by
    change @BitVec.extractLsb' (6 + 4 + 4 + 1 + 4 + 13) 22 4 _ = _
    rw [BitVec.extractLsb'_append_eq_of_le (by decide)]
    rw [BitVec.extractLsb'_append_eq_of_le (by decide)]
    rw [BitVec.extractLsb'_append_eq_of_le (by decide)]
    rw [BitVec.extractLsb'_append_eq_of_le (by decide)]
    rw [BitVec.extractLsb'_append_eq_of_add_le (by decide), BitVec.extractLsb'_eq_self]
  have h18_4 : BitVec.extractLsb' 18 4 (0x0F#6 ++ o.d ++ o.a ++ 0#1 ++ o.b ++ 0#13 : Word) = o.a := by
    change @BitVec.extractLsb' (6 + 4 + 4 + 1 + 4 + 13) 18 4 _ = _
    rw [BitVec.extractLsb'_append_eq_of_le (by decide)]
    rw [BitVec.extractLsb'_append_eq_of_le (by decide)]
    rw [BitVec.extractLsb'_append_eq_of_le (by decide)]
    rw [BitVec.extractLsb'_append_eq_of_add_le (by decide), BitVec.extractLsb'_eq_self]
  have h13_4 : BitVec.extractLsb' 13 4 (0x0F#6 ++ o.d ++ o.a ++ 0#1 ++ o.b ++ 0#13 : Word) = o.b := by
    change @BitVec.extractLsb' (6 + 4 + 4 + 1 + 4 + 13) 13 4 _ = _
    rw [BitVec.extractLsb'_append_eq_of_le (by decide)]
    rw [BitVec.extractLsb'_append_eq_of_add_le (by decide), BitVec.extractLsb'_eq_self]
  show decodeXp (0x0F#6 ++ o.d ++ o.a ++ 0#1 ++ o.b ++ 0#13 : Word) = _
  refine (decodeXp_op (by rw [h30_2]; decide) h26_6).trans ?_
  refine (if_neg (by rw [h17_1]; decide)).trans ?_
  refine (xneed_ok ?_).trans ?_
  · change (BitVec.extractLsb' 0 13 _ == 0#13) = true
    rw [h0_13]
    rfl
  · change Except.ok (Instr.xpCmpLtuReg ⟨BitVec.extractLsb' 22 4 _, BitVec.extractLsb' 18 4 _, BitVec.extractLsb' 13 4 _⟩) = _
    rw [h22_4, h18_4, h13_4]

theorem RoundTrip.xpCmpLtuImm o : RoundTrip.Statement (.xpCmpLtuImm o) := by
  intro _ w e
  cases e
  right
  have h26_6 : BitVec.extractLsb' 26 6 (0x0F#6 ++ o.d ++ o.a ++ 1#1 ++ o.i : Word) = 15#6 := by
    change @BitVec.extractLsb' (6 + 4 + 4 + 1 + 17) 26 6 _ = _
    rw [BitVec.extractLsb'_append_eq_of_le (by decide)]
    rw [BitVec.extractLsb'_append_eq_of_le (by decide)]
    rw [BitVec.extractLsb'_append_eq_of_le (by decide)]
    rw [BitVec.extractLsb'_append_eq_of_le (by decide)]
    rfl
  have h30_2 : BitVec.extractLsb' 30 2 (0x0F#6 ++ o.d ++ o.a ++ 1#1 ++ o.i : Word) = 0#2 := by
    change @BitVec.extractLsb' (6 + 4 + 4 + 1 + 17) 30 2 _ = _
    rw [BitVec.extractLsb'_append_eq_of_le (by decide)]
    rw [BitVec.extractLsb'_append_eq_of_le (by decide)]
    rw [BitVec.extractLsb'_append_eq_of_le (by decide)]
    rw [BitVec.extractLsb'_append_eq_of_le (by decide)]
    rfl
  have h17_1 : (0x0F#6 ++ o.d ++ o.a ++ 1#1 ++ o.i : Word).getLsbD 17 = true := by
    change @BitVec.getLsbD (6 + 4 + 4 + 1 + 17) _ 17 = _
    rw [getLsbD_append_hi _ _ _ (by decide)]
    rw [getLsbD_append_lo _ _ _ (by decide)]
    rfl
  have h22_4 : BitVec.extractLsb' 22 4 (0x0F#6 ++ o.d ++ o.a ++ 1#1 ++ o.i : Word) = o.d := by
    change @BitVec.extractLsb' (6 + 4 + 4 + 1 + 17) 22 4 _ = _
    rw [BitVec.extractLsb'_append_eq_of_le (by decide)]
    rw [BitVec.extractLsb'_append_eq_of_le (by decide)]
    rw [BitVec.extractLsb'_append_eq_of_le (by decide)]
    rw [BitVec.extractLsb'_append_eq_of_add_le (by decide), BitVec.extractLsb'_eq_self]
  have h18_4 : BitVec.extractLsb' 18 4 (0x0F#6 ++ o.d ++ o.a ++ 1#1 ++ o.i : Word) = o.a := by
    change @BitVec.extractLsb' (6 + 4 + 4 + 1 + 17) 18 4 _ = _
    rw [BitVec.extractLsb'_append_eq_of_le (by decide)]
    rw [BitVec.extractLsb'_append_eq_of_le (by decide)]
    rw [BitVec.extractLsb'_append_eq_of_add_le (by decide), BitVec.extractLsb'_eq_self]
  have h0_17 : BitVec.extractLsb' 0 17 (0x0F#6 ++ o.d ++ o.a ++ 1#1 ++ o.i : Word) = o.i := by
    change @BitVec.extractLsb' (6 + 4 + 4 + 1 + 17) 0 17 _ = _
    rw [BitVec.extractLsb'_append_eq_of_add_le (by decide), BitVec.extractLsb'_eq_self]
  show decodeXp (0x0F#6 ++ o.d ++ o.a ++ 1#1 ++ o.i : Word) = _
  refine (decodeXp_op (by rw [h30_2]; decide) h26_6).trans ?_
  refine (if_pos h17_1).trans ?_
  change Except.ok (Instr.xpCmpLtuImm ⟨BitVec.extractLsb' 22 4 _, BitVec.extractLsb' 18 4 _, BitVec.extractLsb' 0 17 _⟩) = _
  rw [h22_4, h18_4, h0_17]

theorem RoundTrip.xpBr f : RoundTrip.Statement (.xpBr f) := by
  intro _ w e
  cases e
  right
  have h26_6 : BitVec.extractLsb' 26 6 (0x10#6 ++ 0#10 ++ f : Word) = 16#6 := by
    change @BitVec.extractLsb' (6 + 10 + 16) 26 6 _ = _
    rw [BitVec.extractLsb'_append_eq_of_le (by decide)]
    rw [BitVec.extractLsb'_append_eq_of_le (by decide)]
    rfl
  have h30_2 : BitVec.extractLsb' 30 2 (0x10#6 ++ 0#10 ++ f : Word) = 1#2 := by
    change @BitVec.extractLsb' (6 + 10 + 16) 30 2 _ = _
    rw [BitVec.extractLsb'_append_eq_of_le (by decide)]
    rw [BitVec.extractLsb'_append_eq_of_le (by decide)]
    rfl
  have h16_10 : BitVec.extractLsb' 16 10 (0x10#6 ++ 0#10 ++ f : Word) = 0#10 := by
    change @BitVec.extractLsb' (6 + 10 + 16) 16 10 _ = _
    rw [BitVec.extractLsb'_append_eq_of_le (by decide)]
    rw [BitVec.extractLsb'_append_eq_of_add_le (by decide)]
    rfl
  have h0_16 : BitVec.extractLsb' 0 16 (0x10#6 ++ 0#10 ++ f : Word) = f := by
    change @BitVec.extractLsb' (6 + 10 + 16) 0 16 _ = _
    rw [BitVec.extractLsb'_append_eq_of_add_le (by decide), BitVec.extractLsb'_eq_self]
  show decodeXp (0x10#6 ++ 0#10 ++ f : Word) = _
  refine (decodeXp_op (by rw [h30_2]; decide) h26_6).trans ?_
  refine (xneed_ok ?_).trans ?_
  · change (BitVec.extractLsb' 16 10 _ == 0#10) = true
    rw [h16_10]
    rfl
  · change Except.ok (Instr.xpBr (BitVec.extractLsb' 0 16 _)) = _
    rw [h0_16]

theorem RoundTrip.xpBz a f : RoundTrip.Statement (.xpBz a f) := by
  intro _ w e
  cases e
  right
  have h26_6 : BitVec.extractLsb' 26 6 (0x11#6 ++ a ++ 0#6 ++ f : Word) = 17#6 := by
    change @BitVec.extractLsb' (6 + 4 + 6 + 16) 26 6 _ = _
    rw [BitVec.extractLsb'_append_eq_of_le (by decide)]
    rw [BitVec.extractLsb'_append_eq_of_le (by decide)]
    rw [BitVec.extractLsb'_append_eq_of_le (by decide)]
    rfl
  have h30_2 : BitVec.extractLsb' 30 2 (0x11#6 ++ a ++ 0#6 ++ f : Word) = 1#2 := by
    change @BitVec.extractLsb' (6 + 4 + 6 + 16) 30 2 _ = _
    rw [BitVec.extractLsb'_append_eq_of_le (by decide)]
    rw [BitVec.extractLsb'_append_eq_of_le (by decide)]
    rw [BitVec.extractLsb'_append_eq_of_le (by decide)]
    rfl
  have h16_6 : BitVec.extractLsb' 16 6 (0x11#6 ++ a ++ 0#6 ++ f : Word) = 0#6 := by
    change @BitVec.extractLsb' (6 + 4 + 6 + 16) 16 6 _ = _
    rw [BitVec.extractLsb'_append_eq_of_le (by decide)]
    rw [BitVec.extractLsb'_append_eq_of_add_le (by decide)]
    rfl
  have h22_4 : BitVec.extractLsb' 22 4 (0x11#6 ++ a ++ 0#6 ++ f : Word) = a := by
    change @BitVec.extractLsb' (6 + 4 + 6 + 16) 22 4 _ = _
    rw [BitVec.extractLsb'_append_eq_of_le (by decide)]
    rw [BitVec.extractLsb'_append_eq_of_le (by decide)]
    rw [BitVec.extractLsb'_append_eq_of_add_le (by decide), BitVec.extractLsb'_eq_self]
  have h0_16 : BitVec.extractLsb' 0 16 (0x11#6 ++ a ++ 0#6 ++ f : Word) = f := by
    change @BitVec.extractLsb' (6 + 4 + 6 + 16) 0 16 _ = _
    rw [BitVec.extractLsb'_append_eq_of_add_le (by decide), BitVec.extractLsb'_eq_self]
  show decodeXp (0x11#6 ++ a ++ 0#6 ++ f : Word) = _
  refine (decodeXp_op (by rw [h30_2]; decide) h26_6).trans ?_
  refine (xneed_ok ?_).trans ?_
  · change (BitVec.extractLsb' 16 6 _ == 0#6) = true
    rw [h16_6]
    rfl
  · change Except.ok (Instr.xpBz (BitVec.extractLsb' 22 4 _) (BitVec.extractLsb' 0 16 _)) = _
    rw [h22_4, h0_16]

theorem RoundTrip.xpBnz a f : RoundTrip.Statement (.xpBnz a f) := by
  intro _ w e
  cases e
  right
  have h26_6 : BitVec.extractLsb' 26 6 (0x12#6 ++ a ++ 0#6 ++ f : Word) = 18#6 := by
    change @BitVec.extractLsb' (6 + 4 + 6 + 16) 26 6 _ = _
    rw [BitVec.extractLsb'_append_eq_of_le (by decide)]
    rw [BitVec.extractLsb'_append_eq_of_le (by decide)]
    rw [BitVec.extractLsb'_append_eq_of_le (by decide)]
    rfl
  have h30_2 : BitVec.extractLsb' 30 2 (0x12#6 ++ a ++ 0#6 ++ f : Word) = 1#2 := by
    change @BitVec.extractLsb' (6 + 4 + 6 + 16) 30 2 _ = _
    rw [BitVec.extractLsb'_append_eq_of_le (by decide)]
    rw [BitVec.extractLsb'_append_eq_of_le (by decide)]
    rw [BitVec.extractLsb'_append_eq_of_le (by decide)]
    rfl
  have h16_6 : BitVec.extractLsb' 16 6 (0x12#6 ++ a ++ 0#6 ++ f : Word) = 0#6 := by
    change @BitVec.extractLsb' (6 + 4 + 6 + 16) 16 6 _ = _
    rw [BitVec.extractLsb'_append_eq_of_le (by decide)]
    rw [BitVec.extractLsb'_append_eq_of_add_le (by decide)]
    rfl
  have h22_4 : BitVec.extractLsb' 22 4 (0x12#6 ++ a ++ 0#6 ++ f : Word) = a := by
    change @BitVec.extractLsb' (6 + 4 + 6 + 16) 22 4 _ = _
    rw [BitVec.extractLsb'_append_eq_of_le (by decide)]
    rw [BitVec.extractLsb'_append_eq_of_le (by decide)]
    rw [BitVec.extractLsb'_append_eq_of_add_le (by decide), BitVec.extractLsb'_eq_self]
  have h0_16 : BitVec.extractLsb' 0 16 (0x12#6 ++ a ++ 0#6 ++ f : Word) = f := by
    change @BitVec.extractLsb' (6 + 4 + 6 + 16) 0 16 _ = _
    rw [BitVec.extractLsb'_append_eq_of_add_le (by decide), BitVec.extractLsb'_eq_self]
  show decodeXp (0x12#6 ++ a ++ 0#6 ++ f : Word) = _
  refine (decodeXp_op (by rw [h30_2]; decide) h26_6).trans ?_
  refine (xneed_ok ?_).trans ?_
  · change (BitVec.extractLsb' 16 6 _ == 0#6) = true
    rw [h16_6]
    rfl
  · change Except.ok (Instr.xpBnz (BitVec.extractLsb' 22 4 _) (BitVec.extractLsb' 0 16 _)) = _
    rw [h22_4, h0_16]

theorem RoundTrip.xpLoopReg a f : RoundTrip.Statement (.xpLoopReg a f) := by
  intro h w e
  cases e
  right
  have h26_6 : BitVec.extractLsb' 26 6 (0x13#6 ++ a ++ 0#12 ++ f : Word) = 19#6 := by
    change @BitVec.extractLsb' (6 + 4 + 12 + 10) 26 6 _ = _
    rw [BitVec.extractLsb'_append_eq_of_le (by decide)]
    rw [BitVec.extractLsb'_append_eq_of_le (by decide)]
    rw [BitVec.extractLsb'_append_eq_of_le (by decide)]
    rfl
  have h30_2 : BitVec.extractLsb' 30 2 (0x13#6 ++ a ++ 0#12 ++ f : Word) = 1#2 := by
    change @BitVec.extractLsb' (6 + 4 + 12 + 10) 30 2 _ = _
    rw [BitVec.extractLsb'_append_eq_of_le (by decide)]
    rw [BitVec.extractLsb'_append_eq_of_le (by decide)]
    rw [BitVec.extractLsb'_append_eq_of_le (by decide)]
    rfl
  have h21_1 : (0x13#6 ++ a ++ 0#12 ++ f : Word).getLsbD 21 = false := by
    change @BitVec.getLsbD (6 + 4 + 12 + 10) _ 21 = _
    rw [getLsbD_append_hi _ _ _ (by decide)]
    rw [getLsbD_append_lo _ _ _ (by decide)]
    rfl
  have h10_11 : BitVec.extractLsb' 10 11 (0x13#6 ++ a ++ 0#12 ++ f : Word) = 0#11 := by
    change @BitVec.extractLsb' (6 + 4 + 12 + 10) 10 11 _ = _
    rw [BitVec.extractLsb'_append_eq_of_le (by decide)]
    rw [BitVec.extractLsb'_append_eq_of_add_le (by decide)]
    rfl
  have h0_10 : BitVec.extractLsb' 0 10 (0x13#6 ++ a ++ 0#12 ++ f : Word) = f := by
    change @BitVec.extractLsb' (6 + 4 + 12 + 10) 0 10 _ = _
    rw [BitVec.extractLsb'_append_eq_of_add_le (by decide), BitVec.extractLsb'_eq_self]
  have h22_4 : BitVec.extractLsb' 22 4 (0x13#6 ++ a ++ 0#12 ++ f : Word) = a := by
    change @BitVec.extractLsb' (6 + 4 + 12 + 10) 22 4 _ = _
    rw [BitVec.extractLsb'_append_eq_of_le (by decide)]
    rw [BitVec.extractLsb'_append_eq_of_le (by decide)]
    rw [BitVec.extractLsb'_append_eq_of_add_le (by decide), BitVec.extractLsb'_eq_self]
  show decodeXp (0x13#6 ++ a ++ 0#12 ++ f : Word) = _
  refine (decodeXp_op (by rw [h30_2]; decide) h26_6).trans ?_
  refine (if_neg (by rw [h21_1]; decide)).trans ?_
  refine (xneed_ok ?_).trans ?_
  · change (BitVec.extractLsb' 10 11 _ == 0#11 && BitVec.extractLsb' 0 10 _ != 0#10) = true
    rw [h10_11, h0_10]
    have h : (f != 0#10) = true := h
    simpa using h
  · change Except.ok (Instr.xpLoopReg (BitVec.extractLsb' 22 4 _) (BitVec.extractLsb' 0 10 _)) = _
    rw [h22_4, h0_10]

theorem RoundTrip.xpLoopImm a m f : RoundTrip.Statement (.xpLoopImm a m f) := by
  intro h w e
  cases e
  right
  have h26_6 : BitVec.extractLsb' 26 6 (0x13#6 ++ a ++ 1#1 ++ m ++ f : Word) = 19#6 := by
    change @BitVec.extractLsb' (6 + 4 + 1 + 11 + 10) 26 6 _ = _
    rw [BitVec.extractLsb'_append_eq_of_le (by decide)]
    rw [BitVec.extractLsb'_append_eq_of_le (by decide)]
    rw [BitVec.extractLsb'_append_eq_of_le (by decide)]
    rw [BitVec.extractLsb'_append_eq_of_le (by decide)]
    rfl
  have h30_2 : BitVec.extractLsb' 30 2 (0x13#6 ++ a ++ 1#1 ++ m ++ f : Word) = 1#2 := by
    change @BitVec.extractLsb' (6 + 4 + 1 + 11 + 10) 30 2 _ = _
    rw [BitVec.extractLsb'_append_eq_of_le (by decide)]
    rw [BitVec.extractLsb'_append_eq_of_le (by decide)]
    rw [BitVec.extractLsb'_append_eq_of_le (by decide)]
    rw [BitVec.extractLsb'_append_eq_of_le (by decide)]
    rfl
  have h21_1 : (0x13#6 ++ a ++ 1#1 ++ m ++ f : Word).getLsbD 21 = true := by
    change @BitVec.getLsbD (6 + 4 + 1 + 11 + 10) _ 21 = _
    rw [getLsbD_append_hi _ _ _ (by decide)]
    rw [getLsbD_append_hi _ _ _ (by decide)]
    rw [getLsbD_append_lo _ _ _ (by decide)]
    rfl
  have h0_10 : BitVec.extractLsb' 0 10 (0x13#6 ++ a ++ 1#1 ++ m ++ f : Word) = f := by
    change @BitVec.extractLsb' (6 + 4 + 1 + 11 + 10) 0 10 _ = _
    rw [BitVec.extractLsb'_append_eq_of_add_le (by decide), BitVec.extractLsb'_eq_self]
  have h22_4 : BitVec.extractLsb' 22 4 (0x13#6 ++ a ++ 1#1 ++ m ++ f : Word) = a := by
    change @BitVec.extractLsb' (6 + 4 + 1 + 11 + 10) 22 4 _ = _
    rw [BitVec.extractLsb'_append_eq_of_le (by decide)]
    rw [BitVec.extractLsb'_append_eq_of_le (by decide)]
    rw [BitVec.extractLsb'_append_eq_of_le (by decide)]
    rw [BitVec.extractLsb'_append_eq_of_add_le (by decide), BitVec.extractLsb'_eq_self]
  have h10_11 : BitVec.extractLsb' 10 11 (0x13#6 ++ a ++ 1#1 ++ m ++ f : Word) = m := by
    change @BitVec.extractLsb' (6 + 4 + 1 + 11 + 10) 10 11 _ = _
    rw [BitVec.extractLsb'_append_eq_of_le (by decide)]
    rw [BitVec.extractLsb'_append_eq_of_add_le (by decide), BitVec.extractLsb'_eq_self]
  show decodeXp (0x13#6 ++ a ++ 1#1 ++ m ++ f : Word) = _
  refine (decodeXp_op (by rw [h30_2]; decide) h26_6).trans ?_
  refine (if_pos h21_1).trans ?_
  refine (xneed_ok ?_).trans ?_
  · change (BitVec.extractLsb' 0 10 _ != 0#10) = true
    rw [h0_10]
    have h : (f != 0#10) = true := h
    simpa using h
  · change Except.ok (Instr.xpLoopImm (BitVec.extractLsb' 22 4 _) (BitVec.extractLsb' 10 11 _) (BitVec.extractLsb' 0 10 _)) = _
    rw [h22_4, h10_11, h0_10]

theorem RoundTrip.xpEndl : RoundTrip.Statement (.xpEndl) := by
  intro _ w e
  cases e
  right
  have h26_6 : BitVec.extractLsb' 26 6 (0x14#6 ++ 0#26 : Word) = 20#6 := by
    change @BitVec.extractLsb' (6 + 26) 26 6 _ = _
    rw [BitVec.extractLsb'_append_eq_of_le (by decide)]
    rfl
  have h30_2 : BitVec.extractLsb' 30 2 (0x14#6 ++ 0#26 : Word) = 1#2 := by
    change @BitVec.extractLsb' (6 + 26) 30 2 _ = _
    rw [BitVec.extractLsb'_append_eq_of_le (by decide)]
    rfl
  have h0_26 : BitVec.extractLsb' 0 26 (0x14#6 ++ 0#26 : Word) = 0#26 := by
    change @BitVec.extractLsb' (6 + 26) 0 26 _ = _
    rw [BitVec.extractLsb'_append_eq_of_add_le (by decide)]
    rfl
  show decodeXp (0x14#6 ++ 0#26 : Word) = _
  refine (decodeXp_op (by rw [h30_2]; decide) h26_6).trans ?_
  refine (xneed_ok ?_).trans ?_
  · change (BitVec.extractLsb' 0 26 _ == 0#26) = true
    rw [h0_26]
    rfl
  · rfl

theorem RoundTrip.xpCurSet k n : RoundTrip.Statement (.xpCurSet k n) := by
  intro _ w e
  cases e
  right
  have h26_6 : BitVec.extractLsb' 26 6 (0x15#6 ++ k ++ n ++ 0#17 : Word) = 21#6 := by
    change @BitVec.extractLsb' (6 + 2 + 7 + 17) 26 6 _ = _
    rw [BitVec.extractLsb'_append_eq_of_le (by decide)]
    rw [BitVec.extractLsb'_append_eq_of_le (by decide)]
    rw [BitVec.extractLsb'_append_eq_of_le (by decide)]
    rfl
  have h30_2 : BitVec.extractLsb' 30 2 (0x15#6 ++ k ++ n ++ 0#17 : Word) = 1#2 := by
    change @BitVec.extractLsb' (6 + 2 + 7 + 17) 30 2 _ = _
    rw [BitVec.extractLsb'_append_eq_of_le (by decide)]
    rw [BitVec.extractLsb'_append_eq_of_le (by decide)]
    rw [BitVec.extractLsb'_append_eq_of_le (by decide)]
    rfl
  have h0_17 : BitVec.extractLsb' 0 17 (0x15#6 ++ k ++ n ++ 0#17 : Word) = 0#17 := by
    change @BitVec.extractLsb' (6 + 2 + 7 + 17) 0 17 _ = _
    rw [BitVec.extractLsb'_append_eq_of_add_le (by decide)]
    rfl
  have h24_2 : BitVec.extractLsb' 24 2 (0x15#6 ++ k ++ n ++ 0#17 : Word) = k := by
    change @BitVec.extractLsb' (6 + 2 + 7 + 17) 24 2 _ = _
    rw [BitVec.extractLsb'_append_eq_of_le (by decide)]
    rw [BitVec.extractLsb'_append_eq_of_le (by decide)]
    rw [BitVec.extractLsb'_append_eq_of_add_le (by decide), BitVec.extractLsb'_eq_self]
  have h17_7 : BitVec.extractLsb' 17 7 (0x15#6 ++ k ++ n ++ 0#17 : Word) = n := by
    change @BitVec.extractLsb' (6 + 2 + 7 + 17) 17 7 _ = _
    rw [BitVec.extractLsb'_append_eq_of_le (by decide)]
    rw [BitVec.extractLsb'_append_eq_of_add_le (by decide), BitVec.extractLsb'_eq_self]
  show decodeXp (0x15#6 ++ k ++ n ++ 0#17 : Word) = _
  refine (decodeXp_op (by rw [h30_2]; decide) h26_6).trans ?_
  refine (xneed_ok ?_).trans ?_
  · change (BitVec.extractLsb' 0 17 _ == 0#17) = true
    rw [h0_17]
    rfl
  · change Except.ok (Instr.xpCurSet (BitVec.extractLsb' 24 2 _) (BitVec.extractLsb' 17 7 _)) = _
    rw [h24_2, h17_7]

theorem RoundTrip.xpCurStepReg k d a : RoundTrip.Statement (.xpCurStepReg k d a) := by
  intro h w e
  cases e
  right
  have h26_6 : BitVec.extractLsb' 26 6 (0x16#6 ++ k ++ d ++ 0#1 ++ a ++ 0#16 : Word) = 22#6 := by
    change @BitVec.extractLsb' (6 + 2 + 3 + 1 + 4 + 16) 26 6 _ = _
    rw [BitVec.extractLsb'_append_eq_of_le (by decide)]
    rw [BitVec.extractLsb'_append_eq_of_le (by decide)]
    rw [BitVec.extractLsb'_append_eq_of_le (by decide)]
    rw [BitVec.extractLsb'_append_eq_of_le (by decide)]
    rw [BitVec.extractLsb'_append_eq_of_le (by decide)]
    rfl
  have h30_2 : BitVec.extractLsb' 30 2 (0x16#6 ++ k ++ d ++ 0#1 ++ a ++ 0#16 : Word) = 1#2 := by
    change @BitVec.extractLsb' (6 + 2 + 3 + 1 + 4 + 16) 30 2 _ = _
    rw [BitVec.extractLsb'_append_eq_of_le (by decide)]
    rw [BitVec.extractLsb'_append_eq_of_le (by decide)]
    rw [BitVec.extractLsb'_append_eq_of_le (by decide)]
    rw [BitVec.extractLsb'_append_eq_of_le (by decide)]
    rw [BitVec.extractLsb'_append_eq_of_le (by decide)]
    rfl
  have h20_1 : (0x16#6 ++ k ++ d ++ 0#1 ++ a ++ 0#16 : Word).getLsbD 20 = false := by
    change @BitVec.getLsbD (6 + 2 + 3 + 1 + 4 + 16) _ 20 = _
    rw [getLsbD_append_hi _ _ _ (by decide)]
    rw [getLsbD_append_hi _ _ _ (by decide)]
    rw [getLsbD_append_lo _ _ _ (by decide)]
    rfl
  have h0_16 : BitVec.extractLsb' 0 16 (0x16#6 ++ k ++ d ++ 0#1 ++ a ++ 0#16 : Word) = 0#16 := by
    change @BitVec.extractLsb' (6 + 2 + 3 + 1 + 4 + 16) 0 16 _ = _
    rw [BitVec.extractLsb'_append_eq_of_add_le (by decide)]
    rfl
  have h21_3 : BitVec.extractLsb' 21 3 (0x16#6 ++ k ++ d ++ 0#1 ++ a ++ 0#16 : Word) = d := by
    change @BitVec.extractLsb' (6 + 2 + 3 + 1 + 4 + 16) 21 3 _ = _
    rw [BitVec.extractLsb'_append_eq_of_le (by decide)]
    rw [BitVec.extractLsb'_append_eq_of_le (by decide)]
    rw [BitVec.extractLsb'_append_eq_of_le (by decide)]
    rw [BitVec.extractLsb'_append_eq_of_add_le (by decide), BitVec.extractLsb'_eq_self]
  have h24_2 : BitVec.extractLsb' 24 2 (0x16#6 ++ k ++ d ++ 0#1 ++ a ++ 0#16 : Word) = k := by
    change @BitVec.extractLsb' (6 + 2 + 3 + 1 + 4 + 16) 24 2 _ = _
    rw [BitVec.extractLsb'_append_eq_of_le (by decide)]
    rw [BitVec.extractLsb'_append_eq_of_le (by decide)]
    rw [BitVec.extractLsb'_append_eq_of_le (by decide)]
    rw [BitVec.extractLsb'_append_eq_of_le (by decide)]
    rw [BitVec.extractLsb'_append_eq_of_add_le (by decide), BitVec.extractLsb'_eq_self]
  have h16_4 : BitVec.extractLsb' 16 4 (0x16#6 ++ k ++ d ++ 0#1 ++ a ++ 0#16 : Word) = a := by
    change @BitVec.extractLsb' (6 + 2 + 3 + 1 + 4 + 16) 16 4 _ = _
    rw [BitVec.extractLsb'_append_eq_of_le (by decide)]
    rw [BitVec.extractLsb'_append_eq_of_add_le (by decide), BitVec.extractLsb'_eq_self]
  show decodeXp (0x16#6 ++ k ++ d ++ 0#1 ++ a ++ 0#16 : Word) = _
  refine (decodeXp_op (by rw [h30_2]; decide) h26_6).trans ?_
  refine (if_neg (by rw [h20_1]; decide)).trans ?_
  refine (xneed_ok ?_).trans ?_
  · change (BitVec.extractLsb' 0 16 _ == 0#16 && dimOk (BitVec.extractLsb' 21 3 _)) = true
    rw [h0_16, h21_3]
    have h : (dimOk d) = true := h
    simpa using h
  · change Except.ok (Instr.xpCurStepReg (BitVec.extractLsb' 24 2 _) (BitVec.extractLsb' 21 3 _) (BitVec.extractLsb' 16 4 _)) = _
    rw [h24_2, h21_3, h16_4]

theorem RoundTrip.xpCurStepImm k d m : RoundTrip.Statement (.xpCurStepImm k d m) := by
  intro h w e
  cases e
  right
  have h26_6 : BitVec.extractLsb' 26 6 (0x16#6 ++ k ++ d ++ 1#1 ++ 0#4 ++ m : Word) = 22#6 := by
    change @BitVec.extractLsb' (6 + 2 + 3 + 1 + 4 + 16) 26 6 _ = _
    rw [BitVec.extractLsb'_append_eq_of_le (by decide)]
    rw [BitVec.extractLsb'_append_eq_of_le (by decide)]
    rw [BitVec.extractLsb'_append_eq_of_le (by decide)]
    rw [BitVec.extractLsb'_append_eq_of_le (by decide)]
    rw [BitVec.extractLsb'_append_eq_of_le (by decide)]
    rfl
  have h30_2 : BitVec.extractLsb' 30 2 (0x16#6 ++ k ++ d ++ 1#1 ++ 0#4 ++ m : Word) = 1#2 := by
    change @BitVec.extractLsb' (6 + 2 + 3 + 1 + 4 + 16) 30 2 _ = _
    rw [BitVec.extractLsb'_append_eq_of_le (by decide)]
    rw [BitVec.extractLsb'_append_eq_of_le (by decide)]
    rw [BitVec.extractLsb'_append_eq_of_le (by decide)]
    rw [BitVec.extractLsb'_append_eq_of_le (by decide)]
    rw [BitVec.extractLsb'_append_eq_of_le (by decide)]
    rfl
  have h20_1 : (0x16#6 ++ k ++ d ++ 1#1 ++ 0#4 ++ m : Word).getLsbD 20 = true := by
    change @BitVec.getLsbD (6 + 2 + 3 + 1 + 4 + 16) _ 20 = _
    rw [getLsbD_append_hi _ _ _ (by decide)]
    rw [getLsbD_append_hi _ _ _ (by decide)]
    rw [getLsbD_append_lo _ _ _ (by decide)]
    rfl
  have h16_4 : BitVec.extractLsb' 16 4 (0x16#6 ++ k ++ d ++ 1#1 ++ 0#4 ++ m : Word) = 0#4 := by
    change @BitVec.extractLsb' (6 + 2 + 3 + 1 + 4 + 16) 16 4 _ = _
    rw [BitVec.extractLsb'_append_eq_of_le (by decide)]
    rw [BitVec.extractLsb'_append_eq_of_add_le (by decide)]
    rfl
  have h21_3 : BitVec.extractLsb' 21 3 (0x16#6 ++ k ++ d ++ 1#1 ++ 0#4 ++ m : Word) = d := by
    change @BitVec.extractLsb' (6 + 2 + 3 + 1 + 4 + 16) 21 3 _ = _
    rw [BitVec.extractLsb'_append_eq_of_le (by decide)]
    rw [BitVec.extractLsb'_append_eq_of_le (by decide)]
    rw [BitVec.extractLsb'_append_eq_of_le (by decide)]
    rw [BitVec.extractLsb'_append_eq_of_add_le (by decide), BitVec.extractLsb'_eq_self]
  have h24_2 : BitVec.extractLsb' 24 2 (0x16#6 ++ k ++ d ++ 1#1 ++ 0#4 ++ m : Word) = k := by
    change @BitVec.extractLsb' (6 + 2 + 3 + 1 + 4 + 16) 24 2 _ = _
    rw [BitVec.extractLsb'_append_eq_of_le (by decide)]
    rw [BitVec.extractLsb'_append_eq_of_le (by decide)]
    rw [BitVec.extractLsb'_append_eq_of_le (by decide)]
    rw [BitVec.extractLsb'_append_eq_of_le (by decide)]
    rw [BitVec.extractLsb'_append_eq_of_add_le (by decide), BitVec.extractLsb'_eq_self]
  have h0_16 : BitVec.extractLsb' 0 16 (0x16#6 ++ k ++ d ++ 1#1 ++ 0#4 ++ m : Word) = m := by
    change @BitVec.extractLsb' (6 + 2 + 3 + 1 + 4 + 16) 0 16 _ = _
    rw [BitVec.extractLsb'_append_eq_of_add_le (by decide), BitVec.extractLsb'_eq_self]
  show decodeXp (0x16#6 ++ k ++ d ++ 1#1 ++ 0#4 ++ m : Word) = _
  refine (decodeXp_op (by rw [h30_2]; decide) h26_6).trans ?_
  refine (if_pos h20_1).trans ?_
  refine (xneed_ok ?_).trans ?_
  · change (BitVec.extractLsb' 16 4 _ == 0#4 && dimOk (BitVec.extractLsb' 21 3 _)) = true
    rw [h16_4, h21_3]
    have h : (dimOk d) = true := h
    simpa using h
  · change Except.ok (Instr.xpCurStepImm (BitVec.extractLsb' 24 2 _) (BitVec.extractLsb' 21 3 _) (BitVec.extractLsb' 0 16 _)) = _
    rw [h24_2, h21_3, h0_16]

theorem RoundTrip.xpCurAt k d wb a : RoundTrip.Statement (.xpCurAt k d wb a) := by
  intro h w e
  cases e
  right
  have h26_6 : BitVec.extractLsb' 26 6 (0x17#6 ++ k ++ d ++ BitVec.ofBool wb ++ a ++ 0#16 : Word) = 23#6 := by
    change @BitVec.extractLsb' (6 + 2 + 3 + 1 + 4 + 16) 26 6 _ = _
    rw [BitVec.extractLsb'_append_eq_of_le (by decide)]
    rw [BitVec.extractLsb'_append_eq_of_le (by decide)]
    rw [BitVec.extractLsb'_append_eq_of_le (by decide)]
    rw [BitVec.extractLsb'_append_eq_of_le (by decide)]
    rw [BitVec.extractLsb'_append_eq_of_le (by decide)]
    rfl
  have h30_2 : BitVec.extractLsb' 30 2 (0x17#6 ++ k ++ d ++ BitVec.ofBool wb ++ a ++ 0#16 : Word) = 1#2 := by
    change @BitVec.extractLsb' (6 + 2 + 3 + 1 + 4 + 16) 30 2 _ = _
    rw [BitVec.extractLsb'_append_eq_of_le (by decide)]
    rw [BitVec.extractLsb'_append_eq_of_le (by decide)]
    rw [BitVec.extractLsb'_append_eq_of_le (by decide)]
    rw [BitVec.extractLsb'_append_eq_of_le (by decide)]
    rw [BitVec.extractLsb'_append_eq_of_le (by decide)]
    rfl
  have h0_16 : BitVec.extractLsb' 0 16 (0x17#6 ++ k ++ d ++ BitVec.ofBool wb ++ a ++ 0#16 : Word) = 0#16 := by
    change @BitVec.extractLsb' (6 + 2 + 3 + 1 + 4 + 16) 0 16 _ = _
    rw [BitVec.extractLsb'_append_eq_of_add_le (by decide)]
    rfl
  have h21_3 : BitVec.extractLsb' 21 3 (0x17#6 ++ k ++ d ++ BitVec.ofBool wb ++ a ++ 0#16 : Word) = d := by
    change @BitVec.extractLsb' (6 + 2 + 3 + 1 + 4 + 16) 21 3 _ = _
    rw [BitVec.extractLsb'_append_eq_of_le (by decide)]
    rw [BitVec.extractLsb'_append_eq_of_le (by decide)]
    rw [BitVec.extractLsb'_append_eq_of_le (by decide)]
    rw [BitVec.extractLsb'_append_eq_of_add_le (by decide), BitVec.extractLsb'_eq_self]
  have h24_2 : BitVec.extractLsb' 24 2 (0x17#6 ++ k ++ d ++ BitVec.ofBool wb ++ a ++ 0#16 : Word) = k := by
    change @BitVec.extractLsb' (6 + 2 + 3 + 1 + 4 + 16) 24 2 _ = _
    rw [BitVec.extractLsb'_append_eq_of_le (by decide)]
    rw [BitVec.extractLsb'_append_eq_of_le (by decide)]
    rw [BitVec.extractLsb'_append_eq_of_le (by decide)]
    rw [BitVec.extractLsb'_append_eq_of_le (by decide)]
    rw [BitVec.extractLsb'_append_eq_of_add_le (by decide), BitVec.extractLsb'_eq_self]
  have h20_1 : (0x17#6 ++ k ++ d ++ BitVec.ofBool wb ++ a ++ 0#16 : Word).getLsbD 20 = wb := by
    change @BitVec.getLsbD (6 + 2 + 3 + 1 + 4 + 16) _ 20 = _
    rw [getLsbD_append_hi _ _ _ (by decide)]
    rw [getLsbD_append_hi _ _ _ (by decide)]
    rw [getLsbD_append_lo _ _ _ (by decide)]
    cases wb <;> rfl
  have h16_4 : BitVec.extractLsb' 16 4 (0x17#6 ++ k ++ d ++ BitVec.ofBool wb ++ a ++ 0#16 : Word) = a := by
    change @BitVec.extractLsb' (6 + 2 + 3 + 1 + 4 + 16) 16 4 _ = _
    rw [BitVec.extractLsb'_append_eq_of_le (by decide)]
    rw [BitVec.extractLsb'_append_eq_of_add_le (by decide), BitVec.extractLsb'_eq_self]
  show decodeXp (0x17#6 ++ k ++ d ++ BitVec.ofBool wb ++ a ++ 0#16 : Word) = _
  refine (decodeXp_op (by rw [h30_2]; decide) h26_6).trans ?_
  refine (xneed_ok ?_).trans ?_
  · change (BitVec.extractLsb' 0 16 _ == 0#16 && dimOk (BitVec.extractLsb' 21 3 _)) = true
    rw [h0_16, h21_3]
    have h : (dimOk d) = true := h
    simpa using h
  · change Except.ok (Instr.xpCurAt (BitVec.extractLsb' 24 2 _) (BitVec.extractLsb' 21 3 _) (BitVec.getLsbD _ 20) (BitVec.extractLsb' 16 4 _)) = _
    rw [h24_2, h21_3, h20_1, h16_4]

theorem RoundTrip.xpMove d s nb st b : RoundTrip.Statement (.xpMove d s nb st b) := by
  intro h w e
  cases e
  right
  have h26_6 : BitVec.extractLsb' 26 6 (0x18#6 ++ d ++ s ++ BitVec.ofBool nb ++ BitVec.ofBool st ++ b ++ 0#4 ++ 0#8 : Word) = 24#6 := by
    change @BitVec.extractLsb' (6 + 2 + 2 + 1 + 1 + 8 + 4 + 8) 26 6 _ = _
    rw [BitVec.extractLsb'_append_eq_of_le (by decide)]
    rw [BitVec.extractLsb'_append_eq_of_le (by decide)]
    rw [BitVec.extractLsb'_append_eq_of_le (by decide)]
    rw [BitVec.extractLsb'_append_eq_of_le (by decide)]
    rw [BitVec.extractLsb'_append_eq_of_le (by decide)]
    rw [BitVec.extractLsb'_append_eq_of_le (by decide)]
    rw [BitVec.extractLsb'_append_eq_of_le (by decide)]
    rfl
  have h30_2 : BitVec.extractLsb' 30 2 (0x18#6 ++ d ++ s ++ BitVec.ofBool nb ++ BitVec.ofBool st ++ b ++ 0#4 ++ 0#8 : Word) = 1#2 := by
    change @BitVec.extractLsb' (6 + 2 + 2 + 1 + 1 + 8 + 4 + 8) 30 2 _ = _
    rw [BitVec.extractLsb'_append_eq_of_le (by decide)]
    rw [BitVec.extractLsb'_append_eq_of_le (by decide)]
    rw [BitVec.extractLsb'_append_eq_of_le (by decide)]
    rw [BitVec.extractLsb'_append_eq_of_le (by decide)]
    rw [BitVec.extractLsb'_append_eq_of_le (by decide)]
    rw [BitVec.extractLsb'_append_eq_of_le (by decide)]
    rw [BitVec.extractLsb'_append_eq_of_le (by decide)]
    rfl
  have h0_12 : BitVec.extractLsb' 0 12 (0x18#6 ++ d ++ s ++ BitVec.ofBool nb ++ BitVec.ofBool st ++ b ++ 0#4 ++ 0#8 : Word) = 0#12 := by
    apply BitVec.eq_of_getLsbD_eq
    intro i hi
    simp only [BitVec.getLsbD_extractLsb', hi, decide_true, Bool.true_and, Nat.zero_add]
    change @BitVec.getLsbD (6 + 2 + 2 + 1 + 1 + 8 + 4 + 8) _ _ = _
    by_cases k : i < 8
    · rw [getLsbD_append_lo _ _ _ k]
      simp
    · rw [getLsbD_append_hi _ _ _ (by omega), getLsbD_append_lo _ _ _ (by omega)]
      simp
  have h21_1 : (0x18#6 ++ d ++ s ++ BitVec.ofBool nb ++ BitVec.ofBool st ++ b ++ 0#4 ++ 0#8 : Word).getLsbD 21 = nb := by
    change @BitVec.getLsbD (6 + 2 + 2 + 1 + 1 + 8 + 4 + 8) _ 21 = _
    rw [getLsbD_append_hi _ _ _ (by decide)]
    rw [getLsbD_append_hi _ _ _ (by decide)]
    rw [getLsbD_append_hi _ _ _ (by decide)]
    rw [getLsbD_append_hi _ _ _ (by decide)]
    rw [getLsbD_append_lo _ _ _ (by decide)]
    cases nb <;> rfl
  have h12_8 : BitVec.extractLsb' 12 8 (0x18#6 ++ d ++ s ++ BitVec.ofBool nb ++ BitVec.ofBool st ++ b ++ 0#4 ++ 0#8 : Word) = b := by
    change @BitVec.extractLsb' (6 + 2 + 2 + 1 + 1 + 8 + 4 + 8) 12 8 _ = _
    rw [BitVec.extractLsb'_append_eq_of_le (by decide)]
    rw [BitVec.extractLsb'_append_eq_of_le (by decide)]
    rw [BitVec.extractLsb'_append_eq_of_add_le (by decide), BitVec.extractLsb'_eq_self]
  have h24_2 : BitVec.extractLsb' 24 2 (0x18#6 ++ d ++ s ++ BitVec.ofBool nb ++ BitVec.ofBool st ++ b ++ 0#4 ++ 0#8 : Word) = d := by
    change @BitVec.extractLsb' (6 + 2 + 2 + 1 + 1 + 8 + 4 + 8) 24 2 _ = _
    rw [BitVec.extractLsb'_append_eq_of_le (by decide)]
    rw [BitVec.extractLsb'_append_eq_of_le (by decide)]
    rw [BitVec.extractLsb'_append_eq_of_le (by decide)]
    rw [BitVec.extractLsb'_append_eq_of_le (by decide)]
    rw [BitVec.extractLsb'_append_eq_of_le (by decide)]
    rw [BitVec.extractLsb'_append_eq_of_le (by decide)]
    rw [BitVec.extractLsb'_append_eq_of_add_le (by decide), BitVec.extractLsb'_eq_self]
  have h22_2 : BitVec.extractLsb' 22 2 (0x18#6 ++ d ++ s ++ BitVec.ofBool nb ++ BitVec.ofBool st ++ b ++ 0#4 ++ 0#8 : Word) = s := by
    change @BitVec.extractLsb' (6 + 2 + 2 + 1 + 1 + 8 + 4 + 8) 22 2 _ = _
    rw [BitVec.extractLsb'_append_eq_of_le (by decide)]
    rw [BitVec.extractLsb'_append_eq_of_le (by decide)]
    rw [BitVec.extractLsb'_append_eq_of_le (by decide)]
    rw [BitVec.extractLsb'_append_eq_of_le (by decide)]
    rw [BitVec.extractLsb'_append_eq_of_le (by decide)]
    rw [BitVec.extractLsb'_append_eq_of_add_le (by decide), BitVec.extractLsb'_eq_self]
  have h20_1 : (0x18#6 ++ d ++ s ++ BitVec.ofBool nb ++ BitVec.ofBool st ++ b ++ 0#4 ++ 0#8 : Word).getLsbD 20 = st := by
    change @BitVec.getLsbD (6 + 2 + 2 + 1 + 1 + 8 + 4 + 8) _ 20 = _
    rw [getLsbD_append_hi _ _ _ (by decide)]
    rw [getLsbD_append_hi _ _ _ (by decide)]
    rw [getLsbD_append_hi _ _ _ (by decide)]
    rw [getLsbD_append_lo _ _ _ (by decide)]
    cases st <;> rfl
  show decodeXp (0x18#6 ++ d ++ s ++ BitVec.ofBool nb ++ BitVec.ofBool st ++ b ++ 0#4 ++ 0#8 : Word) = _
  refine (decodeXp_op (by rw [h30_2]; decide) h26_6).trans ?_
  refine (xneed_ok ?_).trans ?_
  · change (BitVec.extractLsb' 0 12 _ == 0#12 && barOk (BitVec.getLsbD _ 21) (BitVec.extractLsb' 12 8 _)) = true
    rw [h0_12, h21_1, h12_8]
    have h : (barOk nb b) = true := h
    simpa using h
  · change Except.ok (Instr.xpMove (BitVec.extractLsb' 24 2 _) (BitVec.extractLsb' 22 2 _) (BitVec.getLsbD _ 21) (BitVec.getLsbD _ 20) (BitVec.extractLsb' 12 8 _)) = _
    rw [h24_2, h22_2, h21_1, h20_1, h12_8]

theorem RoundTrip.xpMoveA d nb st b : RoundTrip.Statement (.xpMoveA d nb st b) := by
  intro h w e
  cases e
  right
  have h26_6 : BitVec.extractLsb' 26 6 (0x19#6 ++ d ++ 0#2 ++ BitVec.ofBool nb ++ BitVec.ofBool st ++ b ++ 0#4 ++ 0#8 : Word) = 25#6 := by
    change @BitVec.extractLsb' (6 + 2 + 2 + 1 + 1 + 8 + 4 + 8) 26 6 _ = _
    rw [BitVec.extractLsb'_append_eq_of_le (by decide)]
    rw [BitVec.extractLsb'_append_eq_of_le (by decide)]
    rw [BitVec.extractLsb'_append_eq_of_le (by decide)]
    rw [BitVec.extractLsb'_append_eq_of_le (by decide)]
    rw [BitVec.extractLsb'_append_eq_of_le (by decide)]
    rw [BitVec.extractLsb'_append_eq_of_le (by decide)]
    rw [BitVec.extractLsb'_append_eq_of_le (by decide)]
    rfl
  have h30_2 : BitVec.extractLsb' 30 2 (0x19#6 ++ d ++ 0#2 ++ BitVec.ofBool nb ++ BitVec.ofBool st ++ b ++ 0#4 ++ 0#8 : Word) = 1#2 := by
    change @BitVec.extractLsb' (6 + 2 + 2 + 1 + 1 + 8 + 4 + 8) 30 2 _ = _
    rw [BitVec.extractLsb'_append_eq_of_le (by decide)]
    rw [BitVec.extractLsb'_append_eq_of_le (by decide)]
    rw [BitVec.extractLsb'_append_eq_of_le (by decide)]
    rw [BitVec.extractLsb'_append_eq_of_le (by decide)]
    rw [BitVec.extractLsb'_append_eq_of_le (by decide)]
    rw [BitVec.extractLsb'_append_eq_of_le (by decide)]
    rw [BitVec.extractLsb'_append_eq_of_le (by decide)]
    rfl
  have h0_12 : BitVec.extractLsb' 0 12 (0x19#6 ++ d ++ 0#2 ++ BitVec.ofBool nb ++ BitVec.ofBool st ++ b ++ 0#4 ++ 0#8 : Word) = 0#12 := by
    apply BitVec.eq_of_getLsbD_eq
    intro i hi
    simp only [BitVec.getLsbD_extractLsb', hi, decide_true, Bool.true_and, Nat.zero_add]
    change @BitVec.getLsbD (6 + 2 + 2 + 1 + 1 + 8 + 4 + 8) _ _ = _
    by_cases k : i < 8
    · rw [getLsbD_append_lo _ _ _ k]
      simp
    · rw [getLsbD_append_hi _ _ _ (by omega), getLsbD_append_lo _ _ _ (by omega)]
      simp
  have h22_2 : BitVec.extractLsb' 22 2 (0x19#6 ++ d ++ 0#2 ++ BitVec.ofBool nb ++ BitVec.ofBool st ++ b ++ 0#4 ++ 0#8 : Word) = 0#2 := by
    change @BitVec.extractLsb' (6 + 2 + 2 + 1 + 1 + 8 + 4 + 8) 22 2 _ = _
    rw [BitVec.extractLsb'_append_eq_of_le (by decide)]
    rw [BitVec.extractLsb'_append_eq_of_le (by decide)]
    rw [BitVec.extractLsb'_append_eq_of_le (by decide)]
    rw [BitVec.extractLsb'_append_eq_of_le (by decide)]
    rw [BitVec.extractLsb'_append_eq_of_le (by decide)]
    rw [BitVec.extractLsb'_append_eq_of_add_le (by decide)]
    rfl
  have h21_1 : (0x19#6 ++ d ++ 0#2 ++ BitVec.ofBool nb ++ BitVec.ofBool st ++ b ++ 0#4 ++ 0#8 : Word).getLsbD 21 = nb := by
    change @BitVec.getLsbD (6 + 2 + 2 + 1 + 1 + 8 + 4 + 8) _ 21 = _
    rw [getLsbD_append_hi _ _ _ (by decide)]
    rw [getLsbD_append_hi _ _ _ (by decide)]
    rw [getLsbD_append_hi _ _ _ (by decide)]
    rw [getLsbD_append_hi _ _ _ (by decide)]
    rw [getLsbD_append_lo _ _ _ (by decide)]
    cases nb <;> rfl
  have h12_8 : BitVec.extractLsb' 12 8 (0x19#6 ++ d ++ 0#2 ++ BitVec.ofBool nb ++ BitVec.ofBool st ++ b ++ 0#4 ++ 0#8 : Word) = b := by
    change @BitVec.extractLsb' (6 + 2 + 2 + 1 + 1 + 8 + 4 + 8) 12 8 _ = _
    rw [BitVec.extractLsb'_append_eq_of_le (by decide)]
    rw [BitVec.extractLsb'_append_eq_of_le (by decide)]
    rw [BitVec.extractLsb'_append_eq_of_add_le (by decide), BitVec.extractLsb'_eq_self]
  have h24_2 : BitVec.extractLsb' 24 2 (0x19#6 ++ d ++ 0#2 ++ BitVec.ofBool nb ++ BitVec.ofBool st ++ b ++ 0#4 ++ 0#8 : Word) = d := by
    change @BitVec.extractLsb' (6 + 2 + 2 + 1 + 1 + 8 + 4 + 8) 24 2 _ = _
    rw [BitVec.extractLsb'_append_eq_of_le (by decide)]
    rw [BitVec.extractLsb'_append_eq_of_le (by decide)]
    rw [BitVec.extractLsb'_append_eq_of_le (by decide)]
    rw [BitVec.extractLsb'_append_eq_of_le (by decide)]
    rw [BitVec.extractLsb'_append_eq_of_le (by decide)]
    rw [BitVec.extractLsb'_append_eq_of_le (by decide)]
    rw [BitVec.extractLsb'_append_eq_of_add_le (by decide), BitVec.extractLsb'_eq_self]
  have h20_1 : (0x19#6 ++ d ++ 0#2 ++ BitVec.ofBool nb ++ BitVec.ofBool st ++ b ++ 0#4 ++ 0#8 : Word).getLsbD 20 = st := by
    change @BitVec.getLsbD (6 + 2 + 2 + 1 + 1 + 8 + 4 + 8) _ 20 = _
    rw [getLsbD_append_hi _ _ _ (by decide)]
    rw [getLsbD_append_hi _ _ _ (by decide)]
    rw [getLsbD_append_hi _ _ _ (by decide)]
    rw [getLsbD_append_lo _ _ _ (by decide)]
    cases st <;> rfl
  show decodeXp (0x19#6 ++ d ++ 0#2 ++ BitVec.ofBool nb ++ BitVec.ofBool st ++ b ++ 0#4 ++ 0#8 : Word) = _
  refine (decodeXp_op (by rw [h30_2]; decide) h26_6).trans ?_
  refine (xneed_ok ?_).trans ?_
  · change (BitVec.extractLsb' 0 12 _ == 0#12 && BitVec.extractLsb' 22 2 _ == 0#2 && barOk (BitVec.getLsbD _ 21) (BitVec.extractLsb' 12 8 _)) = true
    rw [h0_12, h22_2, h21_1, h12_8]
    have h : (barOk nb b) = true := h
    simpa using h
  · change Except.ok (Instr.xpMoveA (BitVec.extractLsb' 24 2 _) (BitVec.getLsbD _ 21) (BitVec.getLsbD _ 20) (BitVec.extractLsb' 12 8 _)) = _
    rw [h24_2, h21_1, h20_1, h12_8]

theorem RoundTrip.xpMovePk d nb st b : RoundTrip.Statement (.xpMovePk d nb st b) := by
  intro h w e
  cases e
  right
  have h26_6 : BitVec.extractLsb' 26 6 (0x1A#6 ++ d ++ 0#2 ++ BitVec.ofBool nb ++ BitVec.ofBool st ++ b ++ 0#4 ++ 0#8 : Word) = 26#6 := by
    change @BitVec.extractLsb' (6 + 2 + 2 + 1 + 1 + 8 + 4 + 8) 26 6 _ = _
    rw [BitVec.extractLsb'_append_eq_of_le (by decide)]
    rw [BitVec.extractLsb'_append_eq_of_le (by decide)]
    rw [BitVec.extractLsb'_append_eq_of_le (by decide)]
    rw [BitVec.extractLsb'_append_eq_of_le (by decide)]
    rw [BitVec.extractLsb'_append_eq_of_le (by decide)]
    rw [BitVec.extractLsb'_append_eq_of_le (by decide)]
    rw [BitVec.extractLsb'_append_eq_of_le (by decide)]
    rfl
  have h30_2 : BitVec.extractLsb' 30 2 (0x1A#6 ++ d ++ 0#2 ++ BitVec.ofBool nb ++ BitVec.ofBool st ++ b ++ 0#4 ++ 0#8 : Word) = 1#2 := by
    change @BitVec.extractLsb' (6 + 2 + 2 + 1 + 1 + 8 + 4 + 8) 30 2 _ = _
    rw [BitVec.extractLsb'_append_eq_of_le (by decide)]
    rw [BitVec.extractLsb'_append_eq_of_le (by decide)]
    rw [BitVec.extractLsb'_append_eq_of_le (by decide)]
    rw [BitVec.extractLsb'_append_eq_of_le (by decide)]
    rw [BitVec.extractLsb'_append_eq_of_le (by decide)]
    rw [BitVec.extractLsb'_append_eq_of_le (by decide)]
    rw [BitVec.extractLsb'_append_eq_of_le (by decide)]
    rfl
  have h0_12 : BitVec.extractLsb' 0 12 (0x1A#6 ++ d ++ 0#2 ++ BitVec.ofBool nb ++ BitVec.ofBool st ++ b ++ 0#4 ++ 0#8 : Word) = 0#12 := by
    apply BitVec.eq_of_getLsbD_eq
    intro i hi
    simp only [BitVec.getLsbD_extractLsb', hi, decide_true, Bool.true_and, Nat.zero_add]
    change @BitVec.getLsbD (6 + 2 + 2 + 1 + 1 + 8 + 4 + 8) _ _ = _
    by_cases k : i < 8
    · rw [getLsbD_append_lo _ _ _ k]
      simp
    · rw [getLsbD_append_hi _ _ _ (by omega), getLsbD_append_lo _ _ _ (by omega)]
      simp
  have h22_2 : BitVec.extractLsb' 22 2 (0x1A#6 ++ d ++ 0#2 ++ BitVec.ofBool nb ++ BitVec.ofBool st ++ b ++ 0#4 ++ 0#8 : Word) = 0#2 := by
    change @BitVec.extractLsb' (6 + 2 + 2 + 1 + 1 + 8 + 4 + 8) 22 2 _ = _
    rw [BitVec.extractLsb'_append_eq_of_le (by decide)]
    rw [BitVec.extractLsb'_append_eq_of_le (by decide)]
    rw [BitVec.extractLsb'_append_eq_of_le (by decide)]
    rw [BitVec.extractLsb'_append_eq_of_le (by decide)]
    rw [BitVec.extractLsb'_append_eq_of_le (by decide)]
    rw [BitVec.extractLsb'_append_eq_of_add_le (by decide)]
    rfl
  have h21_1 : (0x1A#6 ++ d ++ 0#2 ++ BitVec.ofBool nb ++ BitVec.ofBool st ++ b ++ 0#4 ++ 0#8 : Word).getLsbD 21 = nb := by
    change @BitVec.getLsbD (6 + 2 + 2 + 1 + 1 + 8 + 4 + 8) _ 21 = _
    rw [getLsbD_append_hi _ _ _ (by decide)]
    rw [getLsbD_append_hi _ _ _ (by decide)]
    rw [getLsbD_append_hi _ _ _ (by decide)]
    rw [getLsbD_append_hi _ _ _ (by decide)]
    rw [getLsbD_append_lo _ _ _ (by decide)]
    cases nb <;> rfl
  have h12_8 : BitVec.extractLsb' 12 8 (0x1A#6 ++ d ++ 0#2 ++ BitVec.ofBool nb ++ BitVec.ofBool st ++ b ++ 0#4 ++ 0#8 : Word) = b := by
    change @BitVec.extractLsb' (6 + 2 + 2 + 1 + 1 + 8 + 4 + 8) 12 8 _ = _
    rw [BitVec.extractLsb'_append_eq_of_le (by decide)]
    rw [BitVec.extractLsb'_append_eq_of_le (by decide)]
    rw [BitVec.extractLsb'_append_eq_of_add_le (by decide), BitVec.extractLsb'_eq_self]
  have h24_2 : BitVec.extractLsb' 24 2 (0x1A#6 ++ d ++ 0#2 ++ BitVec.ofBool nb ++ BitVec.ofBool st ++ b ++ 0#4 ++ 0#8 : Word) = d := by
    change @BitVec.extractLsb' (6 + 2 + 2 + 1 + 1 + 8 + 4 + 8) 24 2 _ = _
    rw [BitVec.extractLsb'_append_eq_of_le (by decide)]
    rw [BitVec.extractLsb'_append_eq_of_le (by decide)]
    rw [BitVec.extractLsb'_append_eq_of_le (by decide)]
    rw [BitVec.extractLsb'_append_eq_of_le (by decide)]
    rw [BitVec.extractLsb'_append_eq_of_le (by decide)]
    rw [BitVec.extractLsb'_append_eq_of_le (by decide)]
    rw [BitVec.extractLsb'_append_eq_of_add_le (by decide), BitVec.extractLsb'_eq_self]
  have h20_1 : (0x1A#6 ++ d ++ 0#2 ++ BitVec.ofBool nb ++ BitVec.ofBool st ++ b ++ 0#4 ++ 0#8 : Word).getLsbD 20 = st := by
    change @BitVec.getLsbD (6 + 2 + 2 + 1 + 1 + 8 + 4 + 8) _ 20 = _
    rw [getLsbD_append_hi _ _ _ (by decide)]
    rw [getLsbD_append_hi _ _ _ (by decide)]
    rw [getLsbD_append_hi _ _ _ (by decide)]
    rw [getLsbD_append_lo _ _ _ (by decide)]
    cases st <;> rfl
  show decodeXp (0x1A#6 ++ d ++ 0#2 ++ BitVec.ofBool nb ++ BitVec.ofBool st ++ b ++ 0#4 ++ 0#8 : Word) = _
  refine (decodeXp_op (by rw [h30_2]; decide) h26_6).trans ?_
  refine (xneed_ok ?_).trans ?_
  · change (BitVec.extractLsb' 0 12 _ == 0#12 && BitVec.extractLsb' 22 2 _ == 0#2 && barOk (BitVec.getLsbD _ 21) (BitVec.extractLsb' 12 8 _)) = true
    rw [h0_12, h22_2, h21_1, h12_8]
    have h : (barOk nb b) = true := h
    simpa using h
  · change Except.ok (Instr.xpMovePk (BitVec.extractLsb' 24 2 _) (BitVec.getLsbD _ 21) (BitVec.getLsbD _ 20) (BitVec.extractLsb' 12 8 _)) = _
    rw [h24_2, h21_1, h20_1, h12_8]

theorem RoundTrip.xpVpub d s nb st b v : RoundTrip.Statement (.xpVpub d s nb st b v) := by
  intro h w e
  cases e
  right
  have h26_6 : BitVec.extractLsb' 26 6 (0x1B#6 ++ d ++ s ++ BitVec.ofBool nb ++ BitVec.ofBool st ++ b ++ v ++ 0#8 : Word) = 27#6 := by
    change @BitVec.extractLsb' (6 + 2 + 2 + 1 + 1 + 8 + 4 + 8) 26 6 _ = _
    rw [BitVec.extractLsb'_append_eq_of_le (by decide)]
    rw [BitVec.extractLsb'_append_eq_of_le (by decide)]
    rw [BitVec.extractLsb'_append_eq_of_le (by decide)]
    rw [BitVec.extractLsb'_append_eq_of_le (by decide)]
    rw [BitVec.extractLsb'_append_eq_of_le (by decide)]
    rw [BitVec.extractLsb'_append_eq_of_le (by decide)]
    rw [BitVec.extractLsb'_append_eq_of_le (by decide)]
    rfl
  have h30_2 : BitVec.extractLsb' 30 2 (0x1B#6 ++ d ++ s ++ BitVec.ofBool nb ++ BitVec.ofBool st ++ b ++ v ++ 0#8 : Word) = 1#2 := by
    change @BitVec.extractLsb' (6 + 2 + 2 + 1 + 1 + 8 + 4 + 8) 30 2 _ = _
    rw [BitVec.extractLsb'_append_eq_of_le (by decide)]
    rw [BitVec.extractLsb'_append_eq_of_le (by decide)]
    rw [BitVec.extractLsb'_append_eq_of_le (by decide)]
    rw [BitVec.extractLsb'_append_eq_of_le (by decide)]
    rw [BitVec.extractLsb'_append_eq_of_le (by decide)]
    rw [BitVec.extractLsb'_append_eq_of_le (by decide)]
    rw [BitVec.extractLsb'_append_eq_of_le (by decide)]
    rfl
  have h0_8 : BitVec.extractLsb' 0 8 (0x1B#6 ++ d ++ s ++ BitVec.ofBool nb ++ BitVec.ofBool st ++ b ++ v ++ 0#8 : Word) = 0#8 := by
    change @BitVec.extractLsb' (6 + 2 + 2 + 1 + 1 + 8 + 4 + 8) 0 8 _ = _
    rw [BitVec.extractLsb'_append_eq_of_add_le (by decide)]
    rfl
  have h21_1 : (0x1B#6 ++ d ++ s ++ BitVec.ofBool nb ++ BitVec.ofBool st ++ b ++ v ++ 0#8 : Word).getLsbD 21 = nb := by
    change @BitVec.getLsbD (6 + 2 + 2 + 1 + 1 + 8 + 4 + 8) _ 21 = _
    rw [getLsbD_append_hi _ _ _ (by decide)]
    rw [getLsbD_append_hi _ _ _ (by decide)]
    rw [getLsbD_append_hi _ _ _ (by decide)]
    rw [getLsbD_append_hi _ _ _ (by decide)]
    rw [getLsbD_append_lo _ _ _ (by decide)]
    cases nb <;> rfl
  have h12_8 : BitVec.extractLsb' 12 8 (0x1B#6 ++ d ++ s ++ BitVec.ofBool nb ++ BitVec.ofBool st ++ b ++ v ++ 0#8 : Word) = b := by
    change @BitVec.extractLsb' (6 + 2 + 2 + 1 + 1 + 8 + 4 + 8) 12 8 _ = _
    rw [BitVec.extractLsb'_append_eq_of_le (by decide)]
    rw [BitVec.extractLsb'_append_eq_of_le (by decide)]
    rw [BitVec.extractLsb'_append_eq_of_add_le (by decide), BitVec.extractLsb'_eq_self]
  have h24_2 : BitVec.extractLsb' 24 2 (0x1B#6 ++ d ++ s ++ BitVec.ofBool nb ++ BitVec.ofBool st ++ b ++ v ++ 0#8 : Word) = d := by
    change @BitVec.extractLsb' (6 + 2 + 2 + 1 + 1 + 8 + 4 + 8) 24 2 _ = _
    rw [BitVec.extractLsb'_append_eq_of_le (by decide)]
    rw [BitVec.extractLsb'_append_eq_of_le (by decide)]
    rw [BitVec.extractLsb'_append_eq_of_le (by decide)]
    rw [BitVec.extractLsb'_append_eq_of_le (by decide)]
    rw [BitVec.extractLsb'_append_eq_of_le (by decide)]
    rw [BitVec.extractLsb'_append_eq_of_le (by decide)]
    rw [BitVec.extractLsb'_append_eq_of_add_le (by decide), BitVec.extractLsb'_eq_self]
  have h22_2 : BitVec.extractLsb' 22 2 (0x1B#6 ++ d ++ s ++ BitVec.ofBool nb ++ BitVec.ofBool st ++ b ++ v ++ 0#8 : Word) = s := by
    change @BitVec.extractLsb' (6 + 2 + 2 + 1 + 1 + 8 + 4 + 8) 22 2 _ = _
    rw [BitVec.extractLsb'_append_eq_of_le (by decide)]
    rw [BitVec.extractLsb'_append_eq_of_le (by decide)]
    rw [BitVec.extractLsb'_append_eq_of_le (by decide)]
    rw [BitVec.extractLsb'_append_eq_of_le (by decide)]
    rw [BitVec.extractLsb'_append_eq_of_le (by decide)]
    rw [BitVec.extractLsb'_append_eq_of_add_le (by decide), BitVec.extractLsb'_eq_self]
  have h20_1 : (0x1B#6 ++ d ++ s ++ BitVec.ofBool nb ++ BitVec.ofBool st ++ b ++ v ++ 0#8 : Word).getLsbD 20 = st := by
    change @BitVec.getLsbD (6 + 2 + 2 + 1 + 1 + 8 + 4 + 8) _ 20 = _
    rw [getLsbD_append_hi _ _ _ (by decide)]
    rw [getLsbD_append_hi _ _ _ (by decide)]
    rw [getLsbD_append_hi _ _ _ (by decide)]
    rw [getLsbD_append_lo _ _ _ (by decide)]
    cases st <;> rfl
  have h8_4 : BitVec.extractLsb' 8 4 (0x1B#6 ++ d ++ s ++ BitVec.ofBool nb ++ BitVec.ofBool st ++ b ++ v ++ 0#8 : Word) = v := by
    change @BitVec.extractLsb' (6 + 2 + 2 + 1 + 1 + 8 + 4 + 8) 8 4 _ = _
    rw [BitVec.extractLsb'_append_eq_of_le (by decide)]
    rw [BitVec.extractLsb'_append_eq_of_add_le (by decide), BitVec.extractLsb'_eq_self]
  show decodeXp (0x1B#6 ++ d ++ s ++ BitVec.ofBool nb ++ BitVec.ofBool st ++ b ++ v ++ 0#8 : Word) = _
  refine (decodeXp_op (by rw [h30_2]; decide) h26_6).trans ?_
  refine (xneed_ok ?_).trans ?_
  · change (BitVec.extractLsb' 0 8 _ == 0#8 && barOk (BitVec.getLsbD _ 21) (BitVec.extractLsb' 12 8 _)) = true
    rw [h0_8, h21_1, h12_8]
    have h : (barOk nb b) = true := h
    simpa using h
  · change Except.ok (Instr.xpVpub (BitVec.extractLsb' 24 2 _) (BitVec.extractLsb' 22 2 _) (BitVec.getLsbD _ 21) (BitVec.getLsbD _ 20) (BitVec.extractLsb' 12 8 _) (BitVec.extractLsb' 8 4 _)) = _
    rw [h24_2, h22_2, h21_1, h20_1, h12_8, h8_4]

theorem RoundTrip.xpFollow s a r z : RoundTrip.Statement (.xpFollow s a r z) := by
  intro _ w e
  cases e
  right
  have h26_6 : BitVec.extractLsb' 26 6 (0x1C#6 ++ s ++ a ++ r ++ BitVec.ofBool z ++ 0#3 : Word) = 28#6 := by
    change @BitVec.extractLsb' (6 + 7 + 7 + 8 + 1 + 3) 26 6 _ = _
    rw [BitVec.extractLsb'_append_eq_of_le (by decide)]
    rw [BitVec.extractLsb'_append_eq_of_le (by decide)]
    rw [BitVec.extractLsb'_append_eq_of_le (by decide)]
    rw [BitVec.extractLsb'_append_eq_of_le (by decide)]
    rw [BitVec.extractLsb'_append_eq_of_le (by decide)]
    rfl
  have h30_2 : BitVec.extractLsb' 30 2 (0x1C#6 ++ s ++ a ++ r ++ BitVec.ofBool z ++ 0#3 : Word) = 1#2 := by
    change @BitVec.extractLsb' (6 + 7 + 7 + 8 + 1 + 3) 30 2 _ = _
    rw [BitVec.extractLsb'_append_eq_of_le (by decide)]
    rw [BitVec.extractLsb'_append_eq_of_le (by decide)]
    rw [BitVec.extractLsb'_append_eq_of_le (by decide)]
    rw [BitVec.extractLsb'_append_eq_of_le (by decide)]
    rw [BitVec.extractLsb'_append_eq_of_le (by decide)]
    rfl
  have h0_3 : BitVec.extractLsb' 0 3 (0x1C#6 ++ s ++ a ++ r ++ BitVec.ofBool z ++ 0#3 : Word) = 0#3 := by
    change @BitVec.extractLsb' (6 + 7 + 7 + 8 + 1 + 3) 0 3 _ = _
    rw [BitVec.extractLsb'_append_eq_of_add_le (by decide)]
    rfl
  have h19_7 : BitVec.extractLsb' 19 7 (0x1C#6 ++ s ++ a ++ r ++ BitVec.ofBool z ++ 0#3 : Word) = s := by
    change @BitVec.extractLsb' (6 + 7 + 7 + 8 + 1 + 3) 19 7 _ = _
    rw [BitVec.extractLsb'_append_eq_of_le (by decide)]
    rw [BitVec.extractLsb'_append_eq_of_le (by decide)]
    rw [BitVec.extractLsb'_append_eq_of_le (by decide)]
    rw [BitVec.extractLsb'_append_eq_of_le (by decide)]
    rw [BitVec.extractLsb'_append_eq_of_add_le (by decide), BitVec.extractLsb'_eq_self]
  have h12_7 : BitVec.extractLsb' 12 7 (0x1C#6 ++ s ++ a ++ r ++ BitVec.ofBool z ++ 0#3 : Word) = a := by
    change @BitVec.extractLsb' (6 + 7 + 7 + 8 + 1 + 3) 12 7 _ = _
    rw [BitVec.extractLsb'_append_eq_of_le (by decide)]
    rw [BitVec.extractLsb'_append_eq_of_le (by decide)]
    rw [BitVec.extractLsb'_append_eq_of_le (by decide)]
    rw [BitVec.extractLsb'_append_eq_of_add_le (by decide), BitVec.extractLsb'_eq_self]
  have h4_8 : BitVec.extractLsb' 4 8 (0x1C#6 ++ s ++ a ++ r ++ BitVec.ofBool z ++ 0#3 : Word) = r := by
    change @BitVec.extractLsb' (6 + 7 + 7 + 8 + 1 + 3) 4 8 _ = _
    rw [BitVec.extractLsb'_append_eq_of_le (by decide)]
    rw [BitVec.extractLsb'_append_eq_of_le (by decide)]
    rw [BitVec.extractLsb'_append_eq_of_add_le (by decide), BitVec.extractLsb'_eq_self]
  have h3_1 : (0x1C#6 ++ s ++ a ++ r ++ BitVec.ofBool z ++ 0#3 : Word).getLsbD 3 = z := by
    change @BitVec.getLsbD (6 + 7 + 7 + 8 + 1 + 3) _ 3 = _
    rw [getLsbD_append_hi _ _ _ (by decide)]
    rw [getLsbD_append_lo _ _ _ (by decide)]
    cases z <;> rfl
  show decodeXp (0x1C#6 ++ s ++ a ++ r ++ BitVec.ofBool z ++ 0#3 : Word) = _
  refine (decodeXp_op (by rw [h30_2]; decide) h26_6).trans ?_
  refine (xneed_ok ?_).trans ?_
  · change (BitVec.extractLsb' 0 3 _ == 0#3) = true
    rw [h0_3]
    rfl
  · change Except.ok (Instr.xpFollow (BitVec.extractLsb' 19 7 _) (BitVec.extractLsb' 12 7 _) (BitVec.extractLsb' 4 8 _) (BitVec.getLsbD _ 3)) = _
    rw [h19_7, h12_7, h4_8, h3_1]

theorem RoundTrip.xpPsel s q l k : RoundTrip.Statement (.xpPsel s q l k) := by
  intro _ w e
  cases e
  right
  have h26_6 : BitVec.extractLsb' 26 6 (0x1D#6 ++ s ++ q ++ l ++ k ++ 0#1 : Word) = 29#6 := by
    change @BitVec.extractLsb' (6 + 7 + 7 + 3 + 8 + 1) 26 6 _ = _
    rw [BitVec.extractLsb'_append_eq_of_le (by decide)]
    rw [BitVec.extractLsb'_append_eq_of_le (by decide)]
    rw [BitVec.extractLsb'_append_eq_of_le (by decide)]
    rw [BitVec.extractLsb'_append_eq_of_le (by decide)]
    rw [BitVec.extractLsb'_append_eq_of_le (by decide)]
    rfl
  have h30_2 : BitVec.extractLsb' 30 2 (0x1D#6 ++ s ++ q ++ l ++ k ++ 0#1 : Word) = 1#2 := by
    change @BitVec.extractLsb' (6 + 7 + 7 + 3 + 8 + 1) 30 2 _ = _
    rw [BitVec.extractLsb'_append_eq_of_le (by decide)]
    rw [BitVec.extractLsb'_append_eq_of_le (by decide)]
    rw [BitVec.extractLsb'_append_eq_of_le (by decide)]
    rw [BitVec.extractLsb'_append_eq_of_le (by decide)]
    rw [BitVec.extractLsb'_append_eq_of_le (by decide)]
    rfl
  have h0_1 : BitVec.extractLsb' 0 1 (0x1D#6 ++ s ++ q ++ l ++ k ++ 0#1 : Word) = 0#1 := by
    change @BitVec.extractLsb' (6 + 7 + 7 + 3 + 8 + 1) 0 1 _ = _
    rw [BitVec.extractLsb'_append_eq_of_add_le (by decide)]
    rfl
  have h19_7 : BitVec.extractLsb' 19 7 (0x1D#6 ++ s ++ q ++ l ++ k ++ 0#1 : Word) = s := by
    change @BitVec.extractLsb' (6 + 7 + 7 + 3 + 8 + 1) 19 7 _ = _
    rw [BitVec.extractLsb'_append_eq_of_le (by decide)]
    rw [BitVec.extractLsb'_append_eq_of_le (by decide)]
    rw [BitVec.extractLsb'_append_eq_of_le (by decide)]
    rw [BitVec.extractLsb'_append_eq_of_le (by decide)]
    rw [BitVec.extractLsb'_append_eq_of_add_le (by decide), BitVec.extractLsb'_eq_self]
  have h12_7 : BitVec.extractLsb' 12 7 (0x1D#6 ++ s ++ q ++ l ++ k ++ 0#1 : Word) = q := by
    change @BitVec.extractLsb' (6 + 7 + 7 + 3 + 8 + 1) 12 7 _ = _
    rw [BitVec.extractLsb'_append_eq_of_le (by decide)]
    rw [BitVec.extractLsb'_append_eq_of_le (by decide)]
    rw [BitVec.extractLsb'_append_eq_of_le (by decide)]
    rw [BitVec.extractLsb'_append_eq_of_add_le (by decide), BitVec.extractLsb'_eq_self]
  have h9_3 : BitVec.extractLsb' 9 3 (0x1D#6 ++ s ++ q ++ l ++ k ++ 0#1 : Word) = l := by
    change @BitVec.extractLsb' (6 + 7 + 7 + 3 + 8 + 1) 9 3 _ = _
    rw [BitVec.extractLsb'_append_eq_of_le (by decide)]
    rw [BitVec.extractLsb'_append_eq_of_le (by decide)]
    rw [BitVec.extractLsb'_append_eq_of_add_le (by decide), BitVec.extractLsb'_eq_self]
  have h1_8 : BitVec.extractLsb' 1 8 (0x1D#6 ++ s ++ q ++ l ++ k ++ 0#1 : Word) = k := by
    change @BitVec.extractLsb' (6 + 7 + 7 + 3 + 8 + 1) 1 8 _ = _
    rw [BitVec.extractLsb'_append_eq_of_le (by decide)]
    rw [BitVec.extractLsb'_append_eq_of_add_le (by decide), BitVec.extractLsb'_eq_self]
  show decodeXp (0x1D#6 ++ s ++ q ++ l ++ k ++ 0#1 : Word) = _
  refine (decodeXp_op (by rw [h30_2]; decide) h26_6).trans ?_
  refine (xneed_ok ?_).trans ?_
  · change (BitVec.extractLsb' 0 1 _ == 0#1) = true
    rw [h0_1]
    rfl
  · change Except.ok (Instr.xpPsel (BitVec.extractLsb' 19 7 _) (BitVec.extractLsb' 12 7 _) (BitVec.extractLsb' 9 3 _) (BitVec.extractLsb' 1 8 _)) = _
    rw [h19_7, h12_7, h9_3, h1_8]

theorem RoundTrip.xpArrive n : RoundTrip.Statement (.xpArrive n) := by
  intro _ w e
  cases e
  right
  have h26_6 : BitVec.extractLsb' 26 6 (0x1E#6 ++ 0#18 ++ n : Word) = 30#6 := by
    change @BitVec.extractLsb' (6 + 18 + 8) 26 6 _ = _
    rw [BitVec.extractLsb'_append_eq_of_le (by decide)]
    rw [BitVec.extractLsb'_append_eq_of_le (by decide)]
    rfl
  have h30_2 : BitVec.extractLsb' 30 2 (0x1E#6 ++ 0#18 ++ n : Word) = 1#2 := by
    change @BitVec.extractLsb' (6 + 18 + 8) 30 2 _ = _
    rw [BitVec.extractLsb'_append_eq_of_le (by decide)]
    rw [BitVec.extractLsb'_append_eq_of_le (by decide)]
    rfl
  have h8_18 : BitVec.extractLsb' 8 18 (0x1E#6 ++ 0#18 ++ n : Word) = 0#18 := by
    change @BitVec.extractLsb' (6 + 18 + 8) 8 18 _ = _
    rw [BitVec.extractLsb'_append_eq_of_le (by decide)]
    rw [BitVec.extractLsb'_append_eq_of_add_le (by decide)]
    rfl
  have h0_8 : BitVec.extractLsb' 0 8 (0x1E#6 ++ 0#18 ++ n : Word) = n := by
    change @BitVec.extractLsb' (6 + 18 + 8) 0 8 _ = _
    rw [BitVec.extractLsb'_append_eq_of_add_le (by decide), BitVec.extractLsb'_eq_self]
  show decodeXp (0x1E#6 ++ 0#18 ++ n : Word) = _
  refine (decodeXp_op (by rw [h30_2]; decide) h26_6).trans ?_
  refine (xneed_ok ?_).trans ?_
  · change (BitVec.extractLsb' 8 18 _ == 0#18) = true
    rw [h8_18]
    rfl
  · change Except.ok (Instr.xpArrive (BitVec.extractLsb' 0 8 _)) = _
    rw [h0_8]

theorem RoundTrip.xpWaitb a n : RoundTrip.Statement (.xpWaitb a n) := by
  intro _ w e
  cases e
  right
  have h26_6 : BitVec.extractLsb' 26 6 (0x1F#6 ++ a ++ 0#14 ++ n : Word) = 31#6 := by
    change @BitVec.extractLsb' (6 + 4 + 14 + 8) 26 6 _ = _
    rw [BitVec.extractLsb'_append_eq_of_le (by decide)]
    rw [BitVec.extractLsb'_append_eq_of_le (by decide)]
    rw [BitVec.extractLsb'_append_eq_of_le (by decide)]
    rfl
  have h30_2 : BitVec.extractLsb' 30 2 (0x1F#6 ++ a ++ 0#14 ++ n : Word) = 1#2 := by
    change @BitVec.extractLsb' (6 + 4 + 14 + 8) 30 2 _ = _
    rw [BitVec.extractLsb'_append_eq_of_le (by decide)]
    rw [BitVec.extractLsb'_append_eq_of_le (by decide)]
    rw [BitVec.extractLsb'_append_eq_of_le (by decide)]
    rfl
  have h8_14 : BitVec.extractLsb' 8 14 (0x1F#6 ++ a ++ 0#14 ++ n : Word) = 0#14 := by
    change @BitVec.extractLsb' (6 + 4 + 14 + 8) 8 14 _ = _
    rw [BitVec.extractLsb'_append_eq_of_le (by decide)]
    rw [BitVec.extractLsb'_append_eq_of_add_le (by decide)]
    rfl
  have h22_4 : BitVec.extractLsb' 22 4 (0x1F#6 ++ a ++ 0#14 ++ n : Word) = a := by
    change @BitVec.extractLsb' (6 + 4 + 14 + 8) 22 4 _ = _
    rw [BitVec.extractLsb'_append_eq_of_le (by decide)]
    rw [BitVec.extractLsb'_append_eq_of_le (by decide)]
    rw [BitVec.extractLsb'_append_eq_of_add_le (by decide), BitVec.extractLsb'_eq_self]
  have h0_8 : BitVec.extractLsb' 0 8 (0x1F#6 ++ a ++ 0#14 ++ n : Word) = n := by
    change @BitVec.extractLsb' (6 + 4 + 14 + 8) 0 8 _ = _
    rw [BitVec.extractLsb'_append_eq_of_add_le (by decide), BitVec.extractLsb'_eq_self]
  show decodeXp (0x1F#6 ++ a ++ 0#14 ++ n : Word) = _
  refine (decodeXp_op (by rw [h30_2]; decide) h26_6).trans ?_
  refine (xneed_ok ?_).trans ?_
  · change (BitVec.extractLsb' 8 14 _ == 0#14) = true
    rw [h8_14]
    rfl
  · change Except.ok (Instr.xpWaitb (BitVec.extractLsb' 22 4 _) (BitVec.extractLsb' 0 8 _)) = _
    rw [h22_4, h0_8]

theorem RoundTrip.xpTlsig k l : RoundTrip.Statement (.xpTlsig k l) := by
  intro _ w e
  cases e
  right
  have h26_6 : BitVec.extractLsb' 26 6 (0x20#6 ++ k ++ l ++ 0#19 : Word) = 32#6 := by
    change @BitVec.extractLsb' (6 + 4 + 3 + 19) 26 6 _ = _
    rw [BitVec.extractLsb'_append_eq_of_le (by decide)]
    rw [BitVec.extractLsb'_append_eq_of_le (by decide)]
    rw [BitVec.extractLsb'_append_eq_of_le (by decide)]
    rfl
  have h30_2 : BitVec.extractLsb' 30 2 (0x20#6 ++ k ++ l ++ 0#19 : Word) = 2#2 := by
    change @BitVec.extractLsb' (6 + 4 + 3 + 19) 30 2 _ = _
    rw [BitVec.extractLsb'_append_eq_of_le (by decide)]
    rw [BitVec.extractLsb'_append_eq_of_le (by decide)]
    rw [BitVec.extractLsb'_append_eq_of_le (by decide)]
    rfl
  have h0_19 : BitVec.extractLsb' 0 19 (0x20#6 ++ k ++ l ++ 0#19 : Word) = 0#19 := by
    change @BitVec.extractLsb' (6 + 4 + 3 + 19) 0 19 _ = _
    rw [BitVec.extractLsb'_append_eq_of_add_le (by decide)]
    rfl
  have h22_4 : BitVec.extractLsb' 22 4 (0x20#6 ++ k ++ l ++ 0#19 : Word) = k := by
    change @BitVec.extractLsb' (6 + 4 + 3 + 19) 22 4 _ = _
    rw [BitVec.extractLsb'_append_eq_of_le (by decide)]
    rw [BitVec.extractLsb'_append_eq_of_le (by decide)]
    rw [BitVec.extractLsb'_append_eq_of_add_le (by decide), BitVec.extractLsb'_eq_self]
  have h19_3 : BitVec.extractLsb' 19 3 (0x20#6 ++ k ++ l ++ 0#19 : Word) = l := by
    change @BitVec.extractLsb' (6 + 4 + 3 + 19) 19 3 _ = _
    rw [BitVec.extractLsb'_append_eq_of_le (by decide)]
    rw [BitVec.extractLsb'_append_eq_of_add_le (by decide), BitVec.extractLsb'_eq_self]
  show decodeXp (0x20#6 ++ k ++ l ++ 0#19 : Word) = _
  refine (decodeXp_op (by rw [h30_2]; decide) h26_6).trans ?_
  refine (xneed_ok ?_).trans ?_
  · change (BitVec.extractLsb' 0 19 _ == 0#19) = true
    rw [h0_19]
    rfl
  · change Except.ok (Instr.xpTlsig (BitVec.extractLsb' 22 4 _) (BitVec.extractLsb' 19 3 _)) = _
    rw [h22_4, h19_3]

theorem RoundTrip.xpMoveG k d s l st b : RoundTrip.Statement (.xpMoveG k d s l st b) := by
  intro _ w e
  cases e
  right
  have h30_2 : BitVec.extractLsb' 30 2 (0x3#2 ++ k ++ d ++ s ++ l ++ BitVec.ofBool st ++ b : Word) = 3#2 := by
    change @BitVec.extractLsb' (2 + 4 + 7 + 7 + 3 + 1 + 8) 30 2 _ = _
    rw [BitVec.extractLsb'_append_eq_of_le (by decide)]
    rw [BitVec.extractLsb'_append_eq_of_le (by decide)]
    rw [BitVec.extractLsb'_append_eq_of_le (by decide)]
    rw [BitVec.extractLsb'_append_eq_of_le (by decide)]
    rw [BitVec.extractLsb'_append_eq_of_le (by decide)]
    rw [BitVec.extractLsb'_append_eq_of_le (by decide)]
    rfl
  have h26_4 : BitVec.extractLsb' 26 4 (0x3#2 ++ k ++ d ++ s ++ l ++ BitVec.ofBool st ++ b : Word) = k := by
    change @BitVec.extractLsb' (2 + 4 + 7 + 7 + 3 + 1 + 8) 26 4 _ = _
    rw [BitVec.extractLsb'_append_eq_of_le (by decide)]
    rw [BitVec.extractLsb'_append_eq_of_le (by decide)]
    rw [BitVec.extractLsb'_append_eq_of_le (by decide)]
    rw [BitVec.extractLsb'_append_eq_of_le (by decide)]
    rw [BitVec.extractLsb'_append_eq_of_le (by decide)]
    rw [BitVec.extractLsb'_append_eq_of_add_le (by decide), BitVec.extractLsb'_eq_self]
  have h19_7 : BitVec.extractLsb' 19 7 (0x3#2 ++ k ++ d ++ s ++ l ++ BitVec.ofBool st ++ b : Word) = d := by
    change @BitVec.extractLsb' (2 + 4 + 7 + 7 + 3 + 1 + 8) 19 7 _ = _
    rw [BitVec.extractLsb'_append_eq_of_le (by decide)]
    rw [BitVec.extractLsb'_append_eq_of_le (by decide)]
    rw [BitVec.extractLsb'_append_eq_of_le (by decide)]
    rw [BitVec.extractLsb'_append_eq_of_le (by decide)]
    rw [BitVec.extractLsb'_append_eq_of_add_le (by decide), BitVec.extractLsb'_eq_self]
  have h12_7 : BitVec.extractLsb' 12 7 (0x3#2 ++ k ++ d ++ s ++ l ++ BitVec.ofBool st ++ b : Word) = s := by
    change @BitVec.extractLsb' (2 + 4 + 7 + 7 + 3 + 1 + 8) 12 7 _ = _
    rw [BitVec.extractLsb'_append_eq_of_le (by decide)]
    rw [BitVec.extractLsb'_append_eq_of_le (by decide)]
    rw [BitVec.extractLsb'_append_eq_of_le (by decide)]
    rw [BitVec.extractLsb'_append_eq_of_add_le (by decide), BitVec.extractLsb'_eq_self]
  have h9_3 : BitVec.extractLsb' 9 3 (0x3#2 ++ k ++ d ++ s ++ l ++ BitVec.ofBool st ++ b : Word) = l := by
    change @BitVec.extractLsb' (2 + 4 + 7 + 7 + 3 + 1 + 8) 9 3 _ = _
    rw [BitVec.extractLsb'_append_eq_of_le (by decide)]
    rw [BitVec.extractLsb'_append_eq_of_le (by decide)]
    rw [BitVec.extractLsb'_append_eq_of_add_le (by decide), BitVec.extractLsb'_eq_self]
  have h8_1 : (0x3#2 ++ k ++ d ++ s ++ l ++ BitVec.ofBool st ++ b : Word).getLsbD 8 = st := by
    change @BitVec.getLsbD (2 + 4 + 7 + 7 + 3 + 1 + 8) _ 8 = _
    rw [getLsbD_append_hi _ _ _ (by decide)]
    rw [getLsbD_append_lo _ _ _ (by decide)]
    cases st <;> rfl
  have h0_8 : BitVec.extractLsb' 0 8 (0x3#2 ++ k ++ d ++ s ++ l ++ BitVec.ofBool st ++ b : Word) = b := by
    change @BitVec.extractLsb' (2 + 4 + 7 + 7 + 3 + 1 + 8) 0 8 _ = _
    rw [BitVec.extractLsb'_append_eq_of_add_le (by decide), BitVec.extractLsb'_eq_self]
  show decodeXp (0x3#2 ++ k ++ d ++ s ++ l ++ BitVec.ofBool st ++ b : Word) = _
  refine (if_pos (by rw [h30_2]; rfl)).trans ?_
  rw [h26_4, h19_7, h12_7, h9_3, h8_1, h0_8]

end Sys2Proof.Laws
end

