-- ==== Sys2Proof/Tests/World.lean ====
section
/-!
SUPPORT. Small states for the tests: a gang of two lanes in linear code, in state code, a handler, a
copy processor.
-/
namespace Sys2Proof.Tests
open Sys2Proof.Machine Sys2Proof.Claims

/-- A tenant context with a handler. -/
def ctx5 : Context := { trapEntry := 0x100, trapValid := true, stackSize := 0x1000 }

/-- A group of eight slices at word 16, whose queue is number 9. -/
def grp0 : Group := { slices := List.range 8, pc := 16, qids := [9] }

/-- A gang of context 5 on core 3, with lanes 0 and 31 alive. -/
def gang1 : Gang := { ctx := 5, core := 3, home := 0, slot := 0, live := [0, 31], cluster := [2, 3], groups := [(0, some grp0)] }

/-- The gang alone in the module; its group issues. -/
def world : State :=
  { ctl := { up := true }, ctxs := [(5, some ctx5)], gangs := [(1, some gang1)], cur := some (.grp 1 0), next := 10 }

/-- The view of that group. -/
def view1 : UView :=
  { ref := .grp 1 0, kind := .grp 0, core := 3, ctx := 5, gk := some 1, lanes := [0, 31], region := none
    legacy := false, half := 0, lregs := 60, pc := 16, qids := [9], seq := 0, priv := false }

theorem test_view : unitView world = some view1 := by decide +kernel

/-- The gang with another content. -/
def withGang (f : Gang → Gang) : State := { world with gangs := [(1, some (f gang1))] }
/-- The context with another content. -/
def withCtx (f : Context → Context) (s : State) : State := { s with ctxs := [(5, some (f ctx5))] }

/-- Every instruction word below acts on both lanes. -/
def ok (i : Instr) (n : Need) (s : State) : Bool := decide (unitView s = some view1) && decide (precheck i n view1 s = .go [0, 31])

theorem runs_of_ok {i n s} (h : ok i n s = true) : Runs i n s view1 [0, 31] := by
  simp only [ok, Bool.and_eq_true, decide_eq_true_eq] at h
  exact h

/-- The issuing unit's view, and a word that passes its checks there. -/
def issuer (s : State) : UView := (unitView s).getD view1
def runsOk (i : Instr) (n : Need) (s : State) (l : List Nat) : Bool :=
  decide (unitView s = some (issuer s)) && decide (precheck i n (issuer s) s = .go l)
theorem runs_at {i n s l} (h : runsOk i n s l = true) : Runs i n s (issuer s) l := by
  simp only [runsOk, Bool.and_eq_true, decide_eq_true_eq] at h
  exact h

/-- An image of two states; the gang in its state 0, lane 0 in block 0 with block 1 pending, lane 31 done. -/
def image0 : Image :=
  { nb := 2, entry := 0, misstrap := false, misslim := 0, blocks := [(0, [0]), (1, [1])], states := [([0], 0, 4), ([1], 4, 4)]
    setmap := [(1, 0)], code := [0, 0, 0, 0, 0, 0, 0, 0], total := 8 }
def region1 (passes : List Nat) : Region := { img := 0, exitPc := 100, state := 0, passes := passes, vote := [0] }
def autoGang (passes : List Nat) (frags : List Fragment) : Gang :=
  { gang1 with region := some (region1 passes), blk := [(0, 0)], pblk := [(0, 2)], frags := frags }
def autoWorld (passes : List Nat) (frags : List Fragment) : State :=
  { world with gangs := [(1, some (autoGang passes frags))], ctxs := [(5, some { ctx5 with images := [(0, some image0)] })] }
def regionView (passes : List Nat) : UView := { view1 with region := some (region1 passes) }

end Sys2Proof.Tests
end

