-- ==== Sys2Proof/Tests/Slice0.lean ====
section
/-!
SUPPORT. The ill-formed terms that well-formedness refuses, the spec's own example words, and the spec's
worked examples run as one instruction each. Every expected value is the spec's, from the rule named.
-/
namespace Sys2Proof.Tests
open Sys2Proof.Machine Sys2Proof.Claims

/-! ## Ill-formed terms -/

/-- Format selectors of the unary float words end at 2 (R153); 0x0A is no conversion code (R155). -/
theorem test_wf_floats :
    Instr.wf (.fabs ⟨1, 2, 3, 0, false, 0⟩) = false ∧ Instr.wf (.fneg ⟨1, 2, 3, 0, false, 0⟩) = false ∧
    Instr.wf (.frcp ⟨1, 2, 63, 0, false, 0⟩) = false ∧ Instr.wf (.frsq ⟨1, 2, 3, 0, false, 0⟩) = false ∧
    Instr.wf (.fsqrt ⟨1, 2, 3, 0, false, 0⟩) = false ∧ Instr.wf (.fexp2 ⟨1, 2, 3, 0, false, 0⟩) = false ∧
    Instr.wf (.flog2 ⟨1, 2, 3, 0, false, 0⟩) = false ∧ Instr.wf (.fclass ⟨1, 2, 3, 0, false, 0⟩) = false ∧
    Instr.wf (.fcvt ⟨1, 2, 0x0A, 0, false, 0⟩) = false ∧ Instr.wf (.fcvt ⟨1, 2, 0x14, 0, false, 0⟩) = false ∧
    Instr.wf (.fcvt ⟨1, 2, 0x1C, 0, false, 0⟩) = false := by decide

/-- Bits 10:5 of BALLOT are 0 or 0b100kkk (R112); the selectors of XRED and XSCAN end at 0x0A (R115). -/
theorem test_wf_lanes :
    Instr.wf (.ballot ⟨1, 2, 1, 0, false, 0⟩) = false ∧ Instr.wf (.ballot ⟨1, 2, 0b101000, 0, false, 0⟩) = false ∧
    Instr.wf (.xred ⟨1, 2, 0, false, 0⟩ 0x0B) = false ∧ Instr.wf (.xscan ⟨1, 2, 0, false, 0⟩ true 0x1F) = false := by
  decide

/-- FENCE wants two sets and a scope (R214); MDRAIN one of its selectors (R277). -/
theorem test_wf_fences :
    Instr.wf (.fence ⟨0, 32, 0, 0, 0⟩) = false ∧ Instr.wf (.fence ⟨32, 0, 0, 0, 0⟩) = false ∧
    Instr.wf (.fence ⟨32, 32, 6, 0, 0⟩) = false ∧ Instr.wf (.mdrain ⟨1, 2, 0, false, 0⟩ 5) = false ∧
    Instr.wf (.mdrainXp ⟨1, 0x15, 0, 0⟩) = false ∧ Instr.wf (.mdrainXp ⟨1, 0x0F, 0, 0⟩) = false := by decide

/-- Counts end at 31 (R253), a loop has a body (R256), cursors five dimensions (R257), and NB = 1 no barrier. -/
theorem test_wf_copy :
    Instr.wf (.xpShlImm ⟨1, 2, 32⟩) = false ∧ Instr.wf (.xpShrImm ⟨1, 2, 32⟩) = false ∧
    Instr.wf (.xpLoopReg 1 0) = false ∧ Instr.wf (.xpLoopImm 1 5 0) = false ∧
    Instr.wf (.xpCurStepReg 0 5 1) = false ∧ Instr.wf (.xpCurStepImm 0 5 1) = false ∧
    Instr.wf (.xpCurAt 0 7 false 1) = false ∧ Instr.wf (.xpMove 0 1 true false 9) = false ∧
    Instr.wf (.xpMoveA 0 true false 9) = false ∧ Instr.wf (.xpMovePk 0 true false 9) = false ∧
    Instr.wf (.xpVpub 0 1 true false 9 3) = false := by decide

/-- No core 1024, no die 8, no copy processor 2, no lane 32 (R2, R11, R243). -/
theorem test_wf_units :
    Instr.wf (.secUnlock 1024) = false ∧ Instr.wf (.autoSeal 1 1024 0) = false ∧
    Instr.wf (.purlinRefreshStart 8) = false ∧ Instr.wf (.copyProgramBegin 0 2) = false ∧
    Instr.wf (.issueQueuePerform 0 32) = false ∧ Instr.wf (.yieldExpire (.xp 1024 0)) = false ∧
    Instr.wf (.holdLapse (.xp 0 2) .lane) = false ∧ Instr.wf (.admitUnit 1 [3, 1024]) = false := by decide

/-- A header names a die (R345), SUBMIT carries 1 to 256 records of 48 words (R291), COLL 8 words (R351). -/
theorem test_wf_messages :
    Instr.wf (.endCtx ⟨0, 8, 1, 0⟩) = false ∧ Instr.wf (.submit ⟨0, 0, 1, 0⟩ []) = false ∧
    Instr.wf (.submit ⟨0, 0, 1, 0⟩ [List.replicate 47 0]) = false ∧
    Instr.wf (.coll ⟨0, 0, 1, 0⟩ (List.replicate 7 0)) = false := by decide

/-! ## The spec's example words -/

/-- "Formats and assembly". -/
theorem test_spec_words_formats :
    decodeCompute 0x00944840 = .ok (.iaddI .lane ⟨10, 9, 2, 0, false, 0⟩) ∧
    decodeCompute 0x00944842 = .ok (.iaddI .lane ⟨10, 9, 2, 0, false, 2⟩) ∧
    decodeCompute 0x000E0844 = .ok (.iaddA .lane ⟨7, 1, 2, 0, true, 0⟩) ∧
    decodeCompute 0x0211E060 = .ok (.imulA .lane ⟨8, 60, 3, 0, false, 0⟩) ∧
    decodeCompute 0x01020848 = .ok (.isubA .lane ⟨1, 1, 2, 1, false, 0⟩) ∧
    decodeCompute 0x1F0E07FE = .ok (.movl .lane 7 1023) ∧ decodeCompute 0xE0900005 = .ok (.brcAny 1 false 5) ∧
    decodeCompute 0xE007FFFD = .ok (.bra 0x7FFFD) :=
  ⟨rfl, rfl, rfl, rfl, rfl, rfl, rfl, rfl⟩

/-- The gcd program of "First program" as "Formats and assembly" encodes it. -/
theorem test_spec_words_gcd :
    decodeCompute 0x0C920040 = .ok (.shlI .lane ⟨9, 0, 2, 0, false, 0⟩) ∧
    decodeCompute 0x41020120 = .ok (.ldN16A ⟨1, 0, 9, 0, false, 0⟩) ∧
    decodeCompute 0xE8000001 = .ok (.autoEnter 0 1) ∧
    decodeCompute 0x45020160 = .ok (.stN16A ⟨1, 0, 11, 0, 0⟩) ∧ decodeCompute 0xE3000000 = .ok (.exitG 0) ∧
    decodeCompute 0x16060840 = .ok (.icmpGtS32 .lane ⟨3, 1, 2, 0, false, 0⟩) ∧
    decodeCompute 0x180628C0 = .ok (.sel .lane ⟨3, 5, 6, 0, false, 0⟩) ∧
    decodeCompute 0x14080840 = .ok (.icmpEq .lane ⟨4, 1, 2, 0, false, 0⟩) ∧
    decodeCompute 0x60002000 = .ok (.bnext ⟨4, 0, 0⟩) ∧ decodeCompute 0xE9000000 = .ok .autoStep ∧
    decodeCompute 0x01041030 = .ok (.isubA .lane ⟨2, 2, 1, 2, false, 0⟩) :=
  ⟨rfl, rfl, rfl, rfl, rfl, rfl, rfl, rfl, rfl, rfl, rfl⟩

/-- The transpose of "Second program", and the integer chapter. -/
theorem test_spec_words_integer :
    decodeCompute 0x38081800 = .ok (.ballot ⟨4, 3, 0, 0, false, 0⟩) ∧
    decodeCompute 0x39320AA0 = .ok (.shflXor ⟨25, 1, 21, 0, false, 0⟩) ∧
    decodeCompute 0x0FB2CA00 = .ok (.rotI .lane ⟨25, 25, 16, 0, false, 0⟩) ∧
    decodeCompute 0x0EACB3E0 = .ok (.sarI .lane ⟨22, 22, 31, 0, false, 0⟩) ∧
    decodeCompute 0x0B32CAE0 = .ok (.andn .lane ⟨25, 25, 23, 0, false, 0⟩) ∧
    decodeCompute 0x04080840 = .ok (.imad .lane ⟨4, 1, 2, 0, false, 0⟩) ∧
    decodeCompute 0x19860840 = .ok (.iaddSatS16 .lane ⟨3, 1, 2, 0, false, 0⟩) ∧
    decodeCompute 0x838A0840 = .ok (.imulhN32 .gang ⟨5, 1, 2, 0, false, 0⟩) ∧
    decodeCompute 0x018417E0 = .ok (.isubI .lane ⟨2, 2, 0x3F, 0, false, 0⟩) ∧
    decodeCompute 0x110C1120 = .ok (.bfi .lane ⟨6, 2, 9, 0, false, 0⟩) ∧
    decodeCompute 0x11860800 = .ok (.popc .lane ⟨3, 1, 0, false, 0⟩) ∧
    decodeCompute 0x1F0F579B = .ok (.movh .lane 7 0xABCD) ∧
    decodeCompute 0x93900060 = .ok (.lea .gang ⟨8, 0, 3, 0, 0⟩) ∧
    decodeCompute 0x30060840 = .ok (.byteq ⟨3, 1, 2, 0, false, 0⟩) ∧
    decodeCompute 0x31945040 = .ok (.crcC ⟨10, 10, 2, 0, false, 0⟩) ∧
    decodeCompute 0x33000840 = .ok (.rngSeed ⟨1, 2, 0, 0⟩) ∧ decodeCompute 0x338A0000 = .ok (.rngNext ⟨5, 0, false, 0⟩) :=
  ⟨rfl, rfl, rfl, rfl, rfl, rfl, rfl, rfl, rfl, rfl, rfl, rfl, rfl, rfl, rfl, rfl, rfl⟩

/-- "Cross-lane, control and synchronisation". -/
theorem test_spec_words_control :
    decodeCompute 0x38081C40 = .ok (.ballot ⟨4, 3, 0b100010, 0, false, 0⟩) ∧
    decodeCompute 0x3A8A0900 = .ok (.xred ⟨5, 1, 0, false, 0⟩ 8) ∧
    decodeCompute 0x3B0C0C00 = .ok (.xscan ⟨6, 1, 0, false, 0⟩ true 0) ∧
    decodeCompute 0x3C9608E0 = .ok (.bcast ⟨11, 1, 7, 0, false, 0⟩) ∧
    decodeCompute 0xE13FFFFE = .ok (.brcAll 3 true 0x7FFFE) ∧ decodeCompute 0xE1800014 = .ok (.call 20) ∧
    decodeCompute 0xE201D800 = .ok (.ret ⟨59, 0, 0⟩) ∧ decodeCompute 0xE2800000 = .ok (.regang 0) ∧
    decodeCompute 0xF00030E0 = .ok (.barInit ⟨6, 7, 0, 0⟩) ∧ decodeCompute 0xF0903000 = .ok (.barArrive ⟨8, 6, 0, false, 0⟩) ∧
    decodeCompute 0xF2143160 = .ok (.barTest ⟨10, 6, 11, 0, false, 0⟩) ∧
    decodeCompute 0xF29869C0 = .ok (.cohJoin ⟨12, 13, 14, 0, false, 0⟩) ∧
    decodeCompute 0xF4808A40 = .ok (.tlWait ⟨17, 18, 0, 0⟩) ∧ decodeCompute 0xF880A800 = .ok (.contOpen 21 0) ∧
    decodeCompute 0xF98000A0 = .ok (.trap 5 0) ∧ decodeCompute 0xFA000000 = .ok .rett ∧
    decodeCompute 0xFAAC0040 = .ok (.sysrd 22 2 0 false 0) ∧ decodeCompute 0xFB2E0200 = .ok (.syswr 23 0x010 0 0) ∧
    decodeCompute 0xFC306000 = .ok (.movsGet 24 12 false 0) :=
  ⟨rfl, rfl, rfl, rfl, rfl, rfl, rfl, rfl, rfl, rfl, rfl, rfl, rfl, rfl, rfl, rfl, rfl, rfl, rfl⟩

/-- "Number formats" and "Memory instructions". -/
theorem test_spec_words_memory :
    decodeCompute 0x21880840 = .ok (.ffmaF32 ⟨4, 1, 2, 0, false, 0⟩) ∧
    decodeCompute 0x2C07E000 = .ok (.fneg ⟨3, 60, 0, 0, false, 0⟩) ∧
    decodeCompute 0x2F180A20 = .ok (.fcvt ⟨12, 1, 0x11, 0, false, 0⟩) ∧
    decodeCompute 0x408617C0 = .ok (.ldS16I ⟨3, 2, 0x3E, 0, false, 0⟩) ∧
    decodeCompute 0x448C2060 = .ok (.stB32I ⟨6, 4, 3, 0, 0⟩) ∧ decodeCompute 0xC1064120 = .ok (.stgA ⟨3, 8, 9, 0, 0⟩) ∧
    decodeCompute 0x4C9010E0 = .ok (.atomCas ⟨8, 2, 7, 0, 0⟩) ∧ decodeCompute 0x4D8A10E0 = .ok (.redMAddF32 ⟨5, 2, 7, 0, 0⟩) ∧
    decodeCompute 0x4612A060 = .ok (.ldc ⟨9, 20, 3, 0, false, 0⟩) ∧ decodeCompute 0x4692A060 = .ok (.stc ⟨9, 20, 3, 0, 0⟩) ∧
    decodeCompute 0x50285260 = .ok (.ldv ⟨20, 10, 19, 0, false, 0⟩) ∧ decodeCompute 0x50865040 = .ok (.stv ⟨3, 10, 2, 0, 0⟩) ∧
    decodeCompute 0x51085260 = .ok (.vlatest ⟨4, 10, 19, 0, false, 0⟩) ∧ decodeCompute 0xC3005180 = .ok (.vfloor ⟨10, 12, 0, 0⟩) ∧
    decodeCompute 0xC39AA2A0 = .ok (.spalloc ⟨13, 20, 21, 0, false, 0⟩) ∧ decodeCompute 0xC5006800 = .ok (.spfree ⟨13, 0, 0⟩) ∧
    decodeCompute 0xC5B06800 = .ok (.spinfo ⟨24, 13, 0, false, 0⟩) ∧
    decodeCompute 0xC60A30E0 = .ok (.pkst ⟨5, 6, 7, 0, false, 0⟩) ∧ decodeCompute 0xC7410000 = .ok (.fence ⟨32, 32, 0, 0, 0⟩) ∧
    decodeCompute 0x329C7140 = .ok (.dfaStep4 ⟨14, 14, 10, 0, false, 0⟩) :=
  ⟨rfl, rfl, rfl, rfl, rfl, rfl, rfl, rfl, rfl, rfl, rfl, rfl, rfl, rfl, rfl, rfl, rfl, rfl, rfl, rfl⟩

/-! ## Worked examples, one instruction each -/

/-- The gang with the values of v1, v2 and v3 in lane 31 and the g registers given. -/
def set3 (a b d : Word) (g : Sparse Word) : State :=
  withGang fun h => { h with v := (([(1, a), (2, b), (3, d)] : Sparse Word).filter fun p => p.2 ≠ 0).map fun p => (31 * 64 + p.1, p.2), g := g }

/-- What a word leaves in v`r` of lane 31. -/
def vAfter (i : Instr) (r : BitVec 6) (s : State) : Option Word :=
  match exec i s with
  | .next t => some (vsrc t view1 r 31)
  | _ => none

/-- What a word leaves in g`r`. -/
def gAfter (i : Instr) (r : BitVec 6) (s : State) : Option Word :=
  match exec i s with
  | .next t => some (gsrc t view1 r)
  | _ => none

/-- v3 after an instruction whose D, A and B are v3, v1 and v2. -/
def op3 (f : O3 → Instr) (a b d : Word) : Option Word := vAfter (f ⟨3, 1, 2, 0, false, 0⟩) 3 (set3 a b d [])

/-- v3 after an instruction whose D and A are v3 and v1, with six bits in the place of B. -/
def op3s (f : O3 → Instr) (a : Word) (b : BitVec 6) : Option Word := vAfter (f ⟨3, 1, b, 0, false, 0⟩) 3 (set3 a 0 0 [])

/-- The examples of R91 and the paragraph under its table. -/
theorem test_saturating :
    op3 (.iaddSatS32 .lane) 0x7FFFFFFF 1 0 = some 0x7FFFFFFF ∧ op3 (.iaddSatN32 .lane) 0xFFFFFFFF 1 0 = some 0xFFFFFFFF ∧
    op3 (.isubSatS32 .lane) 0x80000000 1 0 = some 0x80000000 ∧ op3 (.isubSatN32 .lane) 3 5 7 = some 0 ∧
    op3 (.imulSat .lane) 0x10000 0x10000 0 = some 0x7FFFFFFF ∧ op3 (.iaddSatS16 .lane) 0x7FFF 1 0 = some 0x7FFF ∧
    op3 (.iaddSatN16 .lane) 0xFFFF 1 0 = some 0xFFFF ∧ op3 (.isubSatS16 .lane) 0x8000 1 0 = some 0xFFFF8000 ∧
    op3 (.isubSatN16 .lane) 2 9 7 = some 0 ∧ op3 (.iaddS16 .lane) 0x7FFF 1 0 = some 0xFFFF8000 ∧
    op3 (.iaddN16 .lane) 0x7FFF 1 0 = some 0x8000 := by decide +kernel

/-- R92, R93, R96, R97, R98, R99. -/
theorem test_integer :
    op3 (.imulhN32 .lane) 0xFFFFFFFF 0xFFFFFFFF 0 = some 0xFFFFFFFE ∧ op3 (.imulhS32 .lane) 0xFFFFFFFF 0xFFFFFFFF 7 = some 0 ∧
    vAfter (.iabs .lane ⟨3, 1, 0, false, 0⟩) 3 (set3 0x80000000 0 0 []) = some 0x80000000 ∧
    vAfter (.iabsSat .lane ⟨3, 1, 0, false, 0⟩) 3 (set3 0x80000000 0 0 []) = some 0x7FFFFFFF ∧
    op3 (.shlA .lane) 0x80000000 40 7 = some 0 ∧ op3 (.shrA .lane) 0x80000000 40 7 = some 0 ∧
    op3 (.sarA .lane) 0x80000000 40 0 = some 0xFFFFFFFF ∧ op3 (.rotA .lane) 0x80000001 33 0 = some 3 ∧
    op3 (.bfxN32 .lane) 0x50 0x304 0 = some 5 ∧ op3 (.bfxS32 .lane) 0x50 0x304 0 = some 0xFFFFFFFD ∧
    op3 (.bfi .lane) 5 0x304 0xFFFFFFFF = some 0xFFFFFFDF ∧
    vAfter (.popc .lane ⟨3, 1, 0, false, 0⟩) 3 (set3 0xFFFFFFFF 0 0 []) = some 32 ∧
    vAfter (.clz .lane ⟨3, 1, 0, false, 0⟩) 3 (set3 1 0 0 []) = some 31 ∧
    vAfter (.brev .lane ⟨3, 1, 0, false, 0⟩) 3 (set3 1 0 0 []) = some 0x80000000 ∧
    op3 (.icmpLtS32 .lane) 0xFFFFFFFF 1 0 = some 0xFFFFFFFF ∧ op3 (.icmpLtN32 .lane) 0xFFFFFFFF 1 7 = some 0 := by
  decide +kernel

/-- The examples of R94. -/
theorem test_lea :
    let at3 (b : Word) := set3 0 0 0 [(0, 0xFFFFFFF0), (1, 1), (3, b)]
    gAfter (.lea .gang ⟨8, 0, 3, 0, 0⟩) 8 (at3 0x20) = some 0x10 ∧ gAfter (.lea .gang ⟨8, 0, 3, 0, 0⟩) 9 (at3 0x20) = some 2 ∧
    gAfter (.lea .gang ⟨8, 0, 3, 0, 0⟩) 8 (at3 0xFFFFFFE0) = some 0xFFFFFFD0 ∧
    gAfter (.lea .gang ⟨8, 0, 3, 0, 0⟩) 9 (at3 0xFFFFFFE0) = some 1 := by decide +kernel

/-- The examples of R103. -/
theorem test_bytes :
    op3 .byteq 0x63206261 0x20202020 0 = some 0x00FF0000 ∧ op3 .bfind 0x63206261 0x20 0 = some 2 ∧
    op3 .bfind 0x63206261 0x320 0 = some 4 ∧ op3 .bperm 0x63206261 0x123 0 = some 0x61622063 := by decide +kernel

/-- CRC-32C of 32 zero bytes (R104). -/
theorem test_crc : (List.range 8).foldl (fun c _ => crcWord c 0) 0xFFFFFFFF ^^^ 0xFFFFFFFF = 0x8A9136AA#32 := by
  decide +kernel

/-- RNG.NEXT from G = 1 (R109). -/
theorem test_draw : vAfter (.rngNext ⟨5, 0, false, 0⟩) 5 (set3 0 0 0 []) = some 0x40822041 := by decide +kernel

/-- The table of the ISECT example, with a lane for each of its columns (R116). -/
theorem test_isect :
    let s := { withGang (fun g => { g with live := [1, 3, 31], v := ([(1 * 64 + 1, 5), (1 * 64 + 2, 5), (3 * 64 + 1, 12), (3 * 64 + 2, 12), (31 * 64 + 1, 0xFFFFFFFF), (31 * 64 + 2, 20)] : Sparse Word) }) with cur := some (.grp 1 0) }
    (match exec (.isect ⟨9, 1, 2, 0, 0⟩) s with
      | .next t => [1, 3, 31].map (fun l => vsrc t view1 9 l)
      | _ => []) = [1, 3, 0xFFFFFFFF] := by decide +kernel

/-- R142, R147 to R156: a sum that rounds to 2^24, FSCALE, conversions out of range, a class. -/
theorem test_floats :
    op3 .faddF32 0x3F800000 0x4B800000 0 = some 0x4B800000 ∧ op3 .fscale 0x3F800000 200 0 = some 0x7F800000 ∧
    op3 .fscale 0x3F800000 (0 - 160) 7 = some 0 ∧ op3s .fcvt 0xFF800000 0x10 = some 0x80000000 ∧
    op3s .fcvt 0x7F800000 0x10 = some 0x7FFFFFFF ∧ op3s .fcvt 0xBF400000 0x13 = some 0 ∧
    op3s .fcvt 0xBF400000 0x12 = some 0 ∧ op3s .fclass 0xFF81 2 = some 0x100 := by decide +kernel

/-- FRCP of 0 and FRSQ of 4; FLOG2 of 1 is +0 (R154). -/
theorem test_special :
    op3s .frcp 0 0 = some 0x7F800000 ∧ op3s .frsq 0x40800000 0 = some 0x3F000000 ∧ op3s .flog2 0x3F800000 0 = some 0 := by
  decide +kernel

/-- Where the group of the gang is after a word. -/
def pcAfter (i : Instr) (s : State) : Option Nat :=
  match exec i s with
  | .next t => (unitView t).map (·.pc)
  | _ => none

/-- CALL f, f twenty words on, leaves the next word's address in g59, and RET goes there (R59, R121). -/
theorem test_call_ret :
    pcAfter (.call 20) world = some 36 ∧ gAfter (.call 20) 59 world = some 17 ∧
    pcAfter (.ret ⟨59, 0, 0⟩) (set3 0 0 0 [(59, 17)]) = some 17 := by decide +kernel

/-- BRC.all, two words back, wants every live lane of a slice in q3, BRC.any one of them; ~q3 the others (R119). -/
theorem test_brc :
    let at2 := withGang fun g => { g with live := [0, 1], q := [(3, 1)], groups := [(0, some { grp0 with slices := [0] })] }
    pcAfter (.brcAll 3 false 0x7FFFE) at2 = some 17 ∧ pcAfter (.brcAny 3 false 0x7FFFE) at2 = some 14 ∧
    pcAfter (.brcAny 3 true 0x7FFFE) at2 = some 14 ∧ pcAfter (.brcAll 2 true 0x7FFFE) at2 = some 14 := by decide +kernel

end Sys2Proof.Tests
end

