-- ==== Sys2Proof/Tests/Witness1.lean ====
section
/-!
SUPPORT. Witnesses: concrete states and operands that meet the hypotheses of the statements about words
that compute, registers, the checks, exceptions, loads and stores. Each theorem names its statement.
-/
namespace Sys2Proof.Tests
open Sys2Proof.Machine Sys2Proof.Claims

/-! ## Words that compute -/

theorem witness_IntegerResults :
    Runs (.iaddA .lane ⟨1, 2, 3, 0, false, 0⟩) (need3 .lane ⟨1, 2, 3, 0, false, 0⟩) world view1 [0, 31] ∧
    Runs (.shlI .gang ⟨59, 0, 31, 0, true, 2⟩) { needI .gang ⟨59, 0, 31, 0, true, 2⟩ with limits := countOk 31 }
      world view1 [0, 31] ∧
    Runs (.lea .lane ⟨58, 58, 3, 0, 0⟩) (leaNeed .lane ⟨58, 58, 3, 0, 0⟩) world view1 [0, 31] ∧
    Runs (.lea .gang ⟨58, 58, 3, 0, 0⟩) (leaNeed .gang ⟨58, 58, 3, 0, 0⟩) world view1 [0, 31] :=
  ⟨runs_of_ok (by decide), runs_of_ok (by decide), runs_of_ok (by decide), runs_of_ok (by decide)⟩

/-- A signalling NaN in v2 of lane 31, and IV enabled. -/
def nanWorld : State := withGang fun g => { g with v := [(31 * 64 + 2, 0x7F800001)], fpCtl := 1 }

theorem witness_FloatResults_1 :
    Runs (.faddF32 ⟨1, 2, 3, 0, false, 0⟩) (need3 .lane ⟨1, 2, 3, 0, false, 0⟩) world view1 [0, 31] ∧ world.shadow = [] ∧
    ∀ l ∈ [0, 31], trapsOn (fpCtlOf world view1)
      (put (fAdd f32 (num f32 (vsrc world view1 2 l)) (num f32 (vsrc world view1 3 l)))).2 = false :=
  ⟨runs_of_ok (by decide), rfl, by decide⟩

theorem witness_FloatResults_2 :
    Runs (.faddF32 ⟨1, 2, 3, 0, false, 0⟩) (need3 .lane ⟨1, 2, 3, 0, false, 0⟩) nanWorld view1 [0, 31] ∧
    nanWorld.shadow = [] ∧ view1.region = none ∧
    ([0, 31].filter fun l => trapsOn (fpCtlOf nanWorld view1)
      (put (fAdd f32 (num f32 (vsrc nanWorld view1 2 l)) (num f32 (vsrc nanWorld view1 3 l)))).2) = [31] :=
  ⟨runs_of_ok (by decide), rfl, rfl, by decide⟩

theorem witness_LaneWordResults :
    Runs (.bperm ⟨1, 2, 3, 0, false, 0⟩) (need3 .lane ⟨1, 2, 3, 0, false, 0⟩) world view1 [0, 31] ∧
    Runs (.rngSeed ⟨2, 3, 0, 0⟩) (seedNeed ⟨2, 3, 0, 0⟩) world view1 [0, 31] ∧
    Runs (.rngNext ⟨1, 0, false, 0⟩) (drawNeed ⟨1, 0, false, 0⟩) world view1 [0, 31] ∧
    Runs (.prune ⟨1, 2, 3, 0, false, 0⟩) (need3 .lane ⟨1, 2, 3, 0, false, 0⟩) world view1 [0, 31] ∧
    Runs (.ballot ⟨1, 2, 63, 0, false, 0⟩) (needI .lane ⟨1, 2, 63, 0, false, 0⟩) world view1 [0, 31] ∧
    Runs (.bcast ⟨1, 2, 31, 0, false, 0⟩) (needBcast ⟨1, 2, 31, 0, false, 0⟩ world) world view1 [0, 31] ∧
    Runs (.shflXor ⟨1, 2, 3, 0, false, 0⟩) (needShuffle ⟨1, 2, 3, 0, false, 0⟩ fromXor) world view1 [0, 31] :=
  ⟨runs_of_ok (by decide), runs_of_ok (by decide), runs_of_ok (by decide), runs_of_ok (by decide),
    runs_of_ok (by decide), runs_of_ok (by decide), runs_of_ok (by decide)⟩

theorem witness_ReductionsAndScans_1 :
    Runs (.xred ⟨1, 2, 0, false, 0⟩ 8) (need2 .lane ⟨1, 2, 0, false, 0⟩) world view1 [0, 31] ∧ (8 : Nat) < 11 ∧
    world.shadow = [] ∧
    treeNode 8 (fun j => if j ∈ [0, 31] then some (vsrc world view1 2 j) else none) 5 0 = some (0, 0) ∧
    trapsOn (fpCtlOf world view1) 0 = false :=
  ⟨runs_of_ok (by decide), by decide, rfl, by decide, by decide⟩

theorem witness_ReductionsAndScans_2 :
    Runs (.xscan ⟨1, 2, 0, false, 0⟩ true 10) (need2 .lane ⟨1, 2, 0, false, 0⟩) world view1 [0, 31] ∧ (10 : Nat) < 11 ∧
    world.shadow = [] ∧ [0, 31].Pairwise (· < ·) ∧
    ∀ l ∈ [0, 31], trapsOn (fpCtlOf world view1) (scanAt 10 true [0, 31] (vsrc world view1 2) l).2 = false :=
  ⟨runs_of_ok (by decide), by decide, rfl, by decide, by decide⟩

theorem witness_IntersectResult :
    Runs (.isect ⟨57, 2, 3, 0, 0⟩) (isectNeed ⟨57, 2, 3, 0, 0⟩) world view1 [0, 31] := runs_of_ok (by decide)

/-! ## Registers -/

theorem witness_ResultWrites :
    unitView world = some view1 ∧ view1.gk ≠ none ∧ (([(0, 7), (31, 9)] : List (Nat × Word)).map Prod.fst).Nodup :=
  ⟨by decide, by decide, by decide⟩

theorem witness_AdvanceMovesCounter : unitView world = some view1 ∧ (view1.region = none ∨ failedOf world view1 = []) := by
  decide

theorem witness_RegisterWordFrame : ∃ t, RegisterWord (.mov .gang ⟨1, 2, 0, false, 0⟩) ∧
    exec (.mov .gang ⟨1, 2, 0, false, 0⟩) world = .next t :=
  ⟨_, .int (.mov .gang ⟨1, 2, 0, false, 0⟩), rfl⟩

/-! ## The checks -/

/-- Nothing is awaited: the scoreboard is empty. -/
theorem quiet (isG : Bool) (ls : List Nat) (r : Nat) : awaited world view1 isG ls r = none := by
  cases isG <;> simp [awaited] <;> intros <;> rfl

/-- Nothing is uncorrectable. -/
theorem clean (isG : Bool) (l r : Nat) : poisoned world view1 isG l r = false := by
  cases isG <;> rfl

theorem witness_ChecksOpenWords_1 :
    (view1.region = none ∨ actingLanes world view1 1 ≠ [] ∨ ({ pipe := .gang, strand := 1 } : Need).always = true) ∧
    (({ pipe := .gang, reserved := false } : Need).reserved = false ∨
      (view1.region = none ∧ ({ pipe := .gang, strand := 1 } : Need).strand ≠ 0)) ∧
    (({ pipe := .gang, priv := true } : Need).reserved = true ∧ ({ pipe := .gang } : Need).strand = 0 ∧ view1.priv = false) ∧
    (({ pipe := .lane, dst := some 60 } : Need).dst = some 60 ∧ 60 ≤ (60#6).toNat ∧
      ¬(({ pipe := .lane, dst := some 60 } : Need).w = true ∧ ({ pipe := .lane, dst := some 60 } : Need).readsD = true)) := by
  decide

/-- A gang with 24 registers. -/
def shortView : UView := { view1 with lregs := 24 }

theorem witness_ChecksOpenWords_limits :
    ({ pipe := .gang, limits := false } : Need).limits = false ∧
    (shortView.lregs ≤ (24#6).toNat ∧ (24#6).toNat < 60 ∧ 24#6 ∈ ({ pipe := .lane, srcs := [24] } : Need).srcs) ∧
    (∃ e, ({ pipe := .lane, other := some (59, fun _ _ _ => 0) } : Need).other = some e ∧ shortView.lregs ≤ e.1.toNat ∧
      e.1.toNat < 60) ∧
    (60 ∈ ({ pipe := .gang, gs := [60] } : Need).gs) ∧ (60 ∈ ({ pipe := .gang, more := [60] } : Need).more) :=
  ⟨rfl, by decide, ⟨_, rfl, by decide, by decide⟩, by decide, by decide⟩

theorem witness_ChecksOpenWords_2 : let n := need3 .lane ⟨1, 2, 3, 0, false, 0⟩
    unitView world = some view1 ∧ view1.region = none ∧ n.strand = 0 ∧ n.reserved = true ∧ n.limits = true ∧
    (n.priv = true → view1.priv = true) ∧ FieldsOk n view1 ∧ (∀ isG ls r, awaited world view1 isG ls r = none) ∧
    (n.ends = true → checkOutstanding world view1.qids = false) ∧
    (∀ isG l r, poisoned world view1 isG l r = false) ∧ (n.pipe = .lane → view1.lanes ≠ []) := by
  refine ⟨by decide, rfl, rfl, rfl, rfl, by decide, ⟨by decide, nofun, ?_, by decide, by decide⟩, quiet, by decide, clean, by decide⟩
  intro d h
  cases h
  decide

/-! ## Exceptions -/

theorem witness_ExceptionInGroup_1 :
    LinearGroup world view1 1 0 gang1 grp0 ∧ Plain { code := 0x07 } grp0.cont ∧ (ctxD world gang1.ctx).trapValid = true := by
  unfold LinearGroup Plain
  decide

/-- The context has no handler. -/
def bare : State := withCtx (fun c => { c with trapValid := false }) world

theorem witness_ExceptionInGroup_2 :
    LinearGroup bare view1 1 0 gang1 grp0 ∧ Plain { code := 0x30 } grp0.cont ∧ (ctxD bare gang1.ctx).trapValid = false ∧
    ctx? bare gang1.ctx ≠ none ∧ (ctxD bare gang1.ctx).faulted = false := by
  unfold LinearGroup Plain
  decide

/-- The group has a containment handler open. -/
def grpC : Group := { grp0 with cont := [40, 50] }
def gangC : Gang := { gang1 with groups := [(0, some grpC)] }

theorem witness_ContainmentUnwinds : LinearGroup (withGang fun _ => gangC) view1 1 0 gangC grpC ∧
    0x30 ≤ ({ code := 0x34 } : Cause).code ∧ ({ code := 0x34 } : Cause).code ≤ 0x34 ∧ grpC.cont = 40 :: [50] := by
  unfold LinearGroup
  decide

/-! ## Loads, stores, atomics -/

/-- A buffer of four granules at the bottom of the scratchpad; a page of the global window mapped; g10 and g11 point to the
buffer, g12 and g13 to the page. -/
def owner4 : Sparse Nat := [(24576, 1281), (24577, 1281), (24578, 1281), (24579, 1281)]
def tag4 : Tag := { live := true, base := 0, size := 1024, expiry := 100, life := 100, gen := 7 }
def memGang (g : Gang) : Gang := { g with g := [(11, 0xFF000000), (12, 0x20000), (15, 1)] }
def memWorld : State :=
  { withGang memGang with
    owner := owner4, cc := [(5123, { tags := [(0, tag4)] })]
    tlb := [{ die := 0, ctx := 5, page := 2, pa := 0x70000, r := true, w := true, x := false, d := true }] }

def ld (a : BitVec 6) : O3 := ⟨1, a, 3, 0, false, 0⟩
def st (a : BitVec 6) : O3n := ⟨1, a, 3, 0, 0⟩

theorem witness_LoadsRead : LoadWord (.ldB32A (ld 10)) (loadNeed .lane false (ld 10))
      ⟨.plain, 4, false, fun s u l => laneAddr s u 10 3 l⟩ ∧
    Runs (.ldB32A (ld 10)) (loadNeed .lane false (ld 10)) memWorld view1 [0, 31] ∧ Unhindered memWorld view1 ∧
    ∀ l ∈ accessLanes (loadNeed .lane false (ld 10)) [0, 31],
      resolve memWorld (agentOf view1) .plain l (laneAddr memWorld view1 10 3 l) 4 1 = .ok (.sp 3 0) :=
  ⟨.ldB32A (ld 10), runs_of_ok (by decide), by unfold Unhindered; decide, by decide⟩

theorem witness_LoadsRead_view :
    Runs (.ldgA (ld 12)) (loadNeed .gang false (ld 12)) memWorld view1 [0, 31] ∧
    ∀ l ∈ accessLanes (loadNeed .gang false (ld 12)) [0, 31],
      resolve memWorld (agentOf view1) .plain l (gangAddr memWorld view1 12 3) 4 1 = .ok (.view 0x70000) :=
  ⟨runs_of_ok (by decide), by decide⟩

theorem witness_StoresWrite : StoreWord (.stB32A (st 10)) (storeNeed .lane false (st 10))
      ⟨.plain, 4, fun s u l => laneAddr s u 10 3 l, fun s u l => vsrc s u 1 l⟩ ∧
    Runs (.stB32A (st 10)) (storeNeed .lane false (st 10)) memWorld view1 [0, 31] ∧ Unhindered memWorld view1 ∧
    ∀ l ∈ accessLanes (storeNeed .lane false (st 10)) [0, 31],
      resolve memWorld (agentOf view1) .plain l (laneAddr memWorld view1 10 3 l) 4 2 = .ok (.sp 3 0) :=
  ⟨.stB32A (st 10), runs_of_ok (by decide), by unfold Unhindered; decide, by decide⟩

theorem witness_StoresWrite_view :
    Runs (.stB32A (st 12)) (storeNeed .lane false (st 12)) memWorld view1 [0, 31] ∧
    ∀ l ∈ accessLanes (storeNeed .lane false (st 12)) [0, 31],
      resolve memWorld (agentOf view1) .plain l (laneAddr memWorld view1 12 3 l) 4 2 = .ok (.view 0x70000) :=
  ⟨runs_of_ok (by decide), by decide⟩

/-- v3 of lane 31 makes its address misaligned. -/
def crooked : State := { memWorld with gangs := [(1, some { memGang gang1 with v := [(31 * 64 + 3, 2)] })] }

theorem witness_AccessesStopped_1 : AccessWord (.ldB32A (ld 10)) (loadNeed .lane false (ld 10)) .plain 4 1
      (fun s u l => laneAddr s u 10 3 l) ∧
    Runs (.ldB32A (ld 10)) (loadNeed .lane false (ld 10)) crooked view1 [0, 31] ∧ view1.region = none ∧ crooked.shadow = [] ∧
    resolve crooked (agentOf view1) .plain 0 (laneAddr crooked view1 10 3 0) 4 1 = .ok (.sp 3 0) ∧
    resolve crooked (agentOf view1) .plain 31 (laneAddr crooked view1 10 3 31) 4 1 =
      .bad { code := 0x07, d0 := 2, d1 := 0xFF000000, d2 := 0 } :=
  ⟨.load (.ldB32A (ld 10)), runs_of_ok (by decide), rfl, rfl, by decide, by decide⟩

theorem witness_AccessesStopped_2 :
    Runs (.stB32A (st 14)) (storeNeed .lane false (st 14)) memWorld view1 [0, 31] ∧ Unhindered memWorld view1 ∧
    (∀ l ∈ accessLanes (storeNeed .lane false (st 14)) [0, 31], ∃ page,
      resolve memWorld (agentOf view1) .plain l (laneAddr memWorld view1 14 3 l) 4 2 = .miss page 2) ∧
    (accessLanes (storeNeed .lane false (st 14)) [0, 31]).length ≤ 256 := by
  refine ⟨runs_of_ok (by decide), by unfold Unhindered; decide, ?_, by decide⟩
  intro l h
  exact ⟨0x10000, by revert l; decide⟩

theorem witness_AccessesStopped_3 :
    Runs (.ldB32A (ld 14)) (loadNeed .lane false (ld 14)) memWorld view1 [0, 31] ∧ Unhindered memWorld view1 ∧
    ∀ l ∈ accessLanes (loadNeed .lane false (ld 14)) [0, 31],
      resolve memWorld (agentOf view1) .plain l (laneAddr memWorld view1 14 3 l) 4 1 = .miss 0x10000 1 :=
  ⟨runs_of_ok (by decide), by unfold Unhindered; decide, by decide⟩

/-- The gang has only lane 31 left. -/
def loneView : UView := { view1 with lanes := [31] }
def loneWorld : State := { memWorld with gangs := [(1, some { memGang gang1 with live := [31] })] }

theorem witness_UpdatesApply_1 : UpdateWord (.atomCas (st 10)) (atomNeed true (st 10)) (st 10) true
      (fun old a b => if old = a then b else old) ∧
    Runs (.atomCas (st 10)) (atomNeed true (st 10)) loneWorld loneView [31] ∧ Unhindered loneWorld loneView ∧
    loneWorld.shadow = [] ∧ resolve loneWorld (agentOf loneView) .plain 31 (laneAddr loneWorld loneView 10 3 31) 4 8 =
      .ok (.sp 3 0) ∧ (placeOf (.sp 3 0) 0).1 = false :=
  ⟨.atomCas (st 10), ⟨by decide, by decide⟩, by unfold Unhindered; decide, rfl, by decide, rfl⟩

theorem witness_UpdatesApply_2 : UpdateWord (.redMAdd (st 12)) (redNeed (st 12)) (st 12) false
      (fun old a _ => w32 (old.toNat + a.toNat)) ∧
    Runs (.redMAdd (st 12)) (redNeed (st 12)) loneWorld loneView [31] ∧ Unhindered loneWorld loneView ∧
    loneWorld.shadow = [] ∧ resolve loneWorld (agentOf loneView) .plain 31 (laneAddr loneWorld loneView 12 3 31) 4 8 =
      .ok (.view 0x70000) :=
  ⟨.redMAdd (st 12), ⟨by decide, by decide⟩, by unfold Unhindered; decide, rfl, by decide⟩

theorem witness_DfaSteps_1 : ∃ e : Nat → Nat → Nat,
    Runs (.dfaStep4 (ld 10)) (dfaNeed (ld 10)) memWorld view1 [0, 31] ∧
    (∀ e ∈ memWorld.queue, e.qid ∉ view1.qids) ∧ memWorld.defers.headD false = false ∧
    ∀ l ∈ [0, 31], ∀ k < 4, tableEntry memWorld view1 l (gpair memWorld view1 10)
      (if k = 0 then (vsrc memWorld view1 1 l).toNat % 0x8000 else e l (k - 1) % 0x8000)
      ((vsrc memWorld view1 3 l).toNat / 256 ^ k % 256) (e l k) := by
  refine ⟨fun _ _ => 0, runs_of_ok (by decide), by decide, rfl, ?_⟩
  intro l hl k hk
  refine ⟨.sp 3 0, ?_, ?_⟩ <;> revert k <;> revert l <;> decide

/-- The schedule holds the next access back. -/
def slowWorld : State := { memWorld with defers := [true] }

theorem witness_DfaSteps_2 :
    Runs (.dfaStep4 (ld 10)) (dfaNeed (ld 10)) slowWorld view1 [0, 31] ∧ slowWorld.defers.headD false = true :=
  ⟨runs_of_ok (by decide), rfl⟩

theorem witness_AccessesStopped_4 : AccessWord (.ldB32A (ld 10)) (loadNeed .lane false (ld 10)) .plain 4 1
      (fun s u l => laneAddr s u 10 3 l) ∧
    Runs (.ldB32A (ld 10)) (loadNeed .lane false (ld 10)) slowWorld view1 [0, 31] ∧ slowWorld.shadow = [] ∧
    (∀ l ∈ accessLanes (loadNeed .lane false (ld 10)) [0, 31],
      ∃ q, resolve slowWorld (agentOf view1) .plain l (laneAddr slowWorld view1 10 3 l) 4 1 = .ok q) ∧
    slowWorld.defers.headD false = true := by
  refine ⟨.load (.ldB32A (ld 10)), runs_of_ok (by decide), rfl, ?_, rfl⟩
  intro l h
  exact ⟨.sp 3 0, by revert l; decide⟩

end Sys2Proof.Tests
end

