-- ==== Sys2Proof/Tests/Witness2.lean ====
section
/-!
SUPPORT. Witnesses for the statements about versioned regions, scratchpad buffers, order, descriptors, packed
records and matrix words.
-/
namespace Sys2Proof.Tests
open Sys2Proof.Machine Sys2Proof.Claims

/-! ## Versioned regions -/

/-- The mapped page is designated; the line at 0x20000 holds versions 1 to 3. -/
def line3 : Line := { latest := 3, old := 1, vers := [⟨1, 0, [], []⟩, ⟨3, 1, [], []⟩] }
def region0 : VRegion := { base := 0x20000, size := 0x1000, wait := 10, floor := 1, pins := [(2, 1), (3, 65534)] }
def verCtx : Context := { ctx5 with regions := [(0, some region0)], lines := [(0x800, line3)], vregStatus := 1, vheap := 4 }
/-- g14 holds `n`. -/
def verGang (n : Word) : Gang := { gang1 with g := [(11, 0xFF000000), (12, 0x20000), (14, n), (16, 0x100), (20, 3)] }
def verWorld (n : Word) : State :=
  { memWorld with gangs := [(1, some (verGang n))], ctxs := [(5, some verCtx)] }

theorem ver_resolves (n : Word) (kind : Nat) (hn : n = 0 ∨ n = 3 ∨ n = 4 ∨ n = 0xFFFFFFFF) (hk : kind = 1 ∨ kind = 2) :
    ∀ l ∈ [0, 31], resolve (verWorld n) (agentOf view1) .globalOnly l (laneAddr (verWorld n) view1 12 3 l) 4 kind true =
      .ok (.line 0x20000) := by
  obtain rfl | rfl | rfl | rfl := hn <;> obtain rfl | rfl := hk <;> decide

theorem ver_intact : Intact (verWorld 3) 5 0x20000 := by
  refine ⟨by decide, ?_⟩
  intro k r h
  have e : regionAt (verWorld 3) 5 0x20000 = some (0, region0) := by decide
  cases e.symm.trans h
  rfl

theorem ver_addr : ∀ l ∈ [0, 31], (laneAddr (verWorld 3) view1 12 3 l).toNat = 0x20000 := by decide

theorem witness_VersionsRead_held :
    Runs (.ldv (ld 12)) (ldvNeed (ld 12)) (verWorld 3) view1 [0, 31] ∧ Clear (verWorld 3) view1 ∧
    waitOf (verWorld 3) view1 = none ∧ [0, 31].Pairwise (· < ·) ∧
    (∀ l ∈ [0, 31], Intact (verWorld 3) 5 (laneAddr (verWorld 3) view1 12 3 l).toNat) ∧
    (∀ l ∈ [0, 31], resolve (verWorld 3) (agentOf view1) .globalOnly l (laneAddr (verWorld 3) view1 12 3 l) 4 1 true =
      .ok (.line (laneAddr (verWorld 3) view1 12 3 l).toNat)) ∧
    ∀ l ∈ [0, 31], versionTime (verWorld 3) 5 (laneAddr (verWorld 3) view1 12 3 l).toNat 3 = .eq :=
  ⟨runs_of_ok (by decide), by unfold Clear; decide, by decide, by decide,
    fun l h => (ver_addr l h).symm ▸ ver_intact, by decide, by decide⟩

theorem witness_VersionsRead_early :
    Runs (.ldv (ld 12)) (ldvNeed (ld 12)) (verWorld 4) view1 [0, 31] ∧ Clear (verWorld 4) view1 ∧
    waitOf (verWorld 4) view1 = none ∧
    ∀ l ∈ [0, 31], versionTime (verWorld 4) 5 (laneAddr (verWorld 4) view1 12 3 l).toNat 4 = .gt :=
  ⟨runs_of_ok (by decide), by unfold Clear; decide, by decide, by decide⟩

theorem witness_VersionsRead_dropped :
    Runs (.ldv (ld 12)) (ldvNeed (ld 12)) (verWorld 0) view1 [0, 31] ∧ Clear (verWorld 0) view1 ∧
    waitOf (verWorld 0) view1 = none ∧ view1.region = none ∧
    ∀ l ∈ [0, 31], versionTime (verWorld 0) 5 (laneAddr (verWorld 0) view1 12 3 l).toNat 0 = .lt :=
  ⟨runs_of_ok (by decide), by unfold Clear; decide, by decide, rfl, by decide⟩

/-- In state code lane 0 reads the line at 0x20000, which has dropped number 2, and lane 31 another line. -/
def stateGang : Gang :=
  { autoGang [] [] with g := (verGang 2).g, v := [(31 * 64 + 3, 0x40)], blk := [(0, 0), (31, 0)] }
def stateVer : State :=
  { verWorld 2 with
    gangs := [(1, some stateGang)]
    ctxs := [(5, some { verCtx with
      images := [(0, some image0)], lines := [(0x800, { latest := 3, old := 3, vers := [⟨3, 1, [], []⟩] })] })] }

theorem witness_VersionsRead_parted :
    Runs (.ldv (ld 12)) (ldvNeed (ld 12)) stateVer (issuer stateVer) [0, 31] ∧ Clear stateVer (issuer stateVer) ∧
    waitOf stateVer (issuer stateVer) = none ∧ (issuer stateVer).region ≠ none ∧
    ([0, 31].filter fun l => versionTime stateVer 5 (laneAddr stateVer (issuer stateVer) 12 3 l).toNat
      (greg stateVer (issuer stateVer) 14) = .lt) = [0] ∧
    ∀ l ∈ [0, 31], resolve stateVer (agentOf (issuer stateVer)) .globalOnly l (laneAddr stateVer (issuer stateVer) 12 3 l) 4 1 true =
      .ok (.line (laneAddr stateVer (issuer stateVer) 12 3 l).toNat) :=
  ⟨runs_at (by decide), by unfold Clear; decide, by decide, by decide, by decide, by decide⟩

/-- The unit has collected what it waited for. -/
def served : State :=
  { verWorld 4 with gangs := [(1, some { verGang 4 with
      groups := [(0, some { grp0 with wait := some ⟨.version [] [(0, 5), (31, 6)], 0⟩ })] })] }

theorem witness_VersionsRead_served :
    Runs (.ldv (ld 12)) (ldvNeed (ld 12)) served view1 [0, 31] ∧
    waitOf served view1 = some ⟨.version [] [(0, 5), (31, 6)], 0⟩ :=
  ⟨runs_of_ok (by decide), by decide⟩

theorem witness_VersionsRead_latest :
    Runs (.vlatest (ld 12)) (vlatestNeed (ld 12)) (verWorld 0xFFFFFFFF) view1 [0, 31] ∧
    Unhindered (verWorld 0xFFFFFFFF) view1 ∧
    ∀ l ∈ [0, 31], resolve (verWorld 0xFFFFFFFF) (agentOf view1) .globalOnly l (laneAddr (verWorld 0xFFFFFFFF) view1 12 3 l) 4 1
      true = .ok (.line (laneAddr (verWorld 0xFFFFFFFF) view1 12 3 l).toNat) :=
  ⟨runs_of_ok (by decide), by unfold Unhindered; decide, by decide⟩

theorem witness_VersionsStore :
    let s := verWorld 4
    let addr (l : Nat) : Nat := (laneAddr s view1 12 3 l).toNat
    Runs (.stv (st 12)) (stvNeed (st 12)) s view1 [0, 31] ∧ Unhindered s view1 ∧ greg s view1 14 = 4 ∧
    (∀ l ∈ [0, 31], resolve s (agentOf view1) .globalOnly l (laneAddr s view1 12 3 l) 4 2 true = .ok (.line (addr l))) ∧
    (∀ l ∈ [0, 31], (lineOf s 5 (addr l)).latest < 4 ∧ (lineOf s 5 (addr l)).staged = none ∧
      (lineOf s 5 (addr l)).vers.length < 8) ∧
    ([0, 31].filter fun l => (lineOf s 5 (addr l)).vers.length < 8).length + heapTaken (ctxD s 5) ≤ (ctxD s 5).vheap := by
  refine ⟨runs_of_ok (by decide), by unfold Unhindered; decide, by decide, by decide, by decide, ?_⟩
  decide

theorem witness_VersionsStore_queued :
    let s := { verWorld 4 with defers := [true] }
    Runs (.stv (st 12)) (stvNeed (st 12)) s view1 [0, 31] ∧ s.defers.headD false = true ∧
    ∀ l ∈ [0, 31], resolve s (agentOf view1) .globalOnly l (laneAddr s view1 12 3 l) 4 2 true =
      .ok (.line (laneAddr s view1 12 3 l).toNat) :=
  ⟨runs_of_ok (by decide), rfl, by decide⟩

/-- g12 and g13 point into the region; g20 holds 3, on which the region has 65534 pins. -/
def pinO (b : BitVec 6) : OAB := ⟨12, b, 0, 0⟩
theorem witness_PinsAndFloors :
    Clear (verWorld 4) view1 ∧ (gpair (verWorld 4) view1 12).toNat < 2 ^ 56 ∧
    regionAt (verWorld 4) 5 (gpair (verWorld 4) view1 12).toNat = some (0, region0) ∧ PinsOk region0 ∧
    Runs (.vpin (pinO 20)) (pinNeed (pinO 20)) (verWorld 4) view1 [0, 31] ∧ (3 : Nat) ≠ 0xFFFFFFFF ∧ region0.floor ≤ 3 ∧
    pinCount region0 3 < 65535 ∧ pinCount region0 3 ≠ 0 ∧
    Runs (.vunpin (pinO 20)) (pinNeed (pinO 20)) (verWorld 4) view1 [0, 31] ∧
    gsrc (verWorld 4) view1 20 = 3 :=
  ⟨by unfold Clear; decide, by decide, by decide, by unfold PinsOk; decide, runs_of_ok (by decide), by decide,
    by decide, by decide, by decide, runs_of_ok (by decide), by decide⟩

/-- g20 holds 2, the lowest pin, to which the floor may rise. -/
def floorWorld : State :=
  { verWorld 4 with gangs := [(1, some { verGang 4 with g := [(12, 0x20000), (20, 2)] })] }
theorem witness_PinsAndFloors_floor :
    Runs (.vfloor (pinO 20)) (pinNeed (pinO 20)) floorWorld view1 [0, 31] ∧ gsrc floorWorld view1 20 = 2 ∧
    region0.floor ≤ 2 ∧ ∀ p ∈ region0.pins, 2 ≤ p.1 :=
  ⟨runs_of_ok (by decide), by decide, by decide, by decide⟩

/-! ## Scratchpad buffers -/

/-- g2 holds a size and g3 a life. -/
def allocWorld (size life : Word) : State :=
  { memWorld with gangs := [(1, some { gang1 with g := [(2, size), (3, life)] })] }

/-- Index 1 and the run at granule 4 are the lowest free ones for 257 bytes. -/
theorem witness_BufferAllocated_taken :
    let s := allocWorld 257 250
    let o : O3 := ⟨57, 2, 3, 0, false, 0⟩
    Runs (.spalloc o) (spallocNeed o) s view1 [0, 31] ∧ swf 0 s.owner = true ∧ gsrc s view1 2 = 257 ∧
    gsrc s view1 3 ≠ 0 ∧ (gsrc s view1 3).toNat ≤ Config.retention ∧ (tagOf s 5 3 1).live = false ∧
    (∀ j < 1, (tagOf s 5 3 j).live = true) ∧ RunFree s 3 2 4 ∧ ∀ j < 4, ¬ RunFree s 3 2 j := by
  refine ⟨runs_of_ok (by decide), by decide, by decide, by decide, by decide, by decide, by decide, ?_, ?_⟩ <;>
    unfold RunFree <;> decide

/-- Every granule is taken from 1025 bytes below the top: none of 6144 granules is free. -/
theorem witness_BufferAllocated_full :
    let s := allocWorld 0x180000 1
    let o : O3 := ⟨57, 2, 3, 0, false, 0⟩
    Runs (.spalloc o) (spallocNeed o) s view1 [0, 31] ∧ (gsrc s view1 2).toNat = 0x180000 ∧
    ∀ j, ¬ RunFree s 3 6144 j := by
  refine ⟨runs_of_ok (by decide), by decide, ?_⟩
  intro j h
  have hj : j = 0 := by have := h.1; omega
  subst hj
  exact absurd (h.2 0 (by decide)) (by decide)

/-- g2 holds the handle of index 0, generation 7, and g3 a life. -/
theorem witness_BufferRenewedFreedRead :
    let s := allocWorld 0x700 250
    Runs (.sprenewZ ⟨2, 3, 0, 0⟩) (renewNeed ⟨2, 3, 0, 0⟩) s view1 [0, 31] ∧
    Runs (.sprenew ⟨2, 3, 0, 0⟩) (renewNeed ⟨2, 3, 0, 0⟩) s view1 [0, 31] ∧ Good s view1 (gsrc s view1 2) 0 ∧
    (tagOf s 5 3 0).saved = false ∧ (tagOf s 5 3 0).rewrite = none ∧ (gsrc s view1 3).toNat ≤ Config.retention ∧
    Runs (.spfree ⟨2, 0, 0⟩) (spfreeNeed ⟨2, 0, 0⟩) s view1 [0, 31] ∧ (∀ e ∈ s.queue, e.gk ≠ view1.gk) ∧
    Runs (.spinfo ⟨56, 2, 0, false, 0⟩) (spinfoNeed ⟨56, 2, 0, false, 0⟩) s view1 [0, 31] ∧ (tagOf s 5 3 0).base < 2 ^ 29 :=
  ⟨runs_of_ok (by decide), runs_of_ok (by decide), by unfold Good; decide, by decide, by decide, by decide,
    runs_of_ok (by decide), by decide, runs_of_ok (by decide), by decide⟩

/-! ## Order -/

/-- A queued load of the unit, and a store of its gang in the store buffer. -/
def load9 : QEntry :=
  { id := 20, qid := 9, seq := 0, unit := .grp 1 0, ctx := 5, core := 3, gk := some 1, pc := 15, scode := false
    op := .accesses [{ lane := 0, addr := 0x20000, op := .load 4 false }], dst := some 1 }
def view1' : UView := { view1 with seq := 1 }
def busy : State :=
  { world with gangs := [(1, some { gang1 with groups := [(0, some { grp0 with issued := 1 })] })], queue := [load9]
               sb := [{ id := 21, core := 3, ctx := 5, gk := some 1, qid := 9, seq := 0, bytes := [(0x70000, 1)] }] }

theorem witness_FencesAndFlushes_settled :
    Runs (.fence ⟨63, 63, 4, 0, 0⟩) { pipe := .gang, strand := 0 } world view1 [0, 31] ∧ Settled world view1 ∧
    Runs (.flush ⟨2, 3, 0, 0⟩) (flushNeed ⟨2, 3, 0, 0⟩) (allocWorld 0 64) view1 [0, 31] ∧ Settled (allocWorld 0 64) view1 ∧
    (gpair (allocWorld 0 64) view1 2).toNat + (gsrc (allocWorld 0 64) view1 3).toNat ≤ 2 ^ 56 :=
  ⟨runs_of_ok (by decide), by unfold Settled; decide, runs_of_ok (by decide), by unfold Settled; decide, by decide⟩

theorem witness_FencesAndFlushes_fence :
    Runs (.fence ⟨1, 63, 4, 0, 0⟩) { pipe := .gang, strand := 0 } busy view1' [0, 31] ∧
    ∃ e ∈ busy.queue, ∃ x, e.qid ∈ view1'.qids ∧ e.seq < view1'.seq ∧ e.op = .accesses [x] ∧ classOf x.addr x.op &&& 1 ≠ 0 := by
  refine ⟨⟨by decide, by decide⟩, load9, by decide, { lane := 0, addr := 0x20000, op := .load 4 false }, by decide, by decide, rfl, by decide⟩

theorem witness_FencesAndFlushes_flush :
    let s := { busy with gangs := [(1, some { gang1 with g := [(3, 1)] })], queue := [] }
    Runs (.flush ⟨2, 3, 0, 0⟩) (flushNeed ⟨2, 3, 0, 0⟩) s view1 [0, 31] ∧ gsrc s view1 3 ≠ 0 ∧
    ∃ e ∈ s.sb, e.core = view1.core ∧ e.ctx = view1.ctx ∧ e.gk = view1.gk :=
  ⟨runs_of_ok (by decide), by decide, by decide⟩

/-! ## Descriptors and packed records -/

/-- g2 = entry 127, word 15, and g3 its new content; g4 and g5 point to the buffer. -/
def descWorld (sel word : Word) : State :=
  { memWorld with gangs := [(1, some { gang1 with g := [(2, sel), (3, word), (5, 0xFF000000)] })] }

theorem witness_DescriptorsWritten :
    Runs (.tdLoad ⟨2, 4, 0, 0⟩) (tdLoadNeed ⟨2, 4, 0, 0⟩) (descWorld 127 0) view1 [0, 31] ∧ Clear (descWorld 127 0) view1 ∧
    resolve (descWorld 127 0) (agentOf view1) .plain 0 (gpair (descWorld 127 0) view1 4) 64 1 = .ok (.sp 3 0) ∧
    entryOk ((List.range 16).map fun k => w32 (leNat (((spotBytes (descWorld 127 0) 3 5 (some 1) (.sp 3 0) 64).drop (4 * k)).take 4)))
      = true ∧
    Runs (.tdSet ⟨2, 3, 0, 0⟩) (renewNeed ⟨2, 3, 0, 0⟩) (descWorld (127 + 15 * 256) 0) view1 [0, 31] ∧
    entryOk ((descOf (descWorld (127 + 15 * 256) 0) 5 3 127).set 15 0) = true :=
  ⟨runs_of_ok (by decide), by unfold Clear; decide, by decide, by decide, runs_of_ok (by decide), by decide⟩

theorem witness_DescriptorsWritten_bad :
    Runs (.tdSet ⟨2, 3, 0, 0⟩) (renewNeed ⟨2, 3, 0, 0⟩) (descWorld 0 0xFFFFFFFF) view1 [0, 31] ∧ view1.region = none ∧
    entryOk ((descOf (descWorld 0 0xFFFFFFFF) 5 3 0).set 0 0xFFFFFFFF) = false :=
  ⟨runs_of_ok (by decide), rfl, by decide⟩

/-- Entry 126: a vector of 32 FP16 elements at byte 0 of the scratchpad; entry 127: a record at byte 64 with room for 32
values. g2 and g3 name them, dense first, and g4 and g5 record first. -/
def dense126 : Desc := [0x82000000, 0, 0xFF000000, 32, 0, 0, 0, 0, 0, 0, 0, 0, 0, 0, 0, 0]
def record127 : Desc := [0x82000000, 64, 0xFF000000, 32, 0, 0, 0, 0, 0, 0, 0, 0, 0, 0, 0, 0]
/-- The record holds 32 (N) and format 0: no value. -/
def packWorld : State :=
  { memWorld with
    gangs := [(1, some { gang1 with g := [(2, 126), (3, 127), (4, 127), (5, 126)] })], mem := [(spLoc 3 64, 32)]
    cc := [(5123, { tags := [(0, tag4)], descs := [(126, dense126), (127, record127)] })] }

theorem usable4 (off m : Nat) (h : off + m ≤ 1024) : Usable packWorld view1 off m := by
  refine ⟨by omega, fun k size kind hs hk => ?_⟩
  have hq : (off + k) / 256 = 0 ∨ (off + k) / 256 = 1 ∨ (off + k) / 256 = 2 ∨ (off + k) / 256 = 3 := by omega
  have ho : ownerAt packWorld 3 (off + k) = some (5, 0) := by
    unfold ownerAt
    rcases hq with e | e | e | e <;> rw [e] <;> rfl
  have hb : isBad packWorld (spLoc 3 (off + k)) size = false := by
    unfold isBad
    rw [List.any_eq_false]
    intro i _
    simp [packWorld, memWorld, withGang, world, sget]
  have hl : ¬ (1024 < off + k + size) := by omega
  change spCheck packWorld 5 3 (off + k) size _ kind = .ok (.sp 3 (off + k))
  unfold spCheck
  rw [ho]
  have ht : tagOf packWorld 5 3 0 = tag4 := rfl
  have he : expired packWorld tag4 = false := by decide
  have hp : portBusy packWorld 3 = false := by decide
  simp only [ht, he, hb]
  simp [tag4, hl, hp]

theorem packed_places : PackedPlaces packWorld view1 dense126 record127 32 2 32 64 (fun i => 2 * i) where
  space := by decide
  elems := by
    intro i hi
    refine ⟨by revert i; decide, by omega, usable4 _ _ (by omega)⟩
  base := ⟨by decide, by decide, usable4 _ _ (by decide)⟩
  apart := by intro i hi; left; omega
  distinct := by intro i _ j _ h; omega

theorem witness_PacksAndUnpacks_pack :
    let o : O3 := ⟨1, 2, 3, 0, false, 0⟩
    Runs (.pkst o) (packNeed o) packWorld view1 [0, 31] ∧ Clear packWorld view1 ∧ (gsrc packWorld view1 2).toNat = 126 ∧
    (gsrc packWorld view1 3).toNat = 127 ∧ descOf packWorld 5 3 126 = dense126 ∧ descOf packWorld 5 3 127 = record127 ∧
    pkCheck 126 127 dense126 record127 false = none ∧ dExt dense126 0 = 32 ∧ fmtWidth (dFmt dense126) / 8 = 2 ∧
    dExt record127 0 = 32 ∧ PackedPlaces packWorld view1 dense126 record127 32 2 32 64 (fun i => 2 * i) ∧
    ((List.range 32).filter fun i => spNat packWorld view1 (2 * i) 2 ≠ 0).length ≤ 32 :=
  ⟨runs_of_ok (by decide), by unfold Clear; decide, by decide, by decide, by decide, by decide, by decide, by decide,
    by decide, by decide, packed_places, by decide⟩

theorem witness_PacksAndUnpacks_unpack :
    let o : O3 := ⟨1, 4, 5, 0, false, 0⟩
    Runs (.pkld o) (packNeed o) packWorld view1 [0, 31] ∧ Clear packWorld view1 ∧ (gsrc packWorld view1 4).toNat = 127 ∧
    (gsrc packWorld view1 5).toNat = 126 ∧ pkCheck 127 126 record127 dense126 true = none ∧
    ((List.range 32).filter fun i => (readByte packWorld (spLoc 3 (64 + 8 + i / 8))).getLsbD (i % 8)).length = 0 ∧
    spNat packWorld view1 64 4 = 0 * 65536 + 32 ∧ spNat packWorld view1 68 4 = dFmt dense126 :=
  ⟨runs_of_ok (by decide), by unfold Clear; decide, by decide, by decide, by decide, by decide, by decide, by decide⟩

/-! ## Matrix words -/

/-- The engine is the context's, with a shadow and an active plane; entry 126 is a valid operand; g2 holds `x`, g3 `y`. -/
def matWorld (x y : Word) : State :=
  { world with
    gangs := [(1, some { gang1 with g := [(2, x), (3, y)] })], cc := [(5123, { descs := [(126, dense126)] })]
    cores := [(3, { matrix := { owner := some 5, log := { shadow := .ready, active := true } } })] }

theorem engine_takes (x y : Word) : EngineTakes (matWorld x y) view1 :=
  ⟨.inl rfl, rfl, show ([] : List MCmd).length < 64 by decide, by intro e h; cases h⟩

theorem witness_MatrixCommandsQueue_load :
    (∃ op, MatrixWord (matWorld 126 0) view1 (.mload ⟨2, 4, 0, 0⟩)
      { pipe := .gang, strand := 0, srcs := [2], gs := [4, 5], ends := true } op) ∧
    Runs (.mload ⟨2, 4, 0, 0⟩) { pipe := .gang, strand := 0, srcs := [2], gs := [4, 5], ends := true }
      (matWorld 126 0) view1 [0, 31] :=
  ⟨⟨_, .mload ⟨2, 4, 0, 0⟩ (by decide) (by decide)⟩, runs_of_ok (by decide)⟩

theorem witness_MatrixCommandsQueue_swap :
    MatrixWord (matWorld 0 0) view1 (.mswap 0 0) { pipe := .gang, strand := 0, ends := true } .mswap ∧
    Runs (.mswap 0 0) { pipe := .gang, strand := 0, ends := true } (matWorld 0 0) view1 [0, 31] :=
  ⟨.mswap 0 0 (by decide), runs_of_ok (by decide)⟩

theorem witness_MatrixCommandsQueue_stream :
    (∃ op, MatrixWord (matWorld (126 + 255 * 65536) 0) view1 (.mstream ⟨2, 4, 0, 0⟩)
      { pipe := .gang, strand := 0, srcs := [2], gs := [4, 5], ends := true } op) ∧
    Runs (.mstream ⟨2, 4, 0, 0⟩) { pipe := .gang, strand := 0, srcs := [2], gs := [4, 5], ends := true }
      (matWorld (126 + 255 * 65536) 0) view1 [0, 31] :=
  ⟨⟨_, .mstream ⟨2, 4, 0, 0⟩ 126 0 256 (by decide) (by decide) (by decide) (by decide) (by decide) (by decide) (by decide)⟩,
    runs_of_ok (by decide)⟩

theorem witness_MatrixCommandsQueue_zero_drain :
    (∃ op, MatrixWord (matWorld 255 0) view1 (.mzero ⟨2, 0, 0⟩) { pipe := .gang, strand := 0, srcs := [2], ends := true } op) ∧
    Runs (.mzero ⟨2, 0, 0⟩) { pipe := .gang, strand := 0, srcs := [2], ends := true } (matWorld 255 0) view1 [0, 31] ∧
    (∃ op, MatrixWord (matWorld (255 + 65536) 0) view1 (.mdrainXp ⟨2, 3, 0, 0⟩)
      { pipe := .gang, strand := 0, srcs := [2], ends := true } op) ∧
    Runs (.mdrainXp ⟨2, 3, 0, 0⟩) { pipe := .gang, strand := 0, srcs := [2], ends := true } (matWorld (255 + 65536) 0) view1
      [0, 31] :=
  ⟨⟨_, .mzero ⟨2, 0, 0⟩ 255 1 (by decide) (by decide) (by decide)⟩, runs_of_ok (by decide),
    ⟨_, .mdrainXp ⟨2, 3, 0, 0⟩ 255 1 1 (by decide) (by decide) (by decide) (by decide)⟩, runs_of_ok (by decide)⟩

/-- Two tiles of 256 rows, Z set, and timeline 15 signalled. -/
def tileA : Word := BitVec.ofNat 32 (126 + 126 * 256 + 2 ^ 24 + 2 ^ 25)
def tileB : Word := BitVec.ofNat 32 (255 + 256 + 15 * 512)
theorem witness_MatrixCommandsQueue_tile :
    let o : O3n := ⟨58, 2, 3, 0, 0⟩
    let n : Need := { pipe := .gang, strand := 0, srcs := [2, 3], ends := true, limits := (58#6).toNat < 59 && (3#6).toNat < 59 }
    (∃ op, MatrixWord (matWorld tileA tileB) view1 (.mtile o) n op) ∧ Runs (.mtile o) n (matWorld tileA tileB) view1 [0, 31] :=
  ⟨⟨_, .mtile ⟨58, 2, 3, 0, 0⟩ 126 126 0 2 256 true true 15 (by decide) (by decide) (by decide) (by decide) (by decide)
    (by decide) (by decide) (by decide) (by decide) (by decide) (by decide) (by decide) (by decide)⟩, runs_of_ok (by decide)⟩

theorem witness_DrainToLanesAndStatus :
    Runs (.mdrain ⟨1, 2, 0, false, 0⟩ 5) (mdrainNeed ⟨1, 2, 0, false, 0⟩) (matWorld (255 + 256) 0) view1 [0, 31] ∧
    EngineTakes (matWorld (255 + 256) 0) view1 ∧ (gsrc (matWorld (255 + 256) 0) view1 2).toNat = 255 + 1 * 256 ∧
    (1 < if view1.legacy then 4 else 2) ∧
    Runs (.mstat ⟨58, 2, 0, false, 0⟩) (mstatNeed ⟨58, 2, 0, false, 0⟩) (matWorld 7 0) view1 [0, 31] ∧
    (gsrc (matWorld 7 0) view1 2).toNat < 8 ∧ (matrixOf (matWorld 7 0) 3).owner = some view1.ctx ∧
    (gsrc (matWorld 7 0) view1 2).getLsbD 2 = true ∧ (matrixOf (matWorld 7 0) 3).queue = [] ∧
    Runs (.mstat ⟨58, 2, 0, false, 0⟩) (mstatNeed ⟨58, 2, 0, false, 0⟩) (allocWorld 3 0) view1 [0, 31] ∧
    (matrixOf (allocWorld 3 0) 3).owner ≠ some view1.ctx ∧ (gsrc (allocWorld 3 0) view1 2).getLsbD 2 = false :=
  ⟨runs_of_ok (by decide), engine_takes _ _, by decide, by decide, runs_of_ok (by decide), by decide, by decide, by decide,
    by decide, runs_of_ok (by decide), by decide, by decide⟩

end Sys2Proof.Tests
end

