-- ==== Sys2Proof/Tests/Witness3.lean ====
section
/-!
SUPPORT. Witnesses for the statements about control, handlers, the automaton, barriers, cohorts and timelines.
-/
namespace Sys2Proof.Tests
open Sys2Proof.Machine Sys2Proof.Claims

/-- Some gang registers. -/
def gWorld (g : Sparse Word) : State := withGang fun x => { x with g := g }

/-! ## Control -/

theorem witness_ControlTransfers_region :
    Transfer (.bra 2) { pipe := .gang } ∧ Runs (.bra 2) { pipe := .gang } (autoWorld [] []) (regionView []) [0] ∧
    (regionView []).region ≠ none :=
  ⟨.bra 2, ⟨by decide, by decide⟩, by decide⟩

theorem witness_ControlTransfers_linear :
    Runs (.bra (-17)) { pipe := .gang } world view1 [0, 31] ∧ view1.region = none ∧
    Runs (.call 262143) { pipe := .gang, more := [59] } world view1 [0, 31] ∧
    Runs (.ret ⟨59, 0, 0⟩) { pipe := .gang, strand := 0, srcs := [59] } world view1 [0, 31] :=
  ⟨runs_of_ok (by decide), rfl, runs_of_ok (by decide), runs_of_ok (by decide)⟩

/-- q0 is on in both lanes, q1 in none, q2 in lane 31. -/
def branchGang : Gang := { gang1 with q := [(0, 0xFFFFFFFF), (2, 0x80000000)] }
def branchWorld : State := withGang fun _ => branchGang

theorem witness_ControlTransfers_branch :
    LinearGroup branchWorld view1 1 0 branchGang grp0 ∧
    (∀ q : BitVec 3, q.toNat < 3 → Runs (.brcAny q false 9) { pipe := .gang } branchWorld view1 [0, 31] ∧
      Runs (.brcAll q false 9) { pipe := .gang } branchWorld view1 [0, 31]) ∧
    (let slices := grp0.slices.filter (sliceThere branchGang)
     let go (q : Nat) := slices.filter (sliceTakes true (qreg branchWorld view1 q) false branchGang)
     go 0 = [0, 7] ∧ go 1 = [] ∧ go 2 = [7] ∧ slices = [0, 7]) := by
  refine ⟨by unfold LinearGroup; decide, fun q hq => ?_, by decide⟩
  have : q = 0 ∨ q = 1 ∨ q = 2 := by revert q; decide
  obtain rfl | rfl | rfl := this <;> exact ⟨runs_of_ok (by decide), runs_of_ok (by decide)⟩

/-- A parted gang: group 0 holds slice 0 and issues; group 1 holds slice 7 and waits at its REGANG, or runs. -/
def grpA : Group := { grp0 with slices := [0] }
def grpB (w : Option Wait) : Group := { slices := [7], pc := 16, qids := [11], wait := w }
def partGang (w : Option Wait) : Gang := { gang1 with groups := [(0, some grpA), (1, some (grpB w))] }
def partWorld (w : Option Wait) : State := withGang fun _ => partGang w
def partView : UView := { view1 with lanes := [0] }

theorem witness_GroupsMergeAndRetire_whole :
    LinearGroup world view1 1 0 gang1 grp0 ∧ Runs (.regang 0) { pipe := .gang, strand := 0 } world view1 [0, 31] ∧
    ((sentries gang1.groups).filter fun e => e.1 ≠ 0) = [] ∧ (sentries gang1.groups).length = 1 ∧
    Runs (.exitG 0) { pipe := .gang, strand := 0 } world view1 [0, 31] ∧
    (gang1.live.filter fun l => l ∉ groupLanes gang1 grp0) = [] ∧ gang1.dead = false ∧ GangSettled world 1 :=
  ⟨by unfold LinearGroup; decide, runs_of_ok (by decide), by decide, by decide, runs_of_ok (by decide), by decide, rfl,
    by unfold GangSettled; decide⟩

theorem witness_GroupsMergeAndRetire_wait :
    LinearGroup (partWorld none) partView 1 0 (partGang none) grpA ∧
    Runs (.regang 0) { pipe := .gang, strand := 0 } (partWorld none) partView [0] ∧
    (∃ e ∈ (sentries (partGang none).groups).filter fun e => e.1 ≠ 0, (e.2.wait.map Wait.on) ≠ some .regang) ∧
    Runs (.exitG 0) { pipe := .gang, strand := 0 } (partWorld none) partView [0] ∧
    ((partGang none).live.filter fun l => l ∉ groupLanes (partGang none) grpA) ≠ [] :=
  ⟨by unfold LinearGroup; decide, ⟨by decide, by decide⟩, by decide, ⟨by decide, by decide⟩, by decide⟩

def atRegang : Option Wait := some ⟨.regang, 0⟩
theorem witness_GroupsMergeAndRetire_merge :
    LinearGroup (partWorld atRegang) partView 1 0 (partGang atRegang) grpA ∧
    Runs (.regang 0) { pipe := .gang, strand := 0 } (partWorld atRegang) partView [0] ∧
    (let others := (sentries (partGang atRegang).groups).filter fun e => e.1 ≠ 0
     others ≠ [] ∧ (∀ e ∈ others, (e.2.wait.map Wait.on) = some .regang ∧ e.2.pc = grpA.pc) ∧
     ∀ e ∈ (partWorld atRegang).queue, e.qid ∉ grpA.qids ∧ ∀ o ∈ others, e.qid ∉ o.2.qids) :=
  ⟨by unfold LinearGroup; decide, ⟨by decide, by decide⟩, by decide⟩

/-! ## System words -/

def contWorld (l : List Nat) : State := withGang fun g => { g with groups := [(0, some { grp0 with cont := l })] }

theorem witness_PlainSystemWords :
    LinearGroup world view1 1 0 gang1 grp0 ∧ gang1.quiesce = false ∧
    Runs (.nop 0) { pipe := .gang, strand := 0 } world view1 [0, 31] ∧
    Runs (.yield 0) { pipe := .gang, strand := 0 } world view1 [0, 31] ∧
    Runs (.idem 0) { pipe := .gang, strand := 0, ends := true } world view1 [0, 31] ∧
    Runs (.stepMark 0) { pipe := .gang, strand := 0 } world view1 [0, 31] ∧
    Runs (.trap 0xFFFF 0) { pipe := .gang, strand := 0 } world view1 [0, 31] :=
  ⟨by unfold LinearGroup; decide, rfl, runs_of_ok (by decide), runs_of_ok (by decide), runs_of_ok (by decide),
    runs_of_ok (by decide), runs_of_ok (by decide)⟩

theorem witness_PlainSystemWords_levels :
    Runs (.contOpen 1 0) { pipe := .gang, strand := 0, srcs := [1], ends := true } (contWorld [1, 2, 3]) view1 [0, 31] ∧
    (levels (contWorld [1, 2, 3]) view1).length < 4 ∧
    Runs (.contOpen 1 0) { pipe := .gang, strand := 0, srcs := [1], ends := true } (contWorld [1, 2, 3, 4]) view1 [0, 31] ∧
    4 ≤ (levels (contWorld [1, 2, 3, 4]) view1).length ∧
    Runs (.contClose 0) { pipe := .gang, strand := 0, ends := true } (contWorld [1]) view1 [0, 31] ∧
    levels (contWorld [1]) view1 = 1 :: [] :=
  ⟨runs_of_ok (by decide), by decide, runs_of_ok (by decide), by decide, runs_of_ok (by decide), by decide⟩

/-! ## Handlers -/

def rettNeed : Need := { pipe := .gang, strand := 0, priv := true }
/-- Instance 7 issues; instance 8 is there for it to be nested in. -/
def inst7 (x : Serves) : Inst := { core := 3, ctx := 5, serves := x, rcd := {}, pc := 0x100, qid := 12 }
def handling (x : Serves) (g : Gang) : State :=
  { world with gangs := [(1, some g)], insts := [(7, some (inst7 x)), (8, some (inst7 .detached))], cur := some (.inst 7)
               ctxs := (autoWorld [] []).ctxs }

/-- The gang as a gang of the management context. -/
def manager : State := { world with gangs := [(1, some { gang1 with ctx := 1 })], ctxs := [(1, some {})] }
theorem witness_ReturnFromHandler_group :
    Runs .rett rettNeed manager (issuer manager) [0, 31] ∧ (issuer manager).kind = .grp 0 :=
  ⟨runs_at (by decide), by decide⟩

theorem witness_ReturnFromHandler_instance :
    (∀ x ∈ [Serves.detached, .nested 8, .group 1 0], Runs .rett rettNeed (handling x gang1) (issuer (handling x gang1))
        (instLanes (handling x gang1) 3 7).2 ∧
      (issuer (handling x gang1)).kind = .inst 7 ∧ inst? (handling x gang1) 7 = some (inst7 x) ∧
      ∀ e ∈ (handling x gang1).queue, e.qid ∉ (issuer (handling x gang1)).qids) ∧
    inst? (handling (.nested 8) gang1) 8 = some (inst7 .detached) ∧
    gang? (handling (.group 1 0) gang1) 1 = some gang1 ∧ gang1.ends = [] ∧ group? gang1 0 = some grp0 := by
  refine ⟨?_, rfl, rfl, rfl, rfl⟩
  intro x hx
  simp only [List.mem_cons, List.not_mem_nil, or_false] at hx
  obtain rfl | rfl | rfl := hx <;> exact ⟨runs_at (by decide), by decide, by decide, by decide⟩

def frag7 : Fragment := ⟨7, [(31, 0)]⟩
theorem witness_ReturnFromHandler_fragment :
    Runs .rett rettNeed (handling (.frag 1) (autoGang [] [frag7])) (issuer (handling (.frag 1) (autoGang [] [frag7]))) [31] ∧
    gang? (handling (.frag 1) (autoGang [] [frag7])) 1 = some (autoGang [] [frag7]) ∧
    ∀ e ∈ sentries (autoGang [] [frag7]).groups, e.2.wait = none :=
  ⟨runs_at (by decide), rfl, by decide⟩

theorem witness_ReturnFromHandler_movs :
    Runs (.movsGet 1 59 false 0)
      { pipe := .gang, strand := 0, priv := true, dst := some 1, w := false, limits := (59 : Nat) < 60 }
      (handling (.group 1 0) gang1) (issuer (handling (.group 1 0) gang1)) [0, 31] ∧
    Runs (.movsPut 59 1 0) { pipe := .gang, strand := 0, priv := true, srcs := [1], limits := (59 : Nat) < 60 }
      (handling (.group 1 0) gang1) (issuer (handling (.group 1 0) gang1)) [0, 31] ∧
    sget 0 gang1.scoreboard (4096 + 59) = 0 ∧ 4096 + 59 ∉ gang1.poison :=
  ⟨runs_at (by decide), runs_at (by decide), rfl, by decide⟩

/-! ## State code -/

theorem witness_ExceptionInGroup_3 :
    let s := autoWorld [] []
    unitView s = some (regionView []) ∧ s.cur = some (.grp 1 0) ∧ gang? s 1 = some (autoGang [] []) ∧
    group? (autoGang [] []) 0 = some grp0 ∧ (autoGang [] []).region = some (region1 []) ∧
    Plain { code := 0x07 } grp0.cont ∧ (ctxD s (autoGang [] []).ctx).trapValid = true ∧ waitingFails s 1 0 = [] := by
  unfold Plain
  decide

/-- Lane 0 has failed at the word that the group has just completed. -/
def grpF : Group := { grp0 with issued := 1, failed := [(0, { code := 0x07 })] }
theorem witness_AdvanceMovesCounter_failed :
    let g : Gang := { autoGang [] [] with groups := [(0, some grpF)] }
    let t : State := { autoWorld [] [] with gangs := [(1, some g)] }
    (regionView []).region ≠ none ∧ (regionView []).kind = .grp 0 ∧ gang? t 1 = some g ∧ group? g 0 = some grpF ∧
    grpF.failed = (0, { code := 0x07 }) :: [] ∧ grpF.issued ≠ (regionView []).seq := by
  decide

/-! ## The automaton -/

theorem in_region (p : List Nat) (f : List Fragment) (h : unitView (autoWorld p f) = some (regionView p)) :
    InRegion (autoWorld p f) (regionView p) 1 0 (autoGang p f) grp0 (region1 p) image0 :=
  ⟨h, rfl, rfl, ⟨rfl, rfl⟩, rfl, rfl⟩

theorem witness_AutomatonSteps_enter :
    let s : State := { world with ctxs := [(5, some { ctx5 with images := [(63, some image0)] })] }
    LinearGroup s view1 1 0 gang1 grp0 ∧ sentries gang1.groups = [(0, grp0)] ∧ imageOf s 5 63 = some image0 ∧
    gang1.live ≠ [] ∧ image0.entry < 1022 ∧ Runs (.autoEnter 63 4) { pipe := .gang } s view1 [0, 31] :=
  ⟨by unfold LinearGroup; decide, rfl, rfl, by decide, by decide, runs_of_ok (by decide)⟩

theorem witness_AutomatonSteps_step :
    InRegion (autoWorld [1] []) (regionView [1]) 1 0 (autoGang [1] []) grp0 (region1 [1]) image0 ∧
    Runs .autoStep { pipe := .gang, always := true } (autoWorld [1] []) (regionView [1]) [0] ∧
    (region1 [1]).passes = 1 :: [] ∧
    InRegion (autoWorld [] []) (regionView []) 1 0 (autoGang [] []) grp0 (region1 []) image0 ∧
    Runs .autoStep { pipe := .gang, always := true } (autoWorld [] []) (regionView []) [0] ∧
    (region1 []).passes = [] ∧ ((autoGang [] []).back.map Prod.fst).Nodup ∧
    VoteSet (autoGang [] []).live (committed (autoGang [] [])) [1] := by
  refine ⟨in_region _ _ (by decide), ⟨by decide, by decide⟩, rfl, in_region _ _ (by decide), ⟨by decide, by decide⟩, rfl,
    by decide, by decide, fun b => ?_⟩
  constructor
  · intro h
    simp only [List.mem_singleton] at h
    subst h
    exact ⟨by decide, 0, by decide, by decide⟩
  · rintro ⟨h, l, hl, e⟩
    have hl : l = 0 ∨ l = 31 := by simpa [autoGang, gang1] using hl
    obtain rfl | rfl := hl
    · have : committed (autoGang [] []) 0 = 1 := by decide
      simp [← e, this]
    · have : committed (autoGang [] []) 31 = 1023 := by decide
      omega

theorem witness_AutomatonSteps_exit :
    InRegion (autoWorld [] []) (regionView []) 1 0 (autoGang [] []) grp0 (region1 []) image0 ∧
    Runs .autoExit { pipe := .gang, always := true } (autoWorld [] []) (regionView []) [0] ∧ (autoGang [] []).frags = [] ∧
    InRegion (autoWorld [] [frag7]) (regionView []) 1 0 (autoGang [] [frag7]) grp0 (region1 []) image0 ∧
    Runs .autoExit { pipe := .gang, always := true } (autoWorld [] [frag7]) (regionView []) [0] ∧
    (autoGang [] [frag7]).frags ≠ [] :=
  ⟨in_region _ _ (by decide), ⟨by decide, by decide⟩, rfl, in_region _ _ (by decide), ⟨by decide, by decide⟩, by decide⟩

/-- v1 holds block 1, the image's last, in lane 0 and DONE in lane 31; lane 0 acts. -/
def blockGang (g : Gang) : Gang := { g with v := [(1, 1), (31 * 64 + 1, 1023)] }
def blockWorld : State := { autoWorld [] [] with gangs := [(1, some (blockGang (autoGang [] [])))] }
def blockNeed : Need := { pipe := .lane, strand := 0, srcs := [1] }

theorem witness_BlocksChosen_next :
    InRegion blockWorld (regionView []) 1 0 (blockGang (autoGang [] [])) grp0 (region1 []) image0 ∧
    Runs (.bnext ⟨1, 0, 0⟩) blockNeed blockWorld (regionView []) [0] ∧ [0].Nodup ∧
    ∀ l ∈ [0], (vsrc blockWorld (regionView []) 1 l).toNat < image0.nb ∨ vsrc blockWorld (regionView []) 1 l = 1023 :=
  ⟨⟨by decide, rfl, rfl, ⟨rfl, rfl⟩, rfl, rfl⟩, ⟨by decide, by decide⟩, by decide, by decide⟩

theorem witness_BlocksChosen_linear :
    Runs (.bnext ⟨1, 0, 0⟩) blockNeed world view1 [0, 31] ∧ Runs (.setblk ⟨1, 0, 0⟩) blockNeed world view1 [0, 31] ∧
    view1.kind = .grp 0 ∧ view1.region = none :=
  ⟨runs_of_ok (by decide), runs_of_ok (by decide), rfl, rfl⟩

theorem witness_BlocksChosen_set :
    let s := handling (.frag 1) (blockGang (autoGang [] [frag7]))
    (issuer s).kind = .inst 7 ∧ inst? s 7 = some (inst7 (.frag 1)) ∧ gang? s 1 = some (blockGang (autoGang [] [frag7])) ∧
    imageOf s (issuer s).ctx 0 = some image0 ∧ Runs (.setblk ⟨1, 0, 0⟩) blockNeed s (issuer s) [31] ∧
    vsrc s (issuer s) 1 31 = 1023 :=
  ⟨by decide, by decide, by decide, by decide, runs_at (by decide), by decide⟩

/-! ## Barriers, cohorts, timelines -/

/-- Barrier 255 of core 3, as `b`; g2 and g3 hold `x` and `y`. -/
def barWorld (b : Barrier) (x y : Word) : State :=
  { gWorld [(2, x), (3, y)] with bars := if b = {} then [] else [(barKey 5 3 255, b)] }
def bar (arrived now : Nat) : Barrier := { init := true, expect := now, now := now, arrived := arrived, phase := 65535 }

theorem witness_BarriersCount_init :
    Runs (.barInit ⟨2, 3, 0, 0⟩) (barNeed ⟨2, 3, 0, 0⟩) (barWorld {} 511 65535) view1 [0, 31] ∧
    (gsrc (barWorld {} 511 65535) view1 2).toNat = 255 + 256 ∧ (gsrc (barWorld {} 511 65535) view1 3).toNat = 65535 ∧
    (barOf (barWorld {} 511 65535) (servingBar (barWorld {} 511 65535) view1 255)).init = false ∧
    (∀ c ∈ clusterCores (barWorld {} 511 65535) view1,
      (barOf (barWorld {} 511 65535) (barHome (barWorld {} 511 65535) 5 c 255)).init = false) ∧
    Runs (.barInit ⟨2, 3, 0, 0⟩) (barNeed ⟨2, 3, 0, 0⟩) (barWorld {} 255 1) view1 [0, 31] :=
  ⟨runs_of_ok (by decide), by decide, by decide, by decide, by decide, runs_of_ok (by decide)⟩

def arrO : O2 := ⟨1, 2, 0, false, 0⟩
theorem witness_BarriersCount_arrive (w : Fin 3) :
    let s := barWorld (bar w 2) 255 0
    Runs (.barArrive arrO) (arriveNeed arrO) s view1 [0, 31] ∧ (gsrc s view1 2).toNat = 255 ∧
    barOf s (servingBar s view1 255) = bar w 2 ∧ Settled s view1 ∧ s.defers.headD false = false := by
  obtain h | h | h : w = 0 ∨ w = 1 ∨ w = 2 := by revert w; decide
  all_goals
    subst h
    exact ⟨runs_of_ok (by decide), by decide, by decide, by unfold Settled; decide, rfl⟩

/-- Phase 65534 is over, and phase 65535, the current one, is not. -/
theorem witness_BarriersCount_wait :
    let s (tok : Word) := barWorld (bar 0 2) 255 tok
    Runs (.barWait ⟨2, 3, 0, 0⟩) (barWaitNeed ⟨2, 3, 0, 0⟩) (s 65534) view1 [0, 31] ∧
    phaseOver 65535 ((gsrc (s 65534) view1 3).toNat % 65536) ∧
    Runs (.barWait ⟨2, 3, 0, 0⟩) (barWaitNeed ⟨2, 3, 0, 0⟩) (s 65535) view1 [0, 31] ∧
    ¬ phaseOver 65535 ((gsrc (s 65535) view1 3).toNat % 65536) :=
  ⟨runs_of_ok (by decide), by unfold phaseOver; decide, runs_of_ok (by decide), by unfold phaseOver; decide⟩

/-- Gang 2 waits at the barrier for phase 65535, which the second arrival ends. -/
def waiting : Gang := { gang1 with slot := 1, groups := [(0, some { grp0 with qids := [13], wait := some ⟨.bar (barKey 5 3 255) 65535, 0⟩ })] }
theorem witness_BarriersCount_released :
    let s := { barWorld (bar 1 2) 255 0 with gangs := [(1, some { gang1 with g := [(2, 255)] }), (2, some waiting)] }
    Runs (.barArrive arrO) (arriveNeed arrO) s view1 [0, 31] ∧ servingBar s view1 255 = barKey 5 3 255 ∧
    (bar 1 2).arrived + (bar 1 2).coming ≠ (bar 1 2).now ∧ Settled s view1 ∧
    (bar 1 2).poison = false ∧ (bar 1 2).bytes = 0 ∧ (bar 1 2).arrived + 1 = (bar 1 2).now ∧
    swf none s.gangs = true ∧ swf none waiting.groups = true ∧ gang? s 2 = some waiting ∧
    waiting.ctx = barKey 5 3 255 / 256 / 1024 ∧ (group? waiting 0).bind Group.wait = some ⟨.bar (barKey 5 3 255) 65535, 0⟩ ∧
    UnitRef.grp 2 0 ≠ view1.ref :=
  ⟨runs_of_ok (by decide), by decide, by decide, by unfold Settled; decide, rfl, rfl, rfl, by decide, by decide, rfl, rfl, rfl,
    by decide⟩

theorem witness_BarriersCount_over :
    let s := barWorld { bar 1 2 with coming := 1 } 255 0
    Runs (.barArrive arrO) (arriveNeed arrO) s view1 [0, 31] ∧
    (barOf s (servingBar s view1 255)).arrived + (barOf s (servingBar s view1 255)).coming =
      (barOf s (servingBar s view1 255)).now :=
  ⟨runs_of_ok (by decide), by decide⟩

theorem witness_BarriersCount_poisoned :
    let s := barWorld { bar 0 2 with poison := true } 255 65535
    Runs (.barWait ⟨2, 3, 0, 0⟩) (barWaitNeed ⟨2, 3, 0, 0⟩) s view1 [0, 31] ∧
    (barOf s (servingBar s view1 255)).poison = true ∧ ¬ phaseOver 65535 ((gsrc s view1 3).toNat % 65536) :=
  ⟨runs_of_ok (by decide), by decide, by unfold phaseOver; decide⟩

theorem witness_BarriersCount_arm_test :
    let s := barWorld (bar 0 2) 255 2
    Runs (.barArm ⟨2, 3, 0, 0⟩) (barNeed ⟨2, 3, 0, 0⟩) s view1 [0, 31] ∧
    (bar 0 2).bytes + (gsrc s view1 3).toNat < 2 ^ 32 ∧
    Runs (.barTest ⟨1, 2, 3, 0, false, 0⟩) (barTestNeed ⟨1, 2, 3, 0, false, 0⟩) s view1 [0, 31] ∧ (gsrc s view1 3).toNat ≤ 2 :=
  ⟨runs_of_ok (by decide), by decide, runs_of_ok (by decide), by decide⟩

/-- Cohort 15 of core 3, as `c`. -/
def cohWorld (c : Cohort) (x y : Word) : State :=
  { gWorld [(2, x), (3, y)] with cohs := if c = {} then [] else [(5 * 65536 + 3 * 32 + 15, c)] }
def joinO : O3 := ⟨1, 2, 3, 0, false, 0⟩
theorem witness_CohortsAndTimelines_join :
    let s (y : Word) := cohWorld {} 15 y
    Runs (.cohJoin joinO) (cohJoinNeed joinO) (s 32) view1 [0, 31] ∧ (gsrc (s 32) view1 2).toNat = 15 ∧
    (gsrc (s 32) view1 3).toNat = 32 ∧ 32 ≤ cohortLimit 15 ∧ (cohOf (s 32) (cohKey world view1 15)) = {} ∧
    Runs (.cohJoin joinO) (cohJoinNeed joinO) (s 1) view1 [0, 31] ∧ (gsrc (s 1) view1 3).toNat = 1 :=
  ⟨runs_of_ok (by decide), by decide, by decide, by decide, by decide, runs_of_ok (by decide), by decide⟩

def formed : Cohort := { phase := .formed, expect := 1, members := [(1, 0, true)] }
theorem witness_CohortsAndTimelines_member :
    let s := cohWorld formed 15 0
    Runs (.cohLeave ⟨2, 0, 0⟩) (cohLeaveNeed ⟨2, 0, 0⟩) s view1 [0, 31] ∧ isMember (cohOf s (cohKey world view1 15)) 1 = true ∧
    (∀ j ∈ (cohOf s (cohKey world view1 15)).joiners, j.1 ≠ 1) ∧
    Runs (.cohInfo ⟨57, 2, 0, false, 0⟩) (cohInfoNeed ⟨57, 2, 0, false, 0⟩) s view1 [0, 31] ∧ (57#6).toNat + 1 + 1 ≤ 59 ∧
    ((cohOf s (cohKey world view1 15)).members.find? fun m => m.1 = 1 && m.2.2) = some (1, 0, true) ∧
    ∀ i ≤ 1, awaited s view1 true [0, 31] ((57#6).toNat + 1 + i) = none :=
  ⟨runs_of_ok (by decide), by decide, by decide, runs_of_ok (by decide), by decide, by decide, by decide⟩

/-- Timeline 15 is at 5; g3 and g4 hold 5, or 6. -/
def tlWorld (n : Word) : State := withCtx (fun c => { c with tl := [(15, 5)] }) (gWorld [(2, 15), (3, n)])
theorem witness_CohortsAndTimelines_timelines :
    Runs (.tlWait ⟨2, 3, 0, 0⟩) (tlWaitNeed ⟨2, 3, 0, 0⟩) (tlWorld 5) view1 [0, 31] ∧
    (gpair (tlWorld 5) view1 3).toNat ≤ (sget 0 (ctxD (tlWorld 5) 5).tl 15).toNat ∧
    Runs (.tlWait ⟨2, 3, 0, 0⟩) (tlWaitNeed ⟨2, 3, 0, 0⟩) (tlWorld 6) view1 [0, 31] ∧
    (sget 0 (ctxD (tlWorld 6) 5).tl 15).toNat < (gpair (tlWorld 6) view1 3).toNat ∧ (gsrc (tlWorld 6) view1 2).toNat = 15 ∧
    Runs (.tlRead ⟨58, 2, 0, false, 0⟩) (tlReadNeed ⟨58, 2, 0, false, 0⟩) (tlWorld 5) view1 [0, 31] :=
  ⟨runs_of_ok (by decide), by decide, runs_of_ok (by decide), by decide, by decide, runs_of_ok (by decide)⟩

end Sys2Proof.Tests
end

