-- ==== Sys2Proof/Tests/Witness4.lean ====
section
/-!
SUPPORT. Witnesses for the statements about special registers, launches, and copy programs.
-/
namespace Sys2Proof.Tests
open Sys2Proof.Machine Sys2Proof.Claims

/-! ## Special registers -/

theorem witness_SpecialRegisters_read :
    Runs (.sysrd 1 0x00F 0 false 0) (sysrdNeed 1 0x00F 0 false) world view1 [0, 31] ∧
    RegisterValue world view1 0x00F (qreg world view1 7) ∧ ((0x00F : Nat) ∈ privilegedRead → view1.priv = true) ∧
    Runs (.sysrd 1 0x027 0 false 0) (sysrdNeed 1 0x027 0 false) manager (issuer manager) [0, 31] ∧
    (issuer manager).priv = true :=
  ⟨runs_of_ok (by decide), .predicate 7 (by decide), by decide, runs_at (by decide), by decide⟩

theorem witness_SpecialRegisters_record :
    let s := handling (.group 1 0) gang1
    Runs (.sysrd 1 0x304 0 false 0) (sysrdNeed 1 0x304 0 false) s (issuer s) [0, 31] ∧
    RegisterValue s (issuer s) 0x304 0 :=
  ⟨runs_at (by decide), .cause 7 (inst7 (.group 1 0)) (by decide) (by decide) 3 (by decide)⟩

theorem witness_SpecialRegisters_denied :
    Runs (.sysrd 1 0x11B 0 false 0) (sysrdNeed 1 0x11B 0 false) world view1 [0, 31] ∧ (0x11B : Nat) ∈ privilegedRead ∧
    view1.priv = false ∧ Runs (.syswr 1 0x331 0 0) (syswrNeed 1 0x331 0) world view1 [0, 31] ∧ (0x331 : Nat) ∈ neverWritten ∧
    Runs (.syswr 1 0x010 0 0) (syswrNeed 1 0x010 0) world view1 [0, 31] ∧ (0x010 : Nat) ∈ privilegedWrite ∧
    Runs (.syswr 1 0x326 0 0) (syswrNeed 1 0x326 0) world view1 [0, 31] ∧ (0x326 : Nat) ∈ managementWrite ∧ view1.ctx ≠ 1 :=
  ⟨runs_of_ok (by decide), by decide, rfl, runs_of_ok (by decide), by decide, runs_of_ok (by decide), by decide,
    runs_of_ok (by decide), by decide, by decide⟩

/-- In the handler, g1 holds `x`. -/
def handlerHolds (x : Word) : State :=
  { handling (.group 1 0) gang1 with insts := [(7, some { inst7 (.group 1 0) with g := [(1, x)] })] }
theorem witness_SpecialRegisters_write :
    Runs (.syswr 1 0x010 0 0) (syswrNeed 1 0x010 0) (handlerHolds 4095) (issuer (handlerHolds 4095)) [0, 31] ∧
    ctx? (handlerHolds 4095) 5 ≠ none ∧ (issuer (handlerHolds 4095)).priv = true ∧
    KeepsValue (issuer (handlerHolds 4095)) 0x010 (fun v => 16 ≤ v.toNat ∧ v.toNat ≤ 4095) ∧
    gsrc (handlerHolds 4095) (issuer (handlerHolds 4095)) 1 = 4095 :=
  ⟨runs_at (by decide), by decide, by decide, .ageLimit, by decide⟩

/-! ## Launches and starts -/

/-- A launch record in the scratchpad's buffer: eight threads in batches of four of the kernel at 0x20000, whose header
gives 60 lane registers; `n` threads. -/
def launchWords (n : Word) : List Word := [0x20000, 0, 0, 0, n, 4] ++ List.replicate 42 0
def launchObj : Obj :=
  { handle := 1, code := 0x20100, codeLen := 64, data := 0x20000, dataLen := 16, images := [], regions := [], syms := [],
    uses := [], legacy := false, stamp := 0 }
def launchWorld (n : Byte) : State :=
  { memWorld with
    mem := (viewLoc 0 0x70008, 60) :: (spLoc 3 2, 2) :: ((if n = 0 then [] else [(spLoc 3 16, n)]) ++ [(spLoc 3 20, 4)])
    ctxs := [(5, some { ctx5 with objs := [launchObj] })] }
def postO : O2 := ⟨58, 10, 0, false, 0⟩

theorem witness_LaunchesAndStarts_post :
    Runs (.nodePost postO) (nodePostNeed postO) (launchWorld 8) view1 [0, 31] ∧ Settled (launchWorld 8) view1 ∧
    (gpair (launchWorld 8) view1 10).toNat % 64 = 0 ∧
    gangReader (launchWorld 8) (agentOf view1) 48 (gpair (launchWorld 8) view1 10) = .ok (launchWords 8) ∧
    ∃ n, checkRecord (launchWorld 8) (gangReader (launchWorld 8) (agentOf view1)) 5 0 [] (launchWords 8) = .ok n :=
  ⟨runs_of_ok (by decide), by unfold Settled; decide, by decide, rfl, _, rfl⟩

theorem witness_LaunchesAndStarts_refused :
    Runs (.nodePost postO) (nodePostNeed postO) (launchWorld 0) view1 [0, 31] ∧ Settled (launchWorld 0) view1 ∧
    gangReader (launchWorld 0) (agentOf view1) 48 (gpair (launchWorld 0) view1 10) = .ok (launchWords 0) ∧
    checkRecord (launchWorld 0) (gangReader (launchWorld 0) (agentOf view1)) 5 0 [] (launchWords 0) = .error (.status 3) :=
  ⟨runs_of_ok (by decide), by unfold Settled; decide, rfl, rfl⟩

/-- g3 names processor 1. -/
theorem witness_LaunchesAndStarts_start :
    let s := gWorld [(3, 256), (5, 8)]
    Runs (.xpStart ⟨6, 3, 0, 0⟩) (xpStartNeed ⟨6, 3, 0, 0⟩) s view1 [0, 31] ∧ (gpair s view1 6).toNat % 8 = 0 ∧
    (gsrc s view1 3).toNat = 1 * 256 ∧ (xpOf s 3 1).state ≠ .fault ∧ (xpOf s 3 1).starts.length < 4 ∧
    (∀ e ∈ s.queue, e.qid ∉ view1.qids) ∧
    Runs (.xpStatus ⟨56, 3, 0, false, 0⟩) (xpStatusNeed ⟨56, 3, 0, false, 0⟩) s view1 [0, 31] ∧ (xpOf s 3 1).ctx ≠ 5 :=
  ⟨runs_of_ok (by decide), by decide, by decide, by decide, by decide, by decide, runs_of_ok (by decide), by decide⟩

/-- The processor has faulted in the context. -/
def faultedXp : Xp := { ctx := 5, state := .fault, cause := 0x28, fpc := 65535, faddr := 0xFF00000000000004 }
theorem witness_LaunchesAndStarts_status :
    let s := { gWorld [(3, 256)] with cores := [(3, { xp1 := faultedXp })] }
    Runs (.xpStatus ⟨56, 3, 0, false, 0⟩) (xpStatusNeed ⟨56, 3, 0, false, 0⟩) s view1 [0, 31] ∧ (xpOf s 3 1).ctx = 5 ∧
    (xpOf s 3 1).state = .fault ∧ (xpOf s 3 1).cause < 64 ∧ (xpOf s 3 1).starts.length = 0 ∧ (xpOf s 3 1).loops.length = 0 ∧
    (xpOf s 3 1).fbar = none :=
  ⟨runs_of_ok (by decide), by decide, by decide, by decide, by decide, by decide, by decide⟩

/-! ## Copy programs -/

/-- Processor 0 of core 3 runs a program of context 5 at word 40; a0 and a1 point to the buffer, a3 holds 1
and a5 65534. -/
def xp40 : Xp := { state := .run, ctx := 5, a := [(1, 0xFF000000), (3, 1), (5, 65534)], pc := 40 }
def copyWorld (x : Xp) : State := { packWorld with cur := some (.xp 3 0), cores := [(3, { xp0 := x })] }
theorem copies (x : Xp) (h : x.state = .run ∨ x.state = .wait) : Copies (copyWorld x) 3 0 x := ⟨rfl, rfl, h⟩

theorem witness_CopyScalars : Copies (copyWorld xp40) 3 0 xp40 ∧ CopyAlu (.xpMovi 15 true 0xFFFF) 15
      (fun x => if true then w32 ((0xFFFF#16).toNat * 65536 + (aReg x 15).toNat % 65536) else w32 (0xFFFF#16).toNat) ∧
    resolve (copyWorld xp40) (copyAgent 3 0 xp40) .plain 0 (aPair xp40 0 + BitVec.ofInt 64 (4 * (16#16).toInt)) 4 1 =
      .ok (.sp 3 64) :=
  ⟨copies _ (.inl rfl), .movi 15 true 0xFFFF, by decide⟩

/-- Four loops open; the innermost body is words 38 to 40. -/
def looped (n : Nat) : Xp := { xp40 with loops := [(n, 38, 40), (1, 30, 50), (1, 20, 60), (1, 10, 70)] }

theorem witness_CopyFlowAndCursors_branch :
    Copies (copyWorld xp40) 3 0 xp40 ∧ aReg xp40 2 = 0 ∧ aReg xp40 3 ≠ 0 ∧ xp40.loops = [] ∧
    Copies (copyWorld (looped 2)) 3 0 (looped 2) ∧ (looped 2).loops = (2, 38, 40) :: (looped 2).loops.tail ∧
    (38 ≤ copyPc ((looped 2).pc + (-2 : BitVec 16).toInt) ∧ copyPc ((looped 2).pc + (-2 : BitVec 16).toInt) ≤ 40) ∧
    ¬(38 ≤ copyPc ((looped 2).pc + (1 : BitVec 16).toInt) ∧ copyPc ((looped 2).pc + (1 : BitVec 16).toInt) ≤ 40) :=
  ⟨copies _ (.inl rfl), by decide, by decide, rfl, copies _ (.inl rfl), rfl, by decide, by decide⟩

theorem witness_CopyFlowAndCursors_loop :
    (aReg xp40 2).toNat = 0 ∧ (aReg xp40 3).toNat ≠ 0 ∧ (2047#11).toNat ≠ 0 ∧ xp40.loops.length < 4 ∧
    4 ≤ (looped 2).loops.length ∧ (looped 2).pc = 40 ∧ (1 : Nat) < 2 ∧ (looped 1).loops = (1, 38, 40) :: (looped 1).loops.tail := by
  decide

theorem witness_CopyFlowAndCursors_cursor :
    dValid (descOf (copyWorld xp40) 5 3 126) = true ∧ dValid (descOf (copyWorld xp40) 5 3 0) = false ∧ aReg xp40 3 ≠ 0 ∧
    aReg xp40 2 = 0 := by decide

/-- Two cursors on the vector, and one on the mapped page. -/
def curs (n : Nat) : Cursor := { bound := true, desc := n, pos := [0, 0, 0, 0, 0], win := [32, 1, 1, 1, 1] }
/-- Entry 125 is a matrix of FP32, 124 a vector in the designated page, 123 a matrix of 2 rows of 4 FP16, 122 a vector of 4 FP16. -/
def tile0 : Tile := { fmt := 2, scale := 0, rows := [List.replicate 64 1], scales := [] }
def xpCmd : Xp :=
  { xp40 with cur := [curs 126, curs 126, curs 125, curs 124], port := [tile0], lastCmd := some 9, a := [(1, 0xFF000000), (4, 4)] }
def desc125 : Desc := [0x84200000, 0, 0xFF000000, 64, 1, 0, 0, 0, 256, 0, 0, 0, 0, 0, 0, 0]
def desc124 : Desc := [0x82000000, 0x20000, 0, 32, 0, 0, 0, 0, 0, 0, 0, 0, 0, 0, 0, 0]
def desc123 : Desc := [0x84000000, 0, 0xFF000000, 4, 2, 0, 0, 0, 8, 0, 0, 0, 0, 0, 0, 0]
def desc122 : Desc := [0x82000000, 16, 0xFF000000, 4, 0, 0, 0, 0, 0, 0, 0, 0, 0, 0, 0, 0]
def cmdWorld : State :=
  { copyWorld xpCmd with
    ctxs := [(5, some verCtx)]
    cc := [(5123, { tags := [(0, tag4)]
                    descs := [(122, desc122), (123, desc123), (124, desc124), (125, desc125), (126, dense126)] })] }

theorem witness_CopyCommands_move : Copies cmdWorld 3 0 xpCmd ∧ xpCmd.cmds.length < 8 ∧ (cursorAt xpCmd 0).bound = true ∧
    (cursorAt xpCmd 1).bound = true ∧ (∃ ps, boxPlan true dense126 dense126 (curs 126) (curs 126) = .ok ps) ∧
    descOf cmdWorld 5 3 (cursorAt xpCmd 0).desc = dense126 ∧ dValid dense126 = true ∧ alike dense126 dense126 = true ∧
    dBlk dense126 = 0 :=
  ⟨⟨rfl, rfl, .inl rfl⟩, by decide, rfl, rfl, ⟨_, rfl⟩, by decide, by decide, by decide, by decide⟩

theorem witness_CopyCommands_gather :
    (∃ idx, engineReads cmdWorld (copyAgent 3 0 xpCmd) 1 (aPair xpCmd 0) = (idx, none)) ∧
    ∃ ps, gatherPlan true desc123 desc123 [0, 1] = .ok ps :=
  ⟨⟨_, rfl⟩, ⟨_, rfl⟩⟩

theorem witness_CopyCommands_tile : (cursorAt xpCmd 2).bound = true ∧ xpCmd.port.head? = some tile0 ∧
    (∀ c ∈ xpCmd.cmds, takesTile c.kind = false) ∧ descOf cmdWorld 5 3 (cursorAt xpCmd 2).desc = desc125 ∧
    dValid desc125 = true ∧ dFmt desc125 = 2 ∧ tile0.fmt = 2 ∧ dScale desc125 = tile0.scale ∧ dBlk desc125 = 0 ∧
    tileOut desc125 (cursorAt xpCmd 2) tile0 = false := by decide

theorem witness_CopyCommands_publish :
    (cursorAt xpCmd 3).bound = true ∧ (aReg xpCmd 4).toNat = 4 ∧
    ∃ ps, boxPlan false dense126 desc124 (curs 126) (curs 124) = .ok ps ∧
      vpubLines cmdWorld 5 0 ps = .ok [0x800] ∧ checkLines cmdWorld 5 4 { code := 0x05 } [0x800] 0 = .ok :=
  ⟨rfl, by decide, _, rfl, rfl, rfl⟩

theorem witness_CopyCommands_follow : xpCmd.lastCmd = some 9 ∧ xpCmd.follows.length < 4 := by decide

theorem witness_CopySelectsAndSynchronises_select : Copies cmdWorld 3 0 xpCmd ∧ xpCmd.cmds = [] ∧
    pselOk desc123 desc122 = true ∧ aPair xpCmd 0 = spAddr 0 ∧
    (∃ qs scores, readElems cmdWorld (copyAgent 3 0 xpCmd) desc122
        ((List.range (dExt desc122 0)).map fun (d : Nat) => [(d : Int), 0, 0, 0, 0]) = (qs, none) ∧
      rowScores cmdWorld (copyAgent 3 0 xpCmd) desc123 qs (List.range (dExt desc123 1)) = (scores, none)) ∧
    ∀ i ≤ 2, resolve cmdWorld (copyAgent 3 0 xpCmd) .plain 0 (spAddr (0 + 4 * i)) 4 2 = .ok (.sp 3 (0 + 4 * i)) :=
  ⟨⟨rfl, rfl, .inl rfl⟩, rfl, by decide, by decide, ⟨_, _, rfl, rfl⟩, by decide⟩

theorem witness_CopySelectsAndSynchronises_barrier (w : Fin 2) :
    let s := { copyWorld xp40 with bars := [(barKey 5 3 255, bar w 2)] }
    Copies s 3 0 xp40 ∧ xp40.cmds = [] ∧ xp40.follows = [] ∧ barOf s (barHome s 5 3 (255#8).toNat) = bar w 2 ∧
    (bar w 2).arrived + (bar w 2).coming ≠ (bar w 2).now ∧ phaseOver (bar w 2).phase ((aReg xp40 5).toNat % 65536) ∧
    ¬ phaseOver (bar w 2).phase ((aReg xp40 2).toNat % 65536) ∧ (bar w 2).poison = false ∧
    (∀ on, xp40.wait.map Wait.on ≠ some on) := by
  obtain h | h : w = 0 ∨ w = 1 := by revert w; decide
  all_goals
    subst h
    exact ⟨⟨rfl, rfl, .inl rfl⟩, rfl, rfl, by decide, by decide, by unfold phaseOver; decide, by unfold phaseOver; decide, rfl, nofun⟩

theorem witness_CopySelectsAndSynchronises_signal :
    (copyWorld xp40).homeq = [] ∧ (copyWorld xp40).pubs = [] ∧ ctx? (copyWorld xp40) 5 ≠ none ∧ xp40.follows = [] := by decide

end Sys2Proof.Tests
end

