-- ==== Sys2Proof/Tests/Witness5.lean ====
section
/-!
SUPPORT. Witnesses for the statements about the memory system's own steps, translation, registers written by
events, copy processors and the matrix engine.
-/
namespace Sys2Proof.Tests
open Sys2Proof.Machine Sys2Proof.Claims

/-! ## Queues -/

/-- One queue entry of the gang; v1 of lanes 0 and 31 awaits it. -/
def entryQ (op : QueueOp) : QEntry :=
  { id := 20, qid := 9, seq := 1, unit := .grp 1 0, ctx := 5, core := 3, gk := some 1, pc := 15, scode := false, op := op
    dst := some 1 }
def awaitGang : Gang := { memGang gang1 with scoreboard := [(1, 21), (31 * 64 + 1, 21)] }
def queueWorld (op : QueueOp) (more : List QEntry) : State :=
  { memWorld with gangs := [(1, some awaitGang)], queue := more ++ [entryQ op]
                  bars := [(barKey 5 3 255, { bar 0 2 with coming := 1 })] }
/-- Lane 0 loads at `addr`; lane 31 stores 7. -/
def ldAcc (l : Nat) (addr : Dword) : Access := { lane := l, addr := addr, op := .load 2 true }
def load2 : QueueOp := .accesses [ldAcc 0 0xFF00000000000002]
def stAcc : Access := { lane := 0, addr := 0x20000, op := .store 4 7 }
def store4 : QueueOp := .accesses [stAcc]
def entryAt (op : QueueOp) (more : List QEntry) : Agent := { entryAgent (queueWorld op more) (entryQ op) with ref := none }

theorem witness_QueueEntriesPerform_load :
    (queueWorld load2 []).queue.find? (fun e => e.id = 20) = some (entryQ load2) ∧
    ((queueWorld load2 []).queue.map QEntry.id).Nodup ∧ (queueWorld load2 []).gutter = [] ∧
    blocked (queueWorld load2 []) (entryAgent (queueWorld load2 []) (entryQ load2)) load2 = false ∧
    bufGone (queueWorld load2 []) (entryAgent (queueWorld load2 []) (entryQ load2)) (ldAcc 0 0xFF00000000000002) = false ∧
    resolve (queueWorld load2 []) (entryAt load2 []) .plain 0 0xFF00000000000002 2 1 = .ok (.sp 3 2) ∧
    LiveGang (queueWorld load2 []) 1 awaitGang ∧ (entryQ load2).fails = [] ∧ (entryQ load2).got = [] ∧
    (∀ h ∈ (queueWorld load2 []).homeq, h.entry ≠ some 20) ∧ sget 0 awaitGang.scoreboard (0 * 64 + 1) = 20 + 1 :=
  ⟨by decide, by decide, rfl, by decide, by decide, by decide, ⟨rfl, by decide⟩, rfl, rfl, by decide, rfl⟩

/-- Lane 31's load of the same instruction is still to be made, and fails. -/
def load22 : QueueOp := .accesses [ldAcc 0 0xFF00000000000002, ldAcc 31 0xFF00000000000001]
theorem witness_QueueEntriesPerform_part :
    [ldAcc 0 0xFF00000000000002, ldAcc 31 0xFF00000000000001].filter (fun y => y.lane = (ldAcc 0 0xFF00000000000002).lane) =
      [ldAcc 0 0xFF00000000000002] ∧
    blocked (queueWorld load22 []) (entryAgent (queueWorld load22 []) (entryQ load22)) load2 = false ∧
    resolve (queueWorld load22 []) (entryAt load22 []) .plain 0 0xFF00000000000002 2 1 = .ok (.sp 3 2) := by decide

def crookedLoad : QueueOp := .accesses [ldAcc 0 0xFF00000000000001]
theorem witness_QueueEntriesPerform_fails :
    (queueWorld crookedLoad []).queue.find? (fun e => e.id = 20) = some (entryQ crookedLoad) ∧
    blocked (queueWorld crookedLoad []) (entryAgent (queueWorld crookedLoad []) (entryQ crookedLoad)) crookedLoad = false ∧
    bufGone (queueWorld crookedLoad []) (entryAgent (queueWorld crookedLoad []) (entryQ crookedLoad))
      (ldAcc 0 0xFF00000000000001) = false ∧
    (∃ c, resolve (queueWorld crookedLoad []) (entryAt crookedLoad []) .plain 0 0xFF00000000000001 2 1 = .bad c) ∧
    LiveGang (queueWorld crookedLoad []) 1 awaitGang ∧ (entryQ crookedLoad).scode = false :=
  ⟨by decide, by decide, by decide, ⟨_, rfl⟩, ⟨rfl, by decide⟩, rfl⟩

theorem witness_QueueEntriesPerform_store :
    (queueWorld store4 []).queue.find? (fun e => e.id = 20) = some (entryQ store4) ∧ (∀ i < 4, i ∈ stAcc.mask) ∧
    blocked (queueWorld store4 []) (entryAgent (queueWorld store4 []) (entryQ store4)) store4 = false ∧
    bufGone (queueWorld store4 []) (entryAgent (queueWorld store4 []) (entryQ store4)) stAcc = false ∧
    resolve (queueWorld store4 []) (entryAt store4 []) .plain 0 0x20000 4 2 = .ok (.view 0x70000) := by decide

/-- A version store of number 4 to the designated page. -/
def version4 : QueueOp := .stv 4 [stAcc] none
def versionWorld : State := { queueWorld version4 [] with ctxs := [(5, some verCtx)] }
theorem witness_QueueEntriesPerform_version :
    versionWorld.queue.find? (fun e => e.id = 20) = some (entryQ version4) ∧ versionWorld.gutter = [] ∧
    blocked versionWorld (entryAgent versionWorld (entryQ version4)) version4 = false ∧
    (∀ x ∈ [stAcc], ∃ q, resolve versionWorld { entryAgent versionWorld (entryQ version4) with ref := none } .globalOnly
      x.lane x.addr 4 2 true = .ok q) ∧
    stvCheck versionWorld 5 4 { code := 0x05 } [stAcc] = .ok ∧ LiveGang versionWorld 1 awaitGang := by
  refine ⟨by decide, rfl, by decide, ?_, by decide, ⟨rfl, by decide⟩⟩
  intro x hx
  rw [List.mem_singleton.1 hx]
  exact ⟨_, rfl⟩

/-- An older load stands before the FENCE, or none does. -/
def load8 : QEntry := { load9 with id := 8 }
theorem witness_QueueEntriesPerform_fence :
    complete (queueWorld (.fence 1 63 4) []) (entryAgent (queueWorld (.fence 1 63 4) []) (entryQ (.fence 1 63 4))) 1 4 = true ∧
    (queueWorld (.fence 1 63 4) [load8]).queue.find? (fun e => e.id = 20) = some (entryQ (.fence 1 63 4)) ∧
    ((queueWorld (.fence 1 63 4) [load8]).queue.map QEntry.id).Nodup ∧
    complete (queueWorld (.fence 1 63 4) [load8]) (entryAgent (queueWorld (.fence 1 63 4) [load8]) (entryQ (.fence 1 63 4))) 1 4
      = false := by decide

theorem witness_QueueEntriesPerform_arrive : let op := QueueOp.arrive (barKey 5 3 255)
    (queueWorld op []).queue.find? (fun e => e.id = 20) = some (entryQ op) ∧
    LiveGang (queueWorld op []) 1 awaitGang ∧
    (∀ q ∈ (queueWorld op []).queue, q.qid ∈ (entryAgent (queueWorld op []) (entryQ op)).qids → (entryQ op).seq ≤ q.seq) ∧
    complete (queueWorld op []) (entryAgent (queueWorld op []) (entryQ op)) 63 1 = true ∧
    (barOf (queueWorld op []) (barKey 5 3 255)).init = true ∧ (barOf (queueWorld op []) (barKey 5 3 255)).cluster = false :=
  ⟨by decide, ⟨rfl, by decide⟩, by decide, by decide, by decide, by decide⟩

/-! ## Writes on their way -/

def sb21 : SbEntry := { id := 21, core := 3, ctx := 5, gk := some 1, qid := 9, seq := 0, bytes := [(0x70000, 1), (0x70001, 2)] }
def pub30 : Pub :=
  { into := 7, id := 30, origin := 0, stamp := [1, 0, 0, 0, 0, 0, 0, 0], key := 8, bytes := [(0x70000, 1)], gk := none, qid := 0
    seq := 0, ctx := 5, at_ := false }
def home40 : HomeOp :=
  { id := 40, home := 0, pa := 0x70000, op := .atom 0x80 1 0, lane := 0, unit := some (.grp 1 0), ctx := 5, core := 3, gk := some 1
    qid := 9, seq := 1, entry := some 20, pc := 15, scode := false, order := 0 }
def gut50 (addr : Dword) : GutterEntry :=
  { id := 50, core := 3, ctx := 5, gk := some 1, qid := 9, seq := 0, addr := addr, lane := 0, op := .store 4 7, pc := 15, scode := false
    mask := [0, 1, 2, 3], lanes := [0] }
def flowWorld (addr : Dword) : State :=
  { queueWorld load2 [] with
    sent := [{ entryQ (.accesses []) with got := [(31, 9)] }], sb := [sb21], pubs := [pub30], homeq := [home40], gutter := [gut50 addr]
    tlb := [{ die := 0, ctx := 5, page := 2, pa := 0x70000, r := true, w := true, x := false, d := true },
            { die := 0, ctx := 5, page := 3, pa := 0x80000, r := true, w := false, x := false, d := false }] }

theorem witness_WritesReachMemory_buffer : let s := flowWorld 0
    s.sb.find? (fun e => e.id = 21) = some sb21 ∧ sb21.core < 1024 ∧ (dieOf s (dieNo sb21.core)).clock.length = 8 ∧
    s.sb.takeWhile (fun x => x.id ≠ 21) = [] ∧ (sb21.bytes.map fun b => viewLoc (dieNo sb21.core) b.1).Nodup := by decide

theorem witness_WritesReachMemory_publish : let s := flowWorld 0
    s.pubs.find? (fun w => w.into = 7 ∧ w.id = 30) = some pub30 ∧ (dieOf s 7).clock.length = 8 ∧ pub30.origin < 8 ∧
    pub30.stamp.getD pub30.origin 0 = (dieOf s 7).clock.getD pub30.origin 0 + 1 ∧
    (∀ k < 8, k ≠ pub30.origin → pub30.stamp.getD k 0 ≤ (dieOf s 7).clock.getD k 0) ∧
    (pub30.bytes.map fun b => viewLoc 7 b.1).Nodup := by decide

theorem witness_WritesReachMemory_home : let s := flowWorld 0
    s.homeq.find? (fun h => h.id = 40) = some home40 ∧ home40.home < 8 ∧ (dieOf s home40.home).clock.length = 8 ∧
    (∀ x ∈ s.homeq, x.pa = home40.pa → x.qid = home40.qid → x.seq = home40.seq → x.gk = home40.gk → home40.order ≤ x.order) ∧
    home40.pa + 4 ≤ 2 ^ 52 ∧ isBad s (viewLoc home40.home home40.pa) 4 = false ∧ s.shadow = [] ∧ home40.xp = none ∧
    s.sent.find? (fun e => e.id = 20) = some { entryQ (.accesses []) with got := [(31, 9)] } ∧
    ((([(31, 9)] : List (Nat × Word)) ++ [(home40.lane, 0)]).map Prod.fst).Nodup ∧ (∀ x ∈ s.homeq, x.id ≠ 40 → x.entry ≠ some 20) ∧
    sget 0 awaitGang.scoreboard (home40.lane * 64 + 1) = 20 + 1 := by decide

/-- Lane 31's update of the same instruction is still on its way. -/
theorem witness_WritesReachMemory_home_first : let s := { flowWorld 0 with homeq := [home40, { home40 with id := 41, lane := 31, order := 1 }] }
    (∀ x ∈ s.homeq, x.pa = home40.pa → x.qid = home40.qid → x.seq = home40.seq → x.gk = home40.gk → home40.order ≤ x.order) ∧
    ∃ x ∈ s.homeq, x.id ≠ 40 ∧ x.entry = some 20 := by decide

theorem witness_WritesReachMemory_gutter :
    let a : Agent := { core := 3, ctx := 5, gk := some 1, ref := none, qids := [9], seq := 0, pc := 15, scode := false }
    (flowWorld 0x2FFFC).gutter.find? (fun e => e.id = 50) = some (gut50 0x2FFFC) ∧
    (flowWorld 0x2FFFC).gutter.takeWhile (fun x => x.id ≠ 50) = [] ∧ (∀ i < 4, i ∈ (gut50 0x2FFFC).mask) ∧
    vaCheck (flowWorld 0x2FFFC) a 0x2FFFC 4 2 0x2FFFC false = .ok (.view 0x7FFFC) ∧
    (∃ c, vaCheck { flowWorld 0x20000 with ctxs := [(5, some verCtx)] } a 0x20000 4 2 0x20000 false = .bad c) ∧
    LiveGang (flowWorld 0x20000) 1 awaitGang ∧ sentries (flowWorld 0x20000).insts = [] :=
  ⟨by decide, by decide, by decide, by decide, ⟨_, rfl⟩, ⟨rfl, by decide⟩, rfl⟩

/-! ## Translation -/

/-- Words at an address of die 0's view. -/
def cellsAt (pa : Nat) (ws : List Word) : List Host.Cell := (placed pa (ws.flatMap fun w => natLe 4 w.toNat)).filter fun e => e.2 ≠ 0
/-- Page 2 of context 5 is mapped to 0x70000 by a table at address 0, in a leaf with flags `f`. -/
def tables (f : Word) : List Host.Cell :=
  cellsAt 0 [0x4001] ++ cellsAt 0x4000 [0x8001] ++ cellsAt 0x8000 [0xC001] ++ cellsAt 0xC010 [0x70000 + f]
def walk (page acc : Nat) : Walk := { die := 0, ctx := 5, page := page, acc := acc, who := [(3, .unit (.grp 1 0), 2)] }
def tableWorld (f : Word) : State :=
  { world with mem := tables f, walks := [walk 2 3, walk 511 1], pageRecs := [{ walk 511 1 with id := 60, absent := true }] }

theorem witness_TranslationsComeAndGo_leaf : let s := tableWorld 0xF
    ((s.walks.filter fun w => w.die = 0).take 96).find? (fun w => w.ctx = 5 ∧ w.page = 2) = some (walk 2 3) ∧
    walkTable s 0 5 (2 * 0x10000) 3 = .leaf 0x70000 true true false false 0xC010 0x7000F false ∧ 0xC010 + 8 ≤ 2 ^ 52 ∧
    ∀ y ∈ (walk 2 3).who, ∀ c i, y.2.1 ≠ .buffer c i := by
  refine ⟨by decide, by decide, by decide, fun y hy c i => ?_⟩
  rw [List.mem_singleton.1 hy]
  exact nofun

theorem witness_TranslationsComeAndGo_absent : let s := tableWorld 0xF
    ((s.walks.filter fun w => w.die = 0).take 96).find? (fun w => w.ctx = 5 ∧ w.page = 511) = some (walk 511 1) ∧
    walkTable s 0 5 (511 * 0x10000) 1 = .absent 3 := by decide

theorem witness_TranslationsComeAndGo_answer :
    let s := { tableWorld 0xF with gangs := [(1, some { gang1 with groups := [(0, some { grp0 with wait := some ⟨.page 511, 0⟩ })] })] }
    s.pageRecs.find? (fun w => w.id = 60) = some { walk 511 1 with id := 60, absent := true } ∧
    gang? s 1 = some { gang1 with groups := [(0, some { grp0 with wait := some ⟨.page 511, 0⟩ })] } := by decide

theorem witness_TranslationsComeAndGo_invalidate :
    (0xFF#32).toNat < 0x100 ∧ 0x80000000 ≤ (0x800000FF#32).toNat ∧ (0x800000FF#32).toNat < 0x80000100 ∧
    HasContext world 5 ctx5 ∧ (0xFFFFF#32).toNat < 0x100000 ∧ (0xFFFFF000#32).toNat % 0x1000 = 0 :=
  ⟨by decide, by decide, by decide, rfl, by decide, by decide⟩

/-! ## Registers written by events -/

/-- A sound image of one block and one state, whose code is AUTO.STEP, in the mapped page. -/
def imageWords : List Word :=
  [0x4D41584A, 1, 0x00010001, 0, 0, 0, 64, 96, 112, 112, 1, 116, 0, 0, 0, 0] ++
  [0x10000000, 0xFFFF0000, 0xFFFFFFFF, 0xFFFFFFFF, 0xFFFFFFFF, 0, 0, 0] ++ [0x400FFFFF, 0, 1, 0] ++ [0xE9000000]
def sealWorld (ws : List Word) : State :=
  { memWorld with mem := cellsAt 0x70000 ws, ctxs := [(5, some { ctx5 with autoAddr := 0x20000, images := [(1, some image0)] })] }
def bareAgent : Agent := { core := 3, ctx := 5, gk := none, ref := none }

def sealed (r : SealRes) : Nat :=
  match r with
  | .ok _ => 100
  | .status n => if n = 100 then 99 else n
  | .stop _ => 99
/-- 100 stands for a sealed image, and 99 for a read that fails. -/
theorem sealed_ok {r : SealRes} (h : sealed r = 100) : ∃ im, r = .ok im := by
  cases r with
  | ok im => exact ⟨im, rfl⟩
  | status n => simp only [sealed] at h; split at h <;> simp_all
  | stop e => cases h

theorem witness_RegisterEvents_seal :
    HasContext (sealWorld imageWords) 5 { ctx5 with autoAddr := 0x20000, images := [(1, some image0)] } ∧
    sealed (sealAt (sealWorld imageWords) bareAgent [] 63) = 100 ∧ sealed (sealAt (sealWorld []) bareAgent [] 63) = 1 ∧
    sget none [(1, some image0)] (1#32).toNat = some image0 ∧
    ∀ e ∈ sentries (sealWorld []).gangs, e.2.region.map Region.img ≠ some 1 :=
  ⟨rfl, by decide +kernel, by decide +kernel, rfl, by decide⟩

/-- The designation registers name the mapped page's upper half. -/
def vregCtx (size : Word) : Context := { verCtx with vregBase := 0x28000, vregSize := size, vregWait := 7 }
def vregWorld (size : Word) : State := { tableWorld 0xCF with ctxs := [(5, some (vregCtx size))] }
theorem witness_RegisterEvents_designate :
    HasContext (vregWorld 0x8000) 5 (vregCtx 0x8000) ∧ designateStatus (vregWorld 0x8000) 0 5 63 0x28000 0x8000 = 0 ∧
    spanBusy (vregWorld 0x8000) 0 5 0x28000 0x8000 = false ∧ designateStatus (vregWorld 0) 0 5 63 0x28000 0 = 2 :=
  ⟨rfl, by decide, by decide, by decide⟩

theorem witness_RegisterEvents_release : let s := vregWorld 64
    HasContext s 5 (vregCtx 64) ∧ sget none (vregCtx 64).regions ((192#32).toNat % 64) = some region0 ∧
    releaseStatus s 5 0 ((192#32).getLsbD 6) = 0 ∧ releaseStatus s 5 0 ((128#32).getLsbD 6) = 5 :=
  ⟨rfl, by decide, by decide, by decide⟩

/-- A unit that has waited for a timeline for 7 µs, at the new bound. -/
theorem witness_RegisterEvents_bounds :
    let s := { withGang (fun g => { g with groups := [(0, some { grp0 with wait := some ⟨.tl 0 9, 0⟩ })], since := 0 }) with usec := 7 }
    HasContext s 5 ctx5 ∧ s.cores = [] ∧
    (∀ e ∈ waits s 5, let b := waitBoundOf { ctx5 with waitBound := 0x70001 } e.2.on; b = 0 ∨ s.usec ≤ e.2.since + b) ∧
    (∀ e ∈ sentries s.gangs, s.usec ≤ e.2.since + (1#32).toNat * 1000) ∧ sentries s.insts = [] :=
  ⟨rfl, rfl, by decide, by decide, rfl⟩

/-- A die's cycle starts at any of its 640 positions; within 4 µs a window is open, and 2 µs after one none is. -/
theorem witness_RegisterEvents_refresh : ∃ n, (purlinGroup { world with usec := n } 0).2 = true ∧
    (purlinGroup { world with usec := n + 2 } 0).2 = false := by
  have h (n : Nat) : purlinPos { world with usec := n } 0 = (Config.purlinPhase 0 + 10 * n) % 640 := by
    simp [purlinPos, tenths, world]
  refine ⟨4 - Config.purlinPhase 0 / 10 % 4, ?_, ?_⟩
  · unfold purlinGroup
    rw [h, if_pos (by omega)]
  · unfold purlinGroup
    rw [h, if_neg (by omega)]

/-! ## Copy processors -/

/-- A complete start whose record, the eighteen words at the bottom of the buffer, has been read, or is still to be; one whose
record is not aligned. -/
def start0 : Start := { ctx := 5, coh := none, joined := [(1, 0xFF00000000000000)], complete := true }
def beginWorld (l : List Start) : State := { packWorld with cores := [(3, { xp0 := { starts := l } })] }
def beginAgent : Agent := { core := 3, ctx := 5, gk := none, ref := none }

theorem witness_CopyProcessorsGoOn_begin : let st := { start0 with words := List.replicate 18 7 }
    (xpOf (beginWorld [st, st]) 3 0).state = .idle ∧ (xpOf (beginWorld [st, st]) 3 0).starts = [st, st] ∧
    (∀ y ∈ [st, st], y.complete = true ∧ y.unread = false) ∧ st.words ≠ [] ∧ st.bad = none ∧ start0.unread = true ∧
    engineList (updXp 3 0 (fun x => x) (beginWorld [start0])) beginAgent (startAddrs start0.joined) =
      (List.replicate 16 0 ++ [32, 0], none) := by decide

theorem witness_CopyProcessorsGoOn_bad : let st := { start0 with bad := some (0x07, 0xFF00000000000004) }
    (xpOf (beginWorld [st]) 3 0).state = .idle ∧ (xpOf (beginWorld [st]) 3 0).starts = [st] ∧
    (∀ y ∈ [st], y.complete = true ∧ y.unread = false) ∧ st.bad = some (0x07, 0xFF00000000000004) := by decide

/-- Command 9 of a kind, with its words. -/
def cmd9 (k : XKind) (ws : List XWord) : XCmd := { id := 9, kind := k, fpc := 40, bar := none, words := ws }
def constWord (addr : Dword) : XWord := ⟨0, addr, [some (.const 1), some (.const 2), some (.const 3), some (.const 4)], none⟩
def addWord : XWord := ⟨0, 0x20000, [none, none, none, none], some 0x3F800000⟩
def landWorld (c : XCmd) : State := { copyWorld { xp40 with cmds := [c] } with ctxs := [(5, some ctx5)] }

theorem witness_CopyProcessorsGoOn_write :
    (∀ addr ∈ [0xFF000000000003FC#64, 0x2FFFC#64], let c := cmd9 .move [constWord addr]
      xcmd (landWorld c) 3 0 9 = some c ∧ c.words[0]? = some (constWord addr) ∧
      ∀ i < 4, ∃ x, (constWord addr).bytes[i]? = some (some x) ∧
        xbyte (landWorld c) (xpAgent 3 0 (xpOf (landWorld (cmd9 .move [])) 3 0)) x = .byte (BitVec.ofNat 8 (i + 1))) ∧
    landSpot (landWorld (cmd9 .move [])) (xpAgent 3 0 (xpOf (landWorld (cmd9 .move [])) 3 0)) (cmd9 .move []) 0 0xFF000000000003FC 1 2 = .ok (.sp 3 1020) ∧
    landSpot (landWorld (cmd9 .move [])) (xpAgent 3 0 (xpOf (landWorld (cmd9 .move [])) 3 0)) (cmd9 .move []) 0 0x2FFFC 1 2 = .ok (.view 0x7FFFC) := by
  refine ⟨?_, by decide, by decide⟩
  intro addr ha
  have ha : addr = 0xFF000000000003FC ∨ addr = 0x2FFFC := by simpa using ha
  refine ⟨by rcases ha with h | h <;> subst h <;> decide, rfl, fun i hi => ?_⟩
  have : i = 0 ∨ i = 1 ∨ i = 2 ∨ i = 3 := by omega
  rcases this with h | h | h | h <;> subst h <;> exact ⟨_, rfl, rfl⟩

theorem witness_CopyProcessorsGoOn_add : let c := cmd9 .moveA [addWord]
    xcmd (landWorld c) 3 0 9 = some c ∧ c.words[0]? = some addWord ∧ addWord.add = some 0x3F800000 ∧
    landSpot (landWorld c) (xpAgent 3 0 (xpOf (landWorld (cmd9 .move [])) 3 0)) c 0 0x20000 4 8 = .ok (.view 0x70000) := by decide

theorem witness_CopyProcessorsGoOn_complete : let c := cmd9 .movePk []
    xcmd (landWorld c) 3 0 9 = some c ∧ c.words = [] ∧ c.lines = [] ∧ (∀ h ∈ (landWorld c).homeq, h.xp ≠ some (3, 0, 9)) ∧
    (∀ w ∈ (landWorld c).pubs, w.xp ≠ some (3, 0, 9)) ∧ (xpOf (landWorld c) 3 0).cmds = [c] := by decide

theorem witness_CopyProcessorsGoOn_publish : let c := { cmd9 .vpub [] with lines := [0x800], version := 4 }
    let s := { landWorld c with ctxs := [(5, some { verCtx with lines := [(0x800, { line3 with staged := some (4, []) })] })] }
    xcmd s 3 0 9 = some c ∧ c.kind = .vpub ∧ c.words = [] ∧ c.lines ≠ [] ∧ c.lines.Nodup ∧ c.bar = none ∧
    (ctx? s (xpOf s 3 0).ctx).isSome = true := by decide

/-- A follow slot whose command is complete, at an engine of the context. -/
def followWorld (h0 : Nat) : State :=
  { copyWorld { xp40 with follows := [⟨9, 126, 123, h0, true, 39⟩] } with
    cc := [(5123, { descs := [(123, desc123), (126, dense126)] })]
    cores := [(3, { xp0 := { xp40 with follows := [⟨9, 126, 123, h0, true, 39⟩] }, matrix := { owner := some 5 } })] }
theorem witness_CopyProcessorsGoOn_follow :
    (xpOf (followWorld 254) 3 0).follows[0]? = some ⟨9, 126, 123, 254, true, 39⟩ ∧
    (∀ c ∈ (xpOf (followWorld 254) 3 0).cmds, c.id ≠ 9) ∧ 254 + dExt (descOf (followWorld 254) 5 3 123) 1 ≤ 256 ∧
    dValid (descOf (followWorld 254) 5 3 126) = true ∧ dValid (descOf (followWorld 254) 5 3 123) = true ∧
    pairOk (dFormats (descOf (followWorld 254) 5 3 126)) (dFormats (descOf (followWorld 254) 5 3 123)) = true ∧
    (matrixOf (followWorld 254) 3).owner = some 5 ∧ (matrixOf (followWorld 254) 3).fault = false ∧
    (matrixOf (followWorld 254) 3).queue.length < 64 ∧ 255 + dExt (descOf (followWorld 255) 5 3 123) 1 > 256 := by decide

theorem witness_CopyProcessorsGoOn_bound :
    let x := { xp40 with state := .wait, wait := some ⟨.bar (barKey 5 3 255) 65535, 3⟩ }
    let s := { copyWorld x with bars := [(barKey 5 3 255, bar 0 2)] }
    (xpOf s 3 0).state = .wait ∧ (xpOf s 3 0).wait = some ⟨.bar (barKey 5 3 255) 65535, 3⟩ ∧
    (ctxD s (xpOf s 3 0).ctx).waitBound.toNat % 0x10000 ≠ 0 ∧ ¬ phaseOver (barOf s (barKey 5 3 255)).phase 65535 ∧
    (barOf s (barKey 5 3 255)).poison = false :=
  ⟨by decide, by decide, by decide, by unfold phaseOver; decide, by decide⟩

/-! ## The matrix engine -/

def mcmd (op : MOp) : MCmd :=
  { id := 70, op := op, opcode := 0, gk := none, unit := none, xp := none, pc := 0, scode := false, lanes := [] }
def engineWorld (m : Matrix) : State := { world with cores := [(3, { matrix := m })] }

theorem all_elements {α : Type} (f : α → Except MStop Nat) (b : Nat) (l : List α) (h : ∀ x ∈ l, f x = .ok b) :
    mapStop f l = .ok (l.map fun _ => b) := by
  induction l with
  | nil => rfl
  | cons x l ih =>
    have := ih fun y hy => h y (List.mem_cons_of_mem _ hy)
    simp [mapStop, h x List.mem_cons_self, this]

theorem plane_of (s : State) (a : Agent) (d : Desc) (k0 n0 : Nat)
    (h : ∀ c n, tensorElem s a d (at5 (k0 + c) n) = .ok 0) (h2 : ∀ c, tensorScale s a d c = .ok 0) :
    ∃ q, readPlane s a d k0 n0 = .ok q := by
  unfold readPlane
  rw [all_elements _ 0 _ (fun i _ => h _ _), all_elements _ 0 _ (fun i _ => h2 _)]
  exact ⟨_, rfl⟩

/-- The plane asked for lies wholly outside the tensor's extents: every element is FILL. -/
theorem witness_MatrixEngineGoesOn_load (s : State) (a : Agent) : ∃ q, readPlane s a dense126 32 0 = .ok q := by
  refine plane_of s a _ _ _ (fun c n => ?_) (fun _ => rfl)
  have hi : inside dense126 (at5 (32 + c) n) = false := by
    have : ¬ (0 ≤ ((32 + c : Nat) : Int) ∧ ((32 + c : Nat) : Int) < 32) := by omega
    simp only [inside, List.range, List.range.loop, List.all_cons, at5, List.getD_cons_zero]
    simp only [show dExt dense126 0 = 32 from rfl]
    rw [decide_eq_false (by exact_mod_cast this)]
    rfl
  unfold tensorElem
  simp only [hi]
  rfl

theorem witness_MatrixEngineGoesOn_commands (op : MOp) : let m : Matrix := { owner := some 5, queue := [mcmd op] }
    (matrixOf (engineWorld m) 3).queue = mcmd op :: [] ∧ (matrixOf (engineWorld m) 3).rel = false ∧
    (matrixOf (engineWorld m) 3).poison = [] ∧ (engineWorld m).shadow = [] ∧ (xpOf (engineWorld m) 3 1).state ≠ .fault ∧
    (xpOf (engineWorld m) 3 1).port.length < 2 :=
  ⟨rfl, rfl, rfl, rfl, by show XpState.idle ≠ .fault; decide, by show ([] : List Tile).length < 2; decide⟩

/-- A drain to processor 1 is held since power-up. -/
def heldDrain : Matrix := { owner := some 5, queue := [mcmd (.drainPort 5 0 1 1)], held := some 0 }
def fullWorld (n : Nat) : State :=
  { world with cores := [(3, { matrix := heldDrain, xp1 := { port := List.replicate n tile0 } })] }
theorem witness_MatrixEngineGoesOn_bound (n : Fin 3) : let s := fullWorld n
    (matrixOf s 3).queue = mcmd (.drainPort 5 0 1 1) :: [] ∧ (matrixOf s 3).held = some 0 ∧ (matrixOf s 3).rel = false ∧
    (ctxD s ((matrixOf s 3).owner.getD 0)).waitBound.toNat / 0x10000 ≠ 0 ∧ (xpOf s 3 1).state ≠ .fault ∧
    (xpOf s 3 1).port.length = n := by
  revert n
  decide

/-- The owner's last command is an MTILE at row 32 of its first step; or the queue holds another that has not begun. -/
def tiled (op : MOp) (run : Option (Nat × Nat)) : Matrix := { owner := some 6, queue := [mcmd op], run := run }
theorem witness_MatrixEngineGoesOn_save : let s := engineWorld { owner := some 6, acc := [(0, 1)] }
    (matrixOf s 3).owner = some 6 ∧ residents s 3 = [(1, gang1)] ∧ gang1.ctx ≠ 6 ∧ (matrixOf s 3).queue = [] ∧
    (tiled (.mtile dense126 dense126 0 64 1 false none) (some (0, 33))).run = some (0, 32 + 1) ∧ (0 * 64 + 32) % 32 = 0 ∧
    (tiled .mswap none).queue ≠ [] ∧ (tiled .mswap none).run = none := by decide

theorem witness_MatrixEngineGoesOn_restore :
    let s := { world with cores := [(3, { saved := [(5, some { owner := some 5, acc := [(0, 1)] })] })] }
    (matrixOf s 3).owner = none ∧ restorable s 3 = some (5, { owner := some 5, acc := [(0, 1)] }) := by decide

end Sys2Proof.Tests
end

