-- ==== Sys2Proof/Tests/Witness6.lean ====
section
/-!
SUPPORT. Witnesses for the statements about bounds, the ready pool, eviction, buffers, quiesces, hosts, loading
and the controller.
-/
namespace Sys2Proof.Tests
open Sys2Proof.Machine Sys2Proof.Claims

/-! ## Bounds and late causes -/

/-- The key of cohort 15 of core 3. -/
def cohKey15 : Nat := 5 * 65536 + 3 * 32 + 15
/-- The group waits; line 0x800 is staged, line 0x840 is not. -/
def held (on : WaitOn) : State :=
  { withGang (fun g => { g with groups := [(0, some { grp0 with wait := some ⟨on, 3⟩ })] }) with
    cohs := [(cohKey15, { phase := .forming, expect := 2, joiners := [(1, 0)] })], bars := [(barKey 5 3 255, bar 0 2)]
    ctxs := [(5, some { verCtx with lines := [(0x800, { line3 with staged := some (4, []) })] })] }
def isHeld (on : WaitOn) : Bool :=
  decide (Machine.viewOf (held on) (.grp 1 0) = some view1) && decide (waitOf (held on) view1 = some ⟨on, 3⟩)

theorem witness_BoundsAndLateCauses_waits :
    (∀ on ∈ [WaitOn.cohort cohKey15, .bar (barKey 5 3 255) 65535, .tl 15 1, .version [(0, 0x20000, 4)] [], .staged 0x800, .staged 0x840, .yield 16],
      isHeld on = true) ∧ view1.region = none ∧
    (1, 0) ∈ (cohOf (held (.cohort cohKey15)) cohKey15).joiners ∧
    (ctxD (held (.yield 16)) 5).waitBound.toNat % 0x10000 ≠ 0 ∧ (ctxD (held (.yield 16)) 5).waitBound.toNat / 0x10000 ≠ 0 ∧
    ¬ phaseOver (barOf (held (.yield 16)) (barKey 5 3 255)).phase 65535 ∧
    (barOf (held (.yield 16)) (barKey 5 3 255)).poison = false ∧ (tlOf (held (.yield 16)) 5 15).toNat < (1#64).toNat := by
  refine ⟨?_, rfl, by decide, by decide, by decide, by unfold phaseOver; decide, by decide, by decide⟩
  intro on h
  simp only [List.mem_cons, List.not_mem_nil, or_false] at h
  obtain rfl | rfl | rfl | rfl | rfl | rfl | rfl := h <;> decide

theorem witness_BoundsAndLateCauses_versions :
    (∃ e ∈ [(0, 0x20000, (4 : Word))], regionBound (held (.version [(0, 0x20000, 4)] [])) 5 e.2.1 = region0.wait) ∧ region0.wait ≠ 0 ∧
    isStaged (held (.staged 0x800)) 5 0x800 = true ∧ regionBound (held (.staged 0x800)) 5 (0x800 * 64) ≠ 0 ∧
    isStaged (held (.staged 0x840)) 5 0x840 = false ∧
    16 ≤ ({ held (.yield 16) with clk := 16 }).clk ∧ (held (.yield 16)).clk < 16 ∧
    Machine.viewOf { held (.yield 16) with clk := 16 } (.grp 1 0) = some view1 ∧
    waitOf { held (.yield 16) with clk := 16 } view1 = some ⟨.yield 16, 3⟩ := by decide

theorem witness_BoundsAndLateCauses_hold : ∀ c ∈ [38, 39],
    let s := { world with cores := [(3, { holds := [(2, some (.grp 1 0, 7, 5))] })], clk := c }
    Machine.viewOf s (.grp 1 0) = some view1 ∧ holdOf s view1.core (.grp 1 0) .gang = some (2, 7, 5) ∧
    (min (7 + 32) (5 + 64) ≤ s.clk ↔ c = 39) := by
  intro c h
  simp only [List.mem_cons, List.not_mem_nil, or_false] at h
  obtain rfl | rfl := h <;> exact ⟨by decide, by decide, by decide⟩

/-- The gang has two pending causes, and a handler waits for a register set. -/
def pend (code : Nat) (defer : Bool) : Pending :=
  { cause := { code := code }, lanes := [0], pc := 15, scode := false, group := some 0, defer := defer }
def pendGang (defer : Bool) : Gang := { gang1 with pending := [pend 0x0B true, pend 0x0A defer] }
def pendWorld (defer : Bool) : State := { world with gangs := [(1, some (pendGang defer))], insts := [(7, some (inst7 .detached))] }

theorem witness_BoundsAndLateCauses_late : ∀ d, let g := pendGang d
    LiveGang (pendWorld d) 1 g ∧ g.region = none ∧ g.place = .resident ∧ g.dead = false ∧
    pend 0x0A d ∈ g.pending ∧ (∀ q ∈ g.pending, q = pend 0x0A d ∨ (pend 0x0A d).cause.code < q.cause.code) ∧
    group? g 0 = some grp0 ∧ isStopped g 0 = false ∧ grp0.wait = none ∧ sentries g.groups = [(0, grp0)] ∧
    inTurn (pendWorld d) g = true := by
  intro d
  cases d <;> exact ⟨⟨rfl, by decide⟩, rfl, rfl, rfl, by decide, by decide, rfl, by decide, rfl, rfl, rfl⟩

theorem witness_BoundsAndLateCauses_watchdog : LiveGang world 1 gang1 ∧ gang1.region = none ∧ sentries gang1.groups = [(0, grp0)] ∧
    isStopped gang1 0 = false ∧ gang1.place = .resident ∧ gang1.dead = false ∧ (ctxD world gang1.ctx).faulted = false ∧
    watchdogServed world 1 = false ∧ (ctxD world gang1.ctx).runBound ≠ 0 :=
  ⟨⟨rfl, by decide⟩, rfl, rfl, by decide, rfl, rfl, rfl, rfl, by decide⟩

theorem witness_BoundsAndLateCauses_set : freeSet (pendWorld true) 3 = some 0 ∧
    ((7, inst7 .detached) ∈ sentries (pendWorld true).insts ∧ (inst7 .detached).core = 3 ∧ (inst7 .detached).set = none) := by decide

/-! ## Pool and evictions -/

/-- A node of eight threads in two batches of four, ready at die 0. -/
def node0 (phase : NodePhase) (done : Word) : Node :=
  { ctx := 5, id := 1, die := 0, rcd := [0x20000, 0, 7, 9, 8, 4, 0, 0, 0, 0, 0, 0, done, 0, 77], phase := phase, bucket := none, entry := 64
    n := 8, b := 4, c := 1, lregs := 60, legacy := false, hinted := false, preds := [], opds := [], order := 1, total := 2 }
def poolWorld (n : Node) : State := { memWorld with pool := [(2, some n)] }

theorem witness_PoolAndEvictions_admit : let n := node0 .ready 0
    sget none (poolWorld n).pool 2 = some n ∧ mayAdmit (poolWorld n) 2 n (dieNo 3) = true ∧ placementOk (poolWorld n) 2 n [3] = true ∧
    betterFits (poolWorld n) 2 n (dieNo 3) = false ∧ rTdCount n.rcd = 0 ∧ n.legacy = false ∧ 32 * 0 < batchThreads n 0 := by decide

theorem witness_PoolAndEvictions_skip : let n := { node0 .ready 0 with skippedSince := some 5 }
    sget none (poolWorld n).pool 2 = some n ∧ n.skippedSince = some 5 ∧ pendingUnit n = true := by decide

theorem witness_PoolAndEvictions_complete : let n := node0 .draining 0x20000
    sget none (poolWorld n).pool 2 = some n ∧ n.phase = .draining ∧ nodeBusy (poolWorld n) 2 n = false ∧ rPair n.rcd 12 ≠ 0 ∧
    (rPair n.rcd 12).toNat < 2 ^ 56 ∧ (∀ e ∈ n.refused, e.1 ≠ 128) ∧ 0x70000 + 4 ≤ 2 ^ 52 ∧
    resolve (poolWorld n) (dispatchAgent n) .plain 0 (rPair n.rcd 12) 4 2 = .ok (.view 0x70000) ∧
    nodeBusy (poolWorld (node0 .draining 0)) 2 (node0 .draining 0) = false ∧ rPair (node0 .draining 0).rcd 12 = 0 := by decide

/-- A load that waits for its page stands in the queue of gang 1, which is being saved. -/
def savingGang : Gang := { gang1 with place := .saving 4 }
theorem witness_PoolAndEvictions_save : let s := { withGang (fun _ => savingGang) with queue := [{ entryQ version4 with held := true }] }
    gang? s 1 = some savingGang ∧ savingGang.place = .saving 4 ∧ queuesStand s 1 = true ∧ savingGang.swapFor ≠ some 1 := by decide

/-- Gang 1 is evicted; gang 4 is resident. -/
def outGang : Gang := { gang1 with place := .evicted 4 6 }
def inGang : Gang := { gang1 with admitted := 8, idle := false }
def swapWorld : State := { world with gangs := [(1, some outGang), (4, some inGang)], usec := 100 }

theorem witness_PoolAndEvictions_readmit : let s := withGang fun _ => outGang
    gang? s 1 = some outGang ∧ outGang.place = .evicted 4 6 ∧ outGang.legacy = false ∧
    (coreOf s 3).fenced = false ∧ freeSlots s 3 = 0 :: (freeSlots s 3).tail ∧ claimedAbove s 3 outGang.prio = false ∧
    ∀ e ∈ evictedOn s 3, e.1 ≠ 1 → readmitBefore s e.2 outGang = false := by decide

theorem witness_PoolAndEvictions_swap :
    oldestEvicted swapWorld 5 3 = some (1, outGang) ∧ gang? swapWorld 1 = some outGang ∧ gang? swapWorld 4 = some inGang ∧
    inGang.place = .resident ∧ outGang.place = .evicted 4 6 ∧ (coreOf swapWorld 3).fenced = false ∧ swapping swapWorld 5 3 = false ∧
    (ctxD swapWorld 5).readmit = 64 ∧ (swapVictim (usecTo (6 + 64 + 1) swapWorld) 5 3 64).map Prod.fst = some 4 := by decide

/-- The save of the gang that the swap has chosen. -/
def goingGang : Gang := { inGang with place := .saving 10, swapFor := some 1 }
theorem witness_PoolAndEvictions_swapped : let s := { world with gangs := [(1, some outGang), (4, some goingGang)] }
    gang? s 4 = some goingGang ∧ goingGang.place = .saving 10 ∧ queuesStand s 4 = true ∧ goingGang.swapFor = some 1 ∧
    gang? s 1 = some outGang ∧ outGang.core = goingGang.core ∧ outGang.place = .evicted 4 6 ∧ outGang.legacy = false ∧
    goingGang.slot < 32 ∧ ∀ e ∈ gangsOn s goingGang.core, e.1 ≠ 4 → e.2.slot ≠ goingGang.slot ∧ e.2.place ≠ .saving 10 := by decide

/-! ## Buffers and quiesces -/

/-- Buffer 0 of core 3 as a tag; its context's gangs are resident, or not. -/
def tagWorld (t : Tag) (gs : Sparse (Option Gang)) : State :=
  { memWorld with cc := [(5123, { tags := [(0, t)] })], gangs := gs
                  ctxs := [(5, some { ctx5 with stackBase := 0x00FFFFFFFFBA0000, stackSize := 0 })] }

theorem witness_BuffersAndQuiesces_sweep : let t := { tag4 with kept := true }
    tagOf (tagWorld t []) 5 3 0 = t ∧ t.live = true ∧ t.rewrite = none ∧ residentHere (tagWorld t []) 5 3 = false ∧
    (∀ e ∈ (tagWorld t []).cc, e.1 % 1024 = 3 → ∀ x ∈ e.2.tags, x.2.kept = true → x.2.rewrite = none) ∧
    (∀ x ∈ (ccOf (tagWorld t []) 5 3).tags, x.2.kept = true → x.1 = 0) := by decide

theorem witness_BuffersAndQuiesces_expiry : let s := tagWorld tag4 []
    (tagOf s 5 3 0).live = true ∧ (tagOf s 5 3 0).saved = false ∧ (tagOf s 5 3 0).kept = false ∧ (tagOf s 5 3 0).expiry < 2 ^ 32 ∧ s.ctl.resetAt ≤ s.usec ∧
    (let s2 := tagWorld { tag4 with rewrite := some true } []
     (tagOf s2 5 3 0).live = true ∧ (tagOf s2 5 3 0).rewrite ≠ none ∧ (tagOf s2 5 3 0).more = []) := by decide

theorem witness_BuffersAndQuiesces_restore : let t := { tag4 with saved := true, wanted := true }
    let s := tagWorld t [(1, some { gang1 with evictions := 1 })]
    tagOf s 5 3 0 = t ∧ t.live = true ∧ t.todo = [] ∧ t.restoring = none ∧ 0 < t.size ∧ saveVa s 5 3 t.base = 0x20000 ∧
    (∀ i < t.size, saveVa s 5 3 (t.base + i) = 0x20000 + i) ∧ 0x20000 % 0x10000 + t.size ≤ 0x10000 ∧
    regionAt s 5 (0x20000 / 0x10000 * 0x10000) = none ∧ translate s (dieNo 3) 5 (0x20000 / 0x10000 * 0x10000) 2 = some 0x70000 ∧
    ∀ i < t.size, isBad s (viewLoc (dieNo 3) (0x70000 + (0x20000 + i) % 0x10000)) 1 = false := by
  refine ⟨by decide, rfl, rfl, rfl, by decide, by decide, fun i hi => ?_, by decide, by decide, by decide, fun i _ => ?_⟩
  · have hi : i < 1024 := hi
    change (0x00FFFFFFFFBA0000 + 0x100000 * 0 + 3 * 0x180000 + (0 + i)) % 0x100000000000000 = 0x20000 + i
    omega
  · unfold isBad
    have : (tagWorld { tag4 with saved := true, wanted := true } [(1, some { gang1 with evictions := 1 })]).bad = [] := rfl
    simp only [this]
    exact List.any_eq_false.mpr fun x _ => by simp [sget]

theorem witness_BuffersAndQuiesces_restored : let t := { tag4 with saved := true, restoring := some 9 }
    tagOf (tagWorld t []) 5 3 0 = t ∧ t.live = true ∧ t.todo = [] := by decide

def quiescing (st : Nat) : State := withCtx (fun c => { c with qState := st }) world
theorem witness_BuffersAndQuiesces_quiesce :
    (ctxD (quiescing 0) 5).qState ≠ 1 ∧ (ctxD (quiescing 2) 5).qState = 2 ∧ (ctxD (quiescing 1) 5).qState = 1 ∧
    (ctxD (quiescing 1) 5).qBound ≠ 0 ∧ gangsOf (quiescing 1) 5 ≠ [] ∧
    (∀ e ∈ gangsOf (quiescing 1) 5, gangStopped (quiescing 1) e.1 e.2 = true ∧ e.2.stepCount.toNat = 0) ∧
    enginesIdle (quiescing 1) 5 = true := by decide

/-! ## Hosts -/

/-- Session 3 is bound to context 5, which holds Eaves page 15; pages 2 of it are mapped with A and D set. -/
def hdr (ctx : Nat) : Hdr := { ses := 3, die := 0, ctx := ctx, tag := 99 }
def hostCtx : Context :=
  { ctx5 with eaves := 0x8000, objs := [{ launchObj with handle := 1 }]
              serving := [{ name := [65], handle := 1, sym := ⟨[65], 0, true, true, 0x20100⟩ }]
              groups := [(15, (0, [(0, true), (1, true)]))] }
def hostWorld : State :=
  { world with mem := tables 0xCF, ctxs := [(5, some hostCtx)], sessions := [(3, some { ctx := 5 })]
               ctl := { up := true, nextCtx := 6 } }
theorem commands : Commands hostWorld (hdr 5) hostCtx := ⟨rfl, rfl, by decide, rfl⟩

/-- The kernel header of the launch record lies at its place. -/
def submitWorld : State := { hostWorld with mem := tables 0xCF ++ [(0x70008, 60)] }
theorem witness_HostCommands_submit : Commands submitWorld (hdr 5) hostCtx ∧ (launchWords 8).length = 48 ∧
    ∃ n, checkRecord submitWorld (hostReader submitWorld 0 5) 5 0 [] (launchWords 8) = .ok n ∧ n.ctx = 5 :=
  ⟨⟨rfl, rfl, by decide, rfl⟩, by decide, _, rfl, rfl⟩

/-- A place in an Eaves window. -/
def inEaves (r : HostSpot) (d off : Nat) : Bool :=
  match r with
  | .eaves x y => x = d && y = off
  | _ => false
theorem in_eaves {r : HostSpot} {d off : Nat} (h : inEaves r d off = true) : r = .eaves d off := by
  cases r with
  | eaves x y => simp [inEaves] at h; rw [h.1, h.2]
  | _ => cases h

theorem witness_HostCommands_eaves :
    inEaves (hostSpot hostWorld 5 0xFF0300000000F000 4096 true) 0 0xF000 = true ∧
    inEaves (hostSpot hostWorld 5 0xFF0300000007FFFF 1 false) 7 0xFFFF = true ∧ isBad hostWorld (eavesLoc 7 0xFFFF) 1 = false ∧
    hostWorld.hostWaits = [] ∧ ∀ p ∈ hostWorld.pubs, p.msg = none :=
  ⟨by decide, by decide, by decide, rfl, by decide⟩

theorem marked : MarkedLeaf hostWorld 0 5 0x2FFFC 0x7FFFC :=
  ⟨0x70000, true, true, false, true, 0xC010, 0x700CF, false, by decide, by decide, by decide, by decide⟩

theorem witness_HostCommands_window : (0x2FFFC#64).toNat % 0x10000 + 4 ≤ 0x10000 ∧ (0x2FFFC#64).toNat + 4 ≤ 2 ^ 56 ∧
    touchesRegion hostWorld 5 0x2FFFC 4 = false ∧ MarkedLeaf hostWorld 0 5 0x2FFFC 0x7FFFC ∧ 0x7FFFC + 4 ≤ 2 ^ 52 ∧
    (∀ i < 4, regionAt hostWorld 5 (0x2FFFC + i) = none) ∧ ∀ i < 4, isBad hostWorld (viewLoc 0 (0x7FFFC + i)) 1 = false :=
  ⟨by decide, by decide, by decide, marked, by decide, by decide, by decide⟩

/-- A sum over group 15 of one word at 0x20000, to 0x2FFFC. -/
def collRec : List Word := [0x00FF0000, 0x20000, 0, 0x2FFFC, 0, 1, 5, 0]
def collWorld : State := { hostWorld with dies := [(0, { colls := [⟨5, 3, 99, collRec, false⟩] })] }
theorem witness_HostCommands_collective : collOk collRec = true ∧
    (dieOf collWorld 0).colls = ⟨5, 3, 99, collRec, false⟩ :: [] ∧ collCount collRec = 1 ∧ collGroup collRec = 15 ∧
    peersOk (groupOf collWorld 5 15).2 1 [(1, [7])] = true ∧ hostReader collWorld 0 5 1 (rPair collRec 1) = .ok [0] ∧
    regionAt collWorld 5 (rPair collRec 3).toNat = none ∧ (rPair collRec 3).toNat = 0x2FFFC ∧ 0x2FFFC % 4 = 0 ∧
    (rPair collRec 1).toNat + 4 ≤ 2 ^ 56 ∧
    MarkedLeaf collWorld 0 5 0x2FFFC 0x7FFFC ∧
    [(0, [0]), (1, [7])].Perm ((((groupOf collWorld 5 15).2.headD (0, true)).1, [0]) :: [(1, [7])]) ∧
    [(0, [0]), (1, [7])].Pairwise (fun a b => a.1 < b.1) :=
  ⟨by decide, by decide, by decide, by decide, by decide, rfl, by decide, by decide, by decide, by decide,
    ⟨0x70000, true, true, false, true, 0xC010, 0x700CF, false, by decide, by decide, by decide, by decide⟩, .refl _, by decide⟩

theorem witness_HostCommands_member : HasContext hostWorld 5 hostCtx ∧ (1, false) ∉ (groupOf hostWorld 5 15).2 ∧
    ((groupOf hostWorld 5 15).2.headD (0, true)).1 ≠ 1 := by
  refine ⟨rfl, ?_⟩
  decide

/-- A header with a reserved bit, one with no command's number, one with another length, and one that fits. -/
theorem witness_HostCommands_malformed : hostWorld.ctl.off = false ∧ Malformed [0x02080063, 0, 0] 0 ∧ Malformed [0x08000063, 0, 0] 0 ∧
    Malformed [0x02000063, 0, 4] 0 ∧ ¬ Malformed [0x02000063, 0, 4] 4 := by
  unfold Malformed
  decide

/-! ## Loading and contexts -/

/-- The smallest object: its header alone. -/
def emptyObject : List Byte := [0x4F43584A, 1, 0, 0, 0, 0, 0, 0, 0, 0, 0, 0, 0, 0, 0, 64].flatMap fun w => natLe 4 w
def loadedOk (r : Loaded) : Nat :=
  match r with
  | .ok x => 100 + x.2.1
  | .error e => e.1
def cleared (s : State) : State := setSession 3 (fun y => { y with load := [], holding := none }) s

theorem witness_LoadingAndContexts_load :
    Commands hostWorld (hdr 5) hostCtx ∧ mgmtBusy hostWorld 5 = false ∧ emptyObject.length < 2 ^ 31 ∧
    loadedOk (loadObject 5 (some hostWorld.next) emptyObject (taken (cleared hostWorld))) = 101 ∧
    loadedOk (loadObject 5 (some hostWorld.next) [1] (taken (cleared hostWorld))) = 16 ∧
    spansBusy hostWorld 5 emptyObject = false ∧ spansBusy hostWorld 5 [1] = false :=
  ⟨commands, by decide, by decide, by decide +kernel, by decide +kernel, by decide +kernel, by decide +kernel⟩

/-- First pieces, last or not, and one that goes on where the one before ended; and one that does not. -/
theorem witness_LoadingAndContexts_pieces :
    PieceOf hostWorld 3 0x10 0 [1] [1] ∧ PieceOf hostWorld 3 0x11 0x80000000 emptyObject emptyObject ∧
    (let s := setSession 3 (fun y => { y with load := [1, 2], holding := some 0x10 }) hostWorld
     PieceOf s 3 0x10 2 [3] [1, 2, 3] ∧ ∀ whole, ¬ PieceOf s 3 0x10 3 [3] whole) := by
  refine ⟨.inl (by decide), .inl (by decide), .inr (by decide), fun whole h => ?_⟩
  rcases h with h | h
  · exact absurd h.1 (by decide)
  · exact absurd h.2.2.1 (by decide)

/-- An object without regions waits for no write. -/
theorem not_busy {s : State} {ctx : Nat} {bs : List Byte} (h : (objHdr bs).nreg = 0) : spansBusy s ctx bs = false := by
  simp [spansBusy, h]

/-- The Flashing cache holds a committed object for a module. -/
def flashWorld (bs : List Byte) : State :=
  { hostWorld with ctl := { hostWorld.ctl with flashing :=
      [{ digest := sha256 bs, version := Config.translatorVersion, stepping := Config.stepping, bytes := emptyObject, committed := true }] } }
theorem witness_LoadingAndContexts_cache (bs : List Byte) :
    flashOf (flashWorld bs) (sha256 bs) = some
      { digest := sha256 bs, version := Config.translatorVersion, stepping := Config.stepping, bytes := emptyObject, committed := true } ∧
    flashOf hostWorld (sha256 bs) = none ∧ parberBad [1] ≠ 0 ∧ spansBusy (flashWorld bs) 5 emptyObject = false :=
  ⟨by simp [flashOf, flashKey, flashWorld], rfl, by decide, not_busy (by decide +kernel)⟩

theorem witness_LoadingAndContexts_names :
    (∀ o ∈ hostCtx.objs, o.handle ≠ (2#32).toNat) ∧ hostCtx.objs.find? (fun o => o.handle = (1#32).toNat) = some launchObj ∧
    unloadRefused hostWorld 5 launchObj = false ∧ (∃ s1, unsealAll 5 launchObj.images hostWorld = .ok s1 ∧
      ∃ s2, releaseAllRegions 5 launchObj.regions s1 = .ok s2) ∧
    hostCtx.serving.find? (fun d => d.name = [65]) = some { name := [65], handle := 1, sym := ⟨[65], 0, true, true, 0x20100⟩ } ∧
    handlerEntry hostWorld 5 { name := [65], handle := 1, sym := ⟨[65], 0, true, true, 0x20100⟩ } = some 0x8040 ∧
    (List.replicate 32 (0 : Byte)).length = 32 :=
  ⟨by decide, by decide, by decide, ⟨_, rfl, _, rfl⟩, by decide, rfl, by decide⟩

/-- A session without a context. -/
def freshWorld (psk : List Byte) : State :=
  { hostWorld with sessions := [], ctl := { hostWorld.ctl with mgmtKeys := [sha256 psk] } }
theorem witness_LoadingAndContexts_open (psk : List Byte) :
    (freshWorld psk).ctl.off = false ∧ (freshWorld psk).ctl.up = true ∧ (sessionOf (freshWorld psk) 3).ctx = 0 ∧
    (0x7FFF#32).toNat < 0x10000 ∧ (freshWorld psk).ctl.lifecycle = 2 ∧ heapFits (freshWorld psk) 1048576 = true ∧
    (freshWorld psk).ctl.nextCtx ≤ 0xFFFF ∧
    (∀ e ∈ sentries (freshWorld psk).ctxs, e.2.eaves &&& (0x7FFF#32).setWidth 16 = 0) ∧ sha256 psk ∈ (freshWorld psk).ctl.mgmtKeys :=
  ⟨rfl, rfl, rfl, by decide, rfl, by change heapFits hostWorld 1048576 = true; decide, by change (6 : Nat) ≤ _; decide,
    by change ∀ e ∈ sentries hostWorld.ctxs, _; decide, List.mem_singleton_self _⟩

theorem witness_LoadingAndContexts_end : Commands hostWorld (hdr 5) hostCtx ∧ (hdr 5).ctx ≠ 1 ∧ hostWorld.ctl.up = true ∧
    hostCtx.eaves.getLsbD 15 = true := ⟨commands, by decide, rfl, by decide⟩

/-! ## The controller -/

/-- Firmware has yet to come. -/
def blank : State := { State.reset with ctl := { fwNext := 4, fw := [1, 2, 3, 4] } }
/-- Whether an image passes is the image layout's affair (`Config`): where it does, the status is 0. -/
theorem witness_ControllerActs_firmware (bs : List Byte) (h : Config.fwHeaderOk (blank.ctl.fw ++ bs) = true)
    (h2 : Config.fwSigned (blank.ctl.fw ++ bs) = true)
    (h3 : ¬ (Config.fwVersion (blank.ctl.fw ++ bs)).toNat < Config.minSecurityVersion.toNat) :
    blank.ctl.off = false ∧ blank.ctl.up = false ∧ (hdr 0).ctx = 0 ∧ blank.ctl.fwBad = false ∧
    (0x80000004#32).toNat % 2 ^ 31 = blank.ctl.fwNext ∧ 2 ^ 31 ≤ (0x80000004#32).toNat ∧ (4#32).toNat < 2 ^ 31 ∧
    (4#32).toNat % 2 ^ 31 = blank.ctl.fwNext ∧ fwStatus blank false (blank.ctl.fw ++ bs) = 0 := by
  refine ⟨rfl, rfl, rfl, rfl, by decide, by decide, by decide, by decide, ?_⟩
  have hl : ¬ (blank.ctl.lifecycle = 0 ∨ blank.ctl.lifecycle = 4) := by decide
  unfold fwStatus
  rw [h, h2, if_neg (by decide), if_neg (by decide), if_neg h3, if_neg hl]

/-- A read gives these words. -/
def readsAs (r : Except RStop (List Word)) (ws : List Word) : Bool :=
  match r with
  | .ok x => x = ws
  | .error _ => false
theorem reads_as {r : Except RStop (List Word)} {ws : List Word} (h : readsAs r ws = true) : r = .ok ws := by
  cases r with
  | ok x => exact congrArg _ (of_decide_eq_true h)
  | error e => cases h

theorem witness_ControllerActs_security :
    HasContext manager 1 {} ∧ manager.ctl.secBusy = none ∧
    (let c : SecCmd := { op := 1, core := 3, ctx := 5, addr := 0x20000 }
     readsAs (hostReader hostWorld (dieNo c.core) c.ctx 128 c.addr) (List.replicate 128 0) = true ∧
     tokenStatus hostWorld (List.replicate 128 0) ≠ 0 ∧ c.worked = none ∧ { c with worked := some (9, 3, 5) }.worked = some (9, 3, 5)) :=
  ⟨rfl, rfl, by decide +kernel, by decide, rfl, rfl⟩

/-- An accepted token: fit words, a fit device and a verified signature. -/
theorem witness_ControllerActs_token (t : List Word) (h0 : rWord t 0 = 0x4B4C4E55) (h1 : rWord t 1 = 1)
    (hz : zeroWords t 5 31 = true) (hd : pair (rWord t 2) (rWord t 3) = Config.deviceId) (hl : rWord t 4 = 2)
    (hv : rsaVerify Config.authorityModulus.toNat Config.authorityExponent.toNat
      (sha256 ((t.take 32).flatMap fun w => natLe 4 w.toNat)) ((t.drop 32).flatMap fun w => natLe 4 w.toNat) = true) :
    tokenStatus hostWorld t = 0 := by
  have e : hostWorld.ctl.lifecycle = 2 := rfl
  have e2 : hostWorld.ctl.dbgu = false := rfl
  simp [tokenStatus, h0, h1, hz, hd, hl, hv, e, e2]

theorem witness_ControllerActs_power :
    ({ world with ctl := { off := true } } : State).ctl.off = true ∧ (world.cores.map Prod.fst).Nodup ∧ world.ctl.off = false ∧
    world.ctl.oppChanging = false ∧ world.ctl.opp < 2 ∧
    (({ world with ctl := { up := true, opp := 2, oppAbsent := some 5 } } : State).ctl.oppAbsent = some 5) ∧
    ({ world with ctl := { up := true, oppChanging := true } } : State).ctl.oppChanging = true := by decide

/-- The debug port is open in lifecycle state 1. -/
def openWorld : State := { world with ctl := { up := true, lifecycle := 1 } }
theorem witness_ControllerActs_debug : portOpen openWorld = true ∧ Machine.viewOf openWorld (.grp 1 0) = some view1 ∧
    debuggable openWorld view1 = true ∧ view1.region = none ∧ (1 : BitVec 3).toNat < 3 ∧ (2 : BitVec 3) = openWorld.ctl.lifecycle + 1 := by
  decide

theorem witness_ControllerActs_cores : world.ctl.up = true ∧ (1023 : Nat) < 1024 ∧ (3, 0x17FFFF).2 < 0x180000 ∧
    (coreOf world 3).noUndervolt = false ∧ (coreOf world 3).watch = none ∧
    (coreOf { world with cores := [(3, { watch := some 5 })] } 3).watch = some 5 ∧ ctx? world gang1.ctx ≠ none := by decide

end Sys2Proof.Tests
end

