-- ==== Sys2Proof/Tests/Witness7.lean ====
section
/-!
SUPPORT. Witnesses for the statements about encodings and whole steps.
-/
namespace Sys2Proof.Tests
open Sys2Proof.Machine Sys2Proof.Claims

theorem witness_EncodeThenDecode :
    (Instr.bfi .gang ⟨63, 63, 63, 3, false, 3⟩).wf = true ∧ (encode (.bfi .gang ⟨63, 63, 63, 3, false, 3⟩)).isSome = true ∧
    (Instr.xpLoopImm 0 2047 1023).wf = true ∧ (encode (.xpLoopImm 0 2047 1023)).isSome = true := by decide

theorem witness_DecodeThenEncode : decodeCompute 0b0_00000000_000001_000010_000011_00_0_00#32 = .ok (.iaddA .lane ⟨1, 2, 3, 0, false, 0⟩) :=
  rfl

/-- The group's next word, at byte 64 of the mapped page 0, is a NOP. -/
def nopWord : Word := (encode (.nop 0)).getD 0
def codeWorld : State :=
  { world with mem := cellsAt 64 [nopWord], agenda := [.issue 3 2]
               tlb := [{ die := 0, ctx := 5, page := 0, pa := 0, r := false, w := false, x := true, d := false }] }
def codeTurn : State := tick { codeWorld with agenda := [] }

theorem witness_StepRunsDecodedWord_fetch :
    Turn codeWorld (.unit 3 2) codeTurn ∧ choose codeTurn 3 2 = some (.grp 1 0) ∧ pendingFor codeTurn (.grp 1 0) = none ∧
    (let s1 := prepare 3 2 (.grp 1 0) codeTurn
     let u := (unitView s1).getD view1
     unitView s1 = some u ∧ u.region = none ∧
     vaCheck s1 (agentOf u) (4 * u.pc) 4 4 (BitVec.ofNat 64 (4 * u.pc)) false = .ok (.view 64) ∧
     decodeCompute (BitVec.ofNat 32 (leNat (spotBytes s1 u.core u.ctx none (.view 64) 4))) = .ok (.nop 0)) :=
  ⟨.issue 3 2 [] rfl, by decide, by decide, by decide, by decide, by decide, rfl⟩

/-- In state code, the state's first word is AUTO.STEP. -/
def stateWorld : State :=
  { autoWorld [] [] with agenda := [.issue 3 2], gangs := [(1, some { autoGang [] [] with groups := [(0, some { grp0 with pc := 3 })] })]
                         ctxs := [(5, some { ctx5 with images := [(0, some { image0 with code := [0, 0, 0, 0xE9000000] })] })] }
theorem witness_StepRunsDecodedWord_state :
    (let s0 := tick { stateWorld with agenda := [] }
     let s1 := prepare 3 2 (.grp 1 0) s0
     let u := (unitView s1).getD view1
     choose s0 3 2 = some (.grp 1 0) ∧ pendingFor s0 (.grp 1 0) = none ∧ unitView s1 = some u ∧
     u.region = some (region1 []) ∧ (imageOf s1 u.ctx 0).isSome = true ∧
     decodeCompute (((imageOf s1 u.ctx 0).getD image0).code.getD u.pc 0) = .ok .autoStep) :=
  ⟨by decide, by decide, by decide, by decide, by decide, rfl⟩

/-- A cached copy word NOP at word 40 of the program. -/
def xpNopWord : Word := (encode .xpNop).getD 0
def xpWorld : State :=
  { copyWorld { xp40 with cache := [(2, List.replicate 16 xpNopWord)] } with agenda := [.copy 3 0], cur := none }
theorem witness_StepRunsDecodedWord_copy :
    Turn xpWorld (.copy 3 0) (tick { xpWorld with agenda := [] }) ∧
    (let s0 := tick { xpWorld with agenda := [] }
     copyReady s0 3 0 = true ∧ ∃ line, xpFetch s0 3 0 (xpOf s0 3 0) = .word xpNopWord line) ∧ decodeXp xpNopWord = .ok .xpNop :=
  ⟨.copy 3 0 [] rfl, ⟨by decide, _, rfl⟩, rfl⟩

theorem witness_StepRunsDecodedWord_event :
    ({ world with agenda := [.event (.purlinRefreshStart 7)] } : State).agenda = .event (.purlinRefreshStart 7) :: [] ∧
    insideWord (.purlinRefreshStart 7) = false ∧ ∃ e s0, Turn { sb := [sb21] } (.ev e) s0 :=
  ⟨rfl, rfl, _, _, .default (.ev _) rfl rfl⟩

/-- The group's next word has gang-pipe opcode 0x40. -/
def badWord : Word := 0b1_01000000_000000_000000_000000_00_0_00#32
def badWorld : State := { codeWorld with mem := cellsAt 64 [badWord] }
theorem witness_UnassignedOpcodes :
    unitView badWorld = some view1 ∧ fetch badWorld view1 = .word badWord ∧
    decodeCompute badWord = .error .illegalOpcode ∧ view1.region = none ∧ badWorld.mem ≠ [] :=
  ⟨by decide, rfl, rfl, rfl, by decide⟩

theorem witness_StepKeepsForm : Canonical memWorld ∧ ∃ t, step { world with agenda := [.elapse 7] } = .next t :=
  ⟨by unfold Canonical; decide, _, rfl⟩

end Sys2Proof.Tests
end

