-- ==== Sys2Proof/Tests/Words.lean ====
section
/-!
SUPPORT. One word of every instruction that has one, laid out bit by bit from the encodings of
spec/opcode_table.json (R56–R60, R77–R79, R251–R265) with a value of its own in each field, decodes to
that instruction with those operands.
-/
namespace Sys2Proof.Tests

/-- IADD_A to ISUB_SAT_S32. -/
theorem test_words_01 :
    decodeCompute 0b1_00000000_010010_101011_110101_01_1_10#32 = .ok (.iaddA .gang ⟨18, 43, 53, 1, true, 2⟩) ∧
    decodeCompute 0b1_00000001_010010_101011_110101_01_1_10#32 = .ok (.iaddI .gang ⟨18, 43, 53, 1, true, 2⟩) ∧
    decodeCompute 0b1_00000010_010010_101011_110101_01_1_10#32 = .ok (.isubA .gang ⟨18, 43, 53, 1, true, 2⟩) ∧
    decodeCompute 0b1_00000011_010010_101011_110101_01_1_10#32 = .ok (.isubI .gang ⟨18, 43, 53, 1, true, 2⟩) ∧
    decodeCompute 0b1_00000100_010010_101011_110101_01_1_10#32 = .ok (.imulA .gang ⟨18, 43, 53, 1, true, 2⟩) ∧
    decodeCompute 0b1_00000101_010010_101011_110101_01_1_10#32 = .ok (.imulI .gang ⟨18, 43, 53, 1, true, 2⟩) ∧
    decodeCompute 0b1_00000110_010010_101011_110101_01_1_10#32 = .ok (.imulhS32 .gang ⟨18, 43, 53, 1, true, 2⟩) ∧
    decodeCompute 0b1_00000111_010010_101011_110101_01_1_10#32 = .ok (.imulhN32 .gang ⟨18, 43, 53, 1, true, 2⟩) ∧
    decodeCompute 0b1_00001000_010010_101011_110101_01_1_10#32 = .ok (.imad .gang ⟨18, 43, 53, 1, true, 2⟩) ∧
    decodeCompute 0b1_00001001_010010_101011_110101_01_1_10#32 = .ok (.iaddSatS32 .gang ⟨18, 43, 53, 1, true, 2⟩) ∧
    decodeCompute 0b1_00001010_010010_101011_110101_01_1_10#32 = .ok (.iaddSatN32 .gang ⟨18, 43, 53, 1, true, 2⟩) ∧
    decodeCompute 0b1_00001011_010010_101011_110101_01_1_10#32 = .ok (.isubSatS32 .gang ⟨18, 43, 53, 1, true, 2⟩) :=
  ⟨rfl, rfl, rfl, rfl, rfl, rfl, rfl, rfl, rfl, rfl, rfl, rfl⟩

/-- ISUB_SAT_N32 to AND_I. -/
theorem test_words_02 :
    decodeCompute 0b1_00001100_010010_101011_110101_01_1_10#32 = .ok (.isubSatN32 .gang ⟨18, 43, 53, 1, true, 2⟩) ∧
    decodeCompute 0b1_00001101_010010_101011_110101_01_1_10#32 = .ok (.iminS32 .gang ⟨18, 43, 53, 1, true, 2⟩) ∧
    decodeCompute 0b1_00001110_010010_101011_110101_01_1_10#32 = .ok (.iminN32 .gang ⟨18, 43, 53, 1, true, 2⟩) ∧
    decodeCompute 0b1_00001111_010010_101011_110101_01_1_10#32 = .ok (.imaxS32 .gang ⟨18, 43, 53, 1, true, 2⟩) ∧
    decodeCompute 0b1_00010000_010010_101011_110101_01_1_10#32 = .ok (.imaxN32 .gang ⟨18, 43, 53, 1, true, 2⟩) ∧
    decodeCompute 0b1_00010001_010010_101011_000000_10_1_11#32 = .ok (.iabs .gang ⟨18, 43, 2, true, 3⟩) ∧
    decodeCompute 0b1_00010010_010010_101011_000000_10_1_11#32 = .ok (.iabsSat .gang ⟨18, 43, 2, true, 3⟩) ∧
    decodeCompute 0b1_00010011_010010_101011_110101_01_1_10#32 = .ok (.andA .gang ⟨18, 43, 53, 1, true, 2⟩) ∧
    decodeCompute 0b1_00010100_010010_101011_110101_01_1_10#32 = .ok (.orB .gang ⟨18, 43, 53, 1, true, 2⟩) ∧
    decodeCompute 0b1_00010101_010010_101011_110101_01_1_10#32 = .ok (.xorB .gang ⟨18, 43, 53, 1, true, 2⟩) ∧
    decodeCompute 0b1_00010110_010010_101011_110101_01_1_10#32 = .ok (.andn .gang ⟨18, 43, 53, 1, true, 2⟩) ∧
    decodeCompute 0b1_00010111_010010_101011_110101_01_1_10#32 = .ok (.andI .gang ⟨18, 43, 53, 1, true, 2⟩) :=
  ⟨rfl, rfl, rfl, rfl, rfl, rfl, rfl, rfl, rfl, rfl, rfl, rfl⟩

/-- SHL_A to POPC. -/
theorem test_words_03 :
    decodeCompute 0b1_00011000_010010_101011_110101_01_1_10#32 = .ok (.shlA .gang ⟨18, 43, 53, 1, true, 2⟩) ∧
    decodeCompute 0b1_00011001_010010_101011_110101_01_1_10#32 = .ok (.shlI .gang ⟨18, 43, 53, 1, true, 2⟩) ∧
    decodeCompute 0b1_00011010_010010_101011_110101_01_1_10#32 = .ok (.shrA .gang ⟨18, 43, 53, 1, true, 2⟩) ∧
    decodeCompute 0b1_00011011_010010_101011_110101_01_1_10#32 = .ok (.shrI .gang ⟨18, 43, 53, 1, true, 2⟩) ∧
    decodeCompute 0b1_00011100_010010_101011_110101_01_1_10#32 = .ok (.sarA .gang ⟨18, 43, 53, 1, true, 2⟩) ∧
    decodeCompute 0b1_00011101_010010_101011_110101_01_1_10#32 = .ok (.sarI .gang ⟨18, 43, 53, 1, true, 2⟩) ∧
    decodeCompute 0b1_00011110_010010_101011_110101_01_1_10#32 = .ok (.rotA .gang ⟨18, 43, 53, 1, true, 2⟩) ∧
    decodeCompute 0b1_00011111_010010_101011_110101_01_1_10#32 = .ok (.rotI .gang ⟨18, 43, 53, 1, true, 2⟩) ∧
    decodeCompute 0b1_00100000_010010_101011_110101_01_1_10#32 = .ok (.bfxN32 .gang ⟨18, 43, 53, 1, true, 2⟩) ∧
    decodeCompute 0b1_00100001_010010_101011_110101_01_1_10#32 = .ok (.bfxS32 .gang ⟨18, 43, 53, 1, true, 2⟩) ∧
    decodeCompute 0b1_00100010_010010_101011_110101_01_1_10#32 = .ok (.bfi .gang ⟨18, 43, 53, 1, true, 2⟩) ∧
    decodeCompute 0b1_00100011_010010_101011_000000_10_1_11#32 = .ok (.popc .gang ⟨18, 43, 2, true, 3⟩) :=
  ⟨rfl, rfl, rfl, rfl, rfl, rfl, rfl, rfl, rfl, rfl, rfl, rfl⟩

/-- CLZ to ICMP_LE_N32. -/
theorem test_words_04 :
    decodeCompute 0b1_00100100_010010_101011_000000_10_1_11#32 = .ok (.clz .gang ⟨18, 43, 2, true, 3⟩) ∧
    decodeCompute 0b1_00100101_010010_101011_000000_10_1_11#32 = .ok (.brev .gang ⟨18, 43, 2, true, 3⟩) ∧
    decodeCompute 0b1_00100110_010010_101011_000000_10_1_11#32 = .ok (.mov .gang ⟨18, 43, 2, true, 3⟩) ∧
    decodeCompute 0b1_00100111_010010_101011_110101_01_0_11#32 = .ok (.lea .gang ⟨18, 43, 53, 1, 3⟩) ∧
    decodeCompute 0b1_00101000_010010_101011_110101_01_1_10#32 = .ok (.icmpEq .gang ⟨18, 43, 53, 1, true, 2⟩) ∧
    decodeCompute 0b1_00101001_010010_101011_110101_01_1_10#32 = .ok (.icmpNe .gang ⟨18, 43, 53, 1, true, 2⟩) ∧
    decodeCompute 0b1_00101010_010010_101011_110101_01_1_10#32 = .ok (.icmpLtS32 .gang ⟨18, 43, 53, 1, true, 2⟩) ∧
    decodeCompute 0b1_00101011_010010_101011_110101_01_1_10#32 = .ok (.icmpLeS32 .gang ⟨18, 43, 53, 1, true, 2⟩) ∧
    decodeCompute 0b1_00101100_010010_101011_110101_01_1_10#32 = .ok (.icmpGtS32 .gang ⟨18, 43, 53, 1, true, 2⟩) ∧
    decodeCompute 0b1_00101101_010010_101011_110101_01_1_10#32 = .ok (.icmpGeS32 .gang ⟨18, 43, 53, 1, true, 2⟩) ∧
    decodeCompute 0b1_00101110_010010_101011_110101_01_1_10#32 = .ok (.icmpLtN32 .gang ⟨18, 43, 53, 1, true, 2⟩) ∧
    decodeCompute 0b1_00101111_010010_101011_110101_01_1_10#32 = .ok (.icmpLeN32 .gang ⟨18, 43, 53, 1, true, 2⟩) :=
  ⟨rfl, rfl, rfl, rfl, rfl, rfl, rfl, rfl, rfl, rfl, rfl, rfl⟩

/-- SEL to IMUL_S16. -/
theorem test_words_05 :
    decodeCompute 0b1_00110000_010010_101011_110101_01_1_10#32 = .ok (.sel .gang ⟨18, 43, 53, 1, true, 2⟩) ∧
    decodeCompute 0b1_00110001_010010_101011_110101_01_1_10#32 = .ok (.icmpGtN32 .gang ⟨18, 43, 53, 1, true, 2⟩) ∧
    decodeCompute 0b1_00110010_010010_101011_110101_01_1_10#32 = .ok (.icmpGeN32 .gang ⟨18, 43, 53, 1, true, 2⟩) ∧
    decodeCompute 0b1_00110011_010010_101011_110101_01_1_10#32 = .ok (.iaddSatS16 .gang ⟨18, 43, 53, 1, true, 2⟩) ∧
    decodeCompute 0b1_00110100_010010_101011_110101_01_1_10#32 = .ok (.iaddSatN16 .gang ⟨18, 43, 53, 1, true, 2⟩) ∧
    decodeCompute 0b1_00110101_010010_101011_110101_01_1_10#32 = .ok (.isubSatS16 .gang ⟨18, 43, 53, 1, true, 2⟩) ∧
    decodeCompute 0b1_00110110_010010_101011_110101_01_1_10#32 = .ok (.isubSatN16 .gang ⟨18, 43, 53, 1, true, 2⟩) ∧
    decodeCompute 0b1_00110111_010010_101011_110101_01_1_10#32 = .ok (.iaddS16 .gang ⟨18, 43, 53, 1, true, 2⟩) ∧
    decodeCompute 0b1_00111000_010010_101011_110101_01_1_10#32 = .ok (.iaddN16 .gang ⟨18, 43, 53, 1, true, 2⟩) ∧
    decodeCompute 0b1_00111001_010010_101011_110101_01_1_10#32 = .ok (.isubS16 .gang ⟨18, 43, 53, 1, true, 2⟩) ∧
    decodeCompute 0b1_00111010_010010_101011_110101_01_1_10#32 = .ok (.isubN16 .gang ⟨18, 43, 53, 1, true, 2⟩) ∧
    decodeCompute 0b1_00111011_010010_101011_110101_01_1_10#32 = .ok (.imulS16 .gang ⟨18, 43, 53, 1, true, 2⟩) :=
  ⟨rfl, rfl, rfl, rfl, rfl, rfl, rfl, rfl, rfl, rfl, rfl, rfl⟩

/-- IMUL_N16 to FSUB_F16. -/
theorem test_words_06 :
    decodeCompute 0b1_00111100_010010_101011_110101_01_1_10#32 = .ok (.imulN16 .gang ⟨18, 43, 53, 1, true, 2⟩) ∧
    decodeCompute 0b1_00111101_010010_101011_110101_01_1_10#32 = .ok (.imulSat .gang ⟨18, 43, 53, 1, true, 2⟩) ∧
    decodeCompute 0b1_00111110_010010_0000010101101101_0#32 = .ok (.movl .gang 18 1389) ∧
    decodeCompute 0b1_00111110_010010_0000010101101101_1#32 = .ok (.movh .gang 18 1389) ∧
    decodeCompute 0b001000000_100001_010010_101011_10_1_11#32 = .ok (.faddF32 ⟨33, 18, 43, 2, true, 3⟩) ∧
    decodeCompute 0b001000001_100001_010010_101011_10_1_11#32 = .ok (.fsubF32 ⟨33, 18, 43, 2, true, 3⟩) ∧
    decodeCompute 0b001000010_100001_010010_101011_10_1_11#32 = .ok (.fmulF32 ⟨33, 18, 43, 2, true, 3⟩) ∧
    decodeCompute 0b001000011_100001_010010_101011_10_1_11#32 = .ok (.ffmaF32 ⟨33, 18, 43, 2, true, 3⟩) ∧
    decodeCompute 0b001000100_100001_010010_101011_10_1_11#32 = .ok (.fminF32 ⟨33, 18, 43, 2, true, 3⟩) ∧
    decodeCompute 0b001000101_100001_010010_101011_10_1_11#32 = .ok (.fmaxF32 ⟨33, 18, 43, 2, true, 3⟩) ∧
    decodeCompute 0b001000110_100001_010010_101011_10_1_11#32 = .ok (.faddF16 ⟨33, 18, 43, 2, true, 3⟩) ∧
    decodeCompute 0b001000111_100001_010010_101011_10_1_11#32 = .ok (.fsubF16 ⟨33, 18, 43, 2, true, 3⟩) :=
  ⟨rfl, rfl, rfl, rfl, rfl, rfl, rfl, rfl, rfl, rfl, rfl, rfl⟩

/-- FMUL_F16 to FCMP_LT. -/
theorem test_words_07 :
    decodeCompute 0b001001000_100001_010010_101011_10_1_11#32 = .ok (.fmulF16 ⟨33, 18, 43, 2, true, 3⟩) ∧
    decodeCompute 0b001001001_100001_010010_101011_10_1_11#32 = .ok (.ffmaF16 ⟨33, 18, 43, 2, true, 3⟩) ∧
    decodeCompute 0b001001010_100001_010010_101011_10_1_11#32 = .ok (.fminF16 ⟨33, 18, 43, 2, true, 3⟩) ∧
    decodeCompute 0b001001011_100001_010010_101011_10_1_11#32 = .ok (.fmaxF16 ⟨33, 18, 43, 2, true, 3⟩) ∧
    decodeCompute 0b001001100_100001_010010_101011_10_1_11#32 = .ok (.faddBf16 ⟨33, 18, 43, 2, true, 3⟩) ∧
    decodeCompute 0b001001101_100001_010010_101011_10_1_11#32 = .ok (.fsubBf16 ⟨33, 18, 43, 2, true, 3⟩) ∧
    decodeCompute 0b001001110_100001_010010_101011_10_1_11#32 = .ok (.fmulBf16 ⟨33, 18, 43, 2, true, 3⟩) ∧
    decodeCompute 0b001001111_100001_010010_101011_10_1_11#32 = .ok (.ffmaBf16 ⟨33, 18, 43, 2, true, 3⟩) ∧
    decodeCompute 0b001010000_100001_010010_101011_10_1_11#32 = .ok (.fminBf16 ⟨33, 18, 43, 2, true, 3⟩) ∧
    decodeCompute 0b001010001_100001_010010_101011_10_1_11#32 = .ok (.fmaxBf16 ⟨33, 18, 43, 2, true, 3⟩) ∧
    decodeCompute 0b001010010_100001_010010_101011_10_1_11#32 = .ok (.fcmpEq ⟨33, 18, 43, 2, true, 3⟩) ∧
    decodeCompute 0b001010011_100001_010010_101011_10_1_11#32 = .ok (.fcmpLt ⟨33, 18, 43, 2, true, 3⟩) :=
  ⟨rfl, rfl, rfl, rfl, rfl, rfl, rfl, rfl, rfl, rfl, rfl, rfl⟩

/-- FCMP_LE to FCLASS. -/
theorem test_words_08 :
    decodeCompute 0b001010100_100001_010010_101011_10_1_11#32 = .ok (.fcmpLe ⟨33, 18, 43, 2, true, 3⟩) ∧
    decodeCompute 0b001010101_100001_010010_101011_10_1_11#32 = .ok (.fcmpUn ⟨33, 18, 43, 2, true, 3⟩) ∧
    decodeCompute 0b001010110_100001_010010_101011_10_1_11#32 = .ok (.fscale ⟨33, 18, 43, 2, true, 3⟩) ∧
    decodeCompute 0b001010111_100001_010010_000010_10_1_11#32 = .ok (.fabs ⟨33, 18, 2, 2, true, 3⟩) ∧
    decodeCompute 0b001011000_100001_010010_000010_10_1_11#32 = .ok (.fneg ⟨33, 18, 2, 2, true, 3⟩) ∧
    decodeCompute 0b001011001_100001_010010_000010_10_1_11#32 = .ok (.frcp ⟨33, 18, 2, 2, true, 3⟩) ∧
    decodeCompute 0b001011010_100001_010010_000010_10_1_11#32 = .ok (.frsq ⟨33, 18, 2, 2, true, 3⟩) ∧
    decodeCompute 0b001011011_100001_010010_000010_10_1_11#32 = .ok (.fsqrt ⟨33, 18, 2, 2, true, 3⟩) ∧
    decodeCompute 0b001011100_100001_010010_000010_10_1_11#32 = .ok (.fexp2 ⟨33, 18, 2, 2, true, 3⟩) ∧
    decodeCompute 0b001011101_100001_010010_000010_10_1_11#32 = .ok (.flog2 ⟨33, 18, 2, 2, true, 3⟩) ∧
    decodeCompute 0b001011110_100001_010010_011011_10_1_11#32 = .ok (.fcvt ⟨33, 18, 27, 2, true, 3⟩) ∧
    decodeCompute 0b001011111_100001_010010_000010_10_1_11#32 = .ok (.fclass ⟨33, 18, 2, 2, true, 3⟩) :=
  ⟨rfl, rfl, rfl, rfl, rfl, rfl, rfl, rfl, rfl, rfl, rfl, rfl⟩

/-- BYTEQ to SHFL_XOR. -/
theorem test_words_09 :
    decodeCompute 0b001100000_100001_010010_101011_10_1_11#32 = .ok (.byteq ⟨33, 18, 43, 2, true, 3⟩) ∧
    decodeCompute 0b001100001_100001_010010_101011_10_1_11#32 = .ok (.bfind ⟨33, 18, 43, 2, true, 3⟩) ∧
    decodeCompute 0b001100010_100001_010010_101011_10_1_11#32 = .ok (.bperm ⟨33, 18, 43, 2, true, 3⟩) ∧
    decodeCompute 0b001100011_100001_010010_101011_10_1_11#32 = .ok (.crcC ⟨33, 18, 43, 2, true, 3⟩) ∧
    decodeCompute 0b001100100_100001_010010_101011_10_1_11#32 = .ok (.hmix ⟨33, 18, 43, 2, true, 3⟩) ∧
    decodeCompute 0b001100101_100001_010010_101011_10_1_11#32 = .ok (.dfaStep4 ⟨33, 18, 43, 2, true, 3⟩) ∧
    decodeCompute 0b001100110000000_100001_010010_11_0_10#32 = .ok (.rngSeed ⟨33, 18, 3, 2⟩) ∧
    decodeCompute 0b001100111_100001_000000000000_01_1_10#32 = .ok (.rngNext ⟨33, 1, true, 2⟩) ∧
    decodeCompute 0b001101000_100001_010010_101011_10_1_11#32 = .ok (.prune ⟨33, 18, 43, 2, true, 3⟩) ∧
    decodeCompute 0b001110000_100001_010010_100101_10_1_11#32 = .ok (.ballot ⟨33, 18, 37, 2, true, 3⟩) ∧
    decodeCompute 0b001110001_100001_010010_101011_10_1_11#32 = .ok (.shflIdx ⟨33, 18, 43, 2, true, 3⟩) ∧
    decodeCompute 0b001110010_100001_010010_101011_10_1_11#32 = .ok (.shflXor ⟨33, 18, 43, 2, true, 3⟩) :=
  ⟨rfl, rfl, rfl, rfl, rfl, rfl, rfl, rfl, rfl, rfl, rfl, rfl⟩

/-- SHFL_UP to LD_N16_A. -/
theorem test_words_10 :
    decodeCompute 0b001110011_100001_010010_101011_10_1_11#32 = .ok (.shflUp ⟨33, 18, 43, 2, true, 3⟩) ∧
    decodeCompute 0b001110100_100001_010010_101011_10_1_11#32 = .ok (.shflDown ⟨33, 18, 43, 2, true, 3⟩) ∧
    decodeCompute 0b001110101_100001_010010_0_01010_10_1_11#32 = .ok (.xred ⟨33, 18, 2, true, 3⟩ 10) ∧
    decodeCompute 0b001110110_100001_010010_1_01010_01_1_10#32 = .ok (.xscan ⟨33, 18, 1, true, 2⟩ true 10) ∧
    decodeCompute 0b001110111_100001_010010_101011_10_0_01#32 = .ok (.isect ⟨33, 18, 43, 2, 1⟩) ∧
    decodeCompute 0b001111000_100001_010010_000000_11_1_01#32 = .ok (.matchL ⟨33, 18, 3, true, 1⟩) ∧
    decodeCompute 0b001111001_100001_010010_101011_10_1_11#32 = .ok (.bcast ⟨33, 18, 43, 2, true, 3⟩) ∧
    decodeCompute 0b011000000000000_100001_000000_01_0_11#32 = .ok (.bnext ⟨33, 1, 3⟩) ∧
    decodeCompute 0b011000001000000_100001_000000_01_0_11#32 = .ok (.setblk ⟨33, 1, 3⟩) ∧
    decodeCompute 0b010000000_100001_010010_101011_10_1_11#32 = .ok (.ldS16A ⟨33, 18, 43, 2, true, 3⟩) ∧
    decodeCompute 0b010000001_100001_010010_101011_10_1_11#32 = .ok (.ldS16I ⟨33, 18, 43, 2, true, 3⟩) ∧
    decodeCompute 0b010000010_100001_010010_101011_10_1_11#32 = .ok (.ldN16A ⟨33, 18, 43, 2, true, 3⟩) :=
  ⟨rfl, rfl, rfl, rfl, rfl, rfl, rfl, rfl, rfl, rfl, rfl, rfl⟩

/-- LD_N16_I to ATOM_OR. -/
theorem test_words_11 :
    decodeCompute 0b010000011_100001_010010_101011_10_1_11#32 = .ok (.ldN16I ⟨33, 18, 43, 2, true, 3⟩) ∧
    decodeCompute 0b010000100_100001_010010_101011_10_1_11#32 = .ok (.ldB32A ⟨33, 18, 43, 2, true, 3⟩) ∧
    decodeCompute 0b010000101_100001_010010_101011_10_1_11#32 = .ok (.ldB32I ⟨33, 18, 43, 2, true, 3⟩) ∧
    decodeCompute 0b010001000_100001_010010_101011_10_0_01#32 = .ok (.stB32A ⟨33, 18, 43, 2, 1⟩) ∧
    decodeCompute 0b010001001_100001_010010_101011_10_0_01#32 = .ok (.stB32I ⟨33, 18, 43, 2, 1⟩) ∧
    decodeCompute 0b010001010_100001_010010_101011_10_0_01#32 = .ok (.stN16A ⟨33, 18, 43, 2, 1⟩) ∧
    decodeCompute 0b010001011_100001_010010_101011_10_0_01#32 = .ok (.stN16I ⟨33, 18, 43, 2, 1⟩) ∧
    decodeCompute 0b010001100_100001_010010_101011_10_1_11#32 = .ok (.ldc ⟨33, 18, 43, 2, true, 3⟩) ∧
    decodeCompute 0b010001101_100001_010010_101011_10_0_01#32 = .ok (.stc ⟨33, 18, 43, 2, 1⟩) ∧
    decodeCompute 0b010010000_100001_010010_101011_10_0_01#32 = .ok (.atomAdd ⟨33, 18, 43, 2, 1⟩) ∧
    decodeCompute 0b010010001_100001_010010_101011_10_0_01#32 = .ok (.atomAnd ⟨33, 18, 43, 2, 1⟩) ∧
    decodeCompute 0b010010010_100001_010010_101011_10_0_01#32 = .ok (.atomOr ⟨33, 18, 43, 2, 1⟩) :=
  ⟨rfl, rfl, rfl, rfl, rfl, rfl, rfl, rfl, rfl, rfl, rfl, rfl⟩

/-- ATOM_XOR to RED_M_MIN_N32. -/
theorem test_words_12 :
    decodeCompute 0b010010011_100001_010010_101011_10_0_01#32 = .ok (.atomXor ⟨33, 18, 43, 2, 1⟩) ∧
    decodeCompute 0b010010100_100001_010010_101011_10_0_01#32 = .ok (.atomMinS32 ⟨33, 18, 43, 2, 1⟩) ∧
    decodeCompute 0b010010101_100001_010010_101011_10_0_01#32 = .ok (.atomMaxS32 ⟨33, 18, 43, 2, 1⟩) ∧
    decodeCompute 0b010010110_100001_010010_101011_10_0_01#32 = .ok (.atomMinN32 ⟨33, 18, 43, 2, 1⟩) ∧
    decodeCompute 0b010010111_100001_010010_101011_10_0_01#32 = .ok (.atomMaxN32 ⟨33, 18, 43, 2, 1⟩) ∧
    decodeCompute 0b010011000_100001_010010_101011_10_0_01#32 = .ok (.atomXchg ⟨33, 18, 43, 2, 1⟩) ∧
    decodeCompute 0b010011001_100001_010010_101011_10_0_01#32 = .ok (.atomCas ⟨33, 18, 43, 2, 1⟩) ∧
    decodeCompute 0b010011010_100001_010010_101011_10_0_01#32 = .ok (.redMAdd ⟨33, 18, 43, 2, 1⟩) ∧
    decodeCompute 0b010011011_100001_010010_101011_10_0_01#32 = .ok (.redMAddF32 ⟨33, 18, 43, 2, 1⟩) ∧
    decodeCompute 0b010011100_100001_010010_101011_10_0_01#32 = .ok (.redMMinS32 ⟨33, 18, 43, 2, 1⟩) ∧
    decodeCompute 0b010011101_100001_010010_101011_10_0_01#32 = .ok (.redMMaxS32 ⟨33, 18, 43, 2, 1⟩) ∧
    decodeCompute 0b010011110_100001_010010_101011_10_0_01#32 = .ok (.redMMinN32 ⟨33, 18, 43, 2, 1⟩) :=
  ⟨rfl, rfl, rfl, rfl, rfl, rfl, rfl, rfl, rfl, rfl, rfl, rfl⟩

/-- RED_M_MAX_N32 to SPALLOC. -/
theorem test_words_13 :
    decodeCompute 0b010011111_100001_010010_101011_10_0_01#32 = .ok (.redMMaxN32 ⟨33, 18, 43, 2, 1⟩) ∧
    decodeCompute 0b010100000_100001_010010_101011_10_1_11#32 = .ok (.ldv ⟨33, 18, 43, 2, true, 3⟩) ∧
    decodeCompute 0b010100001_100001_010010_101011_10_0_01#32 = .ok (.stv ⟨33, 18, 43, 2, 1⟩) ∧
    decodeCompute 0b010100010_100001_010010_101011_10_1_11#32 = .ok (.vlatest ⟨33, 18, 43, 2, true, 3⟩) ∧
    decodeCompute 0b110000000_100001_010010_101011_10_1_11#32 = .ok (.ldgA ⟨33, 18, 43, 2, true, 3⟩) ∧
    decodeCompute 0b110000001_100001_010010_101011_10_1_11#32 = .ok (.ldgI ⟨33, 18, 43, 2, true, 3⟩) ∧
    decodeCompute 0b110000010_100001_010010_101011_10_0_01#32 = .ok (.stgA ⟨33, 18, 43, 2, 1⟩) ∧
    decodeCompute 0b110000011_100001_010010_101011_10_0_01#32 = .ok (.stgI ⟨33, 18, 43, 2, 1⟩) ∧
    decodeCompute 0b110000100000000_100001_010010_11_0_10#32 = .ok (.vpin ⟨33, 18, 3, 2⟩) ∧
    decodeCompute 0b110000101000000_100001_010010_11_0_10#32 = .ok (.vunpin ⟨33, 18, 3, 2⟩) ∧
    decodeCompute 0b110000110000000_100001_010010_11_0_10#32 = .ok (.vfloor ⟨33, 18, 3, 2⟩) ∧
    decodeCompute 0b110000111_100001_010010_101011_10_1_11#32 = .ok (.spalloc ⟨33, 18, 43, 2, true, 3⟩) :=
  ⟨rfl, rfl, rfl, rfl, rfl, rfl, rfl, rfl, rfl, rfl, rfl, rfl⟩

/-- SPRENEW to MSWAP. -/
theorem test_words_14 :
    decodeCompute 0b110001000000000_100001_010010_11_0_10#32 = .ok (.sprenew ⟨33, 18, 3, 2⟩) ∧
    decodeCompute 0b110001001000000_100001_010010_11_0_10#32 = .ok (.sprenewZ ⟨33, 18, 3, 2⟩) ∧
    decodeCompute 0b110001010000000_100001_000000_01_0_11#32 = .ok (.spfree ⟨33, 1, 3⟩) ∧
    decodeCompute 0b110001011_100001_010010_000000_11_1_01#32 = .ok (.spinfo ⟨33, 18, 3, true, 1⟩) ∧
    decodeCompute 0b110001100_100001_010010_101011_10_1_11#32 = .ok (.pkst ⟨33, 18, 43, 2, true, 3⟩) ∧
    decodeCompute 0b110001101_100001_010010_101011_10_1_11#32 = .ok (.pkld ⟨33, 18, 43, 2, true, 3⟩) ∧
    decodeCompute 0b110001110_100001_010010_000101_10_0_01#32 = .ok (.fence ⟨33, 18, 5, 2, 1⟩) ∧
    decodeCompute 0b110001111000000_100001_010010_11_0_10#32 = .ok (.flush ⟨33, 18, 3, 2⟩) ∧
    decodeCompute 0b110010000000000_100001_010010_11_0_10#32 = .ok (.tdLoad ⟨33, 18, 3, 2⟩) ∧
    decodeCompute 0b110010001000000_100001_010010_11_0_10#32 = .ok (.tdSet ⟨33, 18, 3, 2⟩) ∧
    decodeCompute 0b110100000000000_100001_010010_11_0_10#32 = .ok (.mload ⟨33, 18, 3, 2⟩) ∧
    decodeCompute 0b110100001000000000000000000_10_0_01#32 = .ok (.mswap 2 1) :=
  ⟨rfl, rfl, rfl, rfl, rfl, rfl, rfl, rfl, rfl, rfl, rfl, rfl⟩

/-- MSTREAM to REGANG. -/
theorem test_words_15 :
    decodeCompute 0b110100010000000_100001_010010_11_0_10#32 = .ok (.mstream ⟨33, 18, 3, 2⟩) ∧
    decodeCompute 0b110100011000000_100001_000000_01_0_11#32 = .ok (.mzero ⟨33, 1, 3⟩) ∧
    decodeCompute 0b110100100_100001_010010_000_100_10_1_11#32 = .ok (.mdrain ⟨33, 18, 2, true, 3⟩ 4) ∧
    decodeCompute 0b110100100000000_100001_101101_11_0_10#32 = .ok (.mdrainXp ⟨33, 45, 3, 2⟩) ∧
    decodeCompute 0b110100101_100001_010010_101011_10_0_01#32 = .ok (.mtile ⟨33, 18, 43, 2, 1⟩) ∧
    decodeCompute 0b110100110_100001_010010_000000_11_1_01#32 = .ok (.mstat ⟨33, 18, 3, true, 1⟩) ∧
    decodeCompute 0b1110000000000_0000100001010010101#32 = .ok (.bra 17045) ∧
    decodeCompute 0b111000001_101_1_0000000010101101101#32 = .ok (.brcAny 5 true 1389) ∧
    decodeCompute 0b111000010_101_1_0000000010101101101#32 = .ok (.brcAll 5 true 1389) ∧
    decodeCompute 0b1110000110000_0000100001010010101#32 = .ok (.call 17045) ∧
    decodeCompute 0b111000100000000_100001_000000_01_0_11#32 = .ok (.ret ⟨33, 1, 3⟩) ∧
    decodeCompute 0b111000101000000000000000000_10_000#32 = .ok (.regang 2) :=
  ⟨rfl, rfl, rfl, rfl, rfl, rfl, rfl, rfl, rfl, rfl, rfl, rfl⟩

/-- EXIT to COH_JOIN. -/
theorem test_words_16 :
    decodeCompute 0b111000110000000000000000000_10_000#32 = .ok (.exitG 2) ∧
    decodeCompute 0b111000111000000000000000000_10_000#32 = .ok (.nop 2) ∧
    decodeCompute 0b111001000000000000000000000_10_000#32 = .ok (.yield 2) ∧
    decodeCompute 0b111010000_100001_00000001001010110#32 = .ok (.autoEnter 33 598) ∧
    decodeCompute 0b11101001000000000000000000000000#32 = .ok .autoStep ∧
    decodeCompute 0b11101001100000000000000000000000#32 = .ok .autoExit ∧
    decodeCompute 0b111100000000000_100001_010010_11_0_10#32 = .ok (.barInit ⟨33, 18, 3, 2⟩) ∧
    decodeCompute 0b111100001_100001_010010_000000_11_1_01#32 = .ok (.barArrive ⟨33, 18, 3, true, 1⟩) ∧
    decodeCompute 0b111100010000000_100001_010010_11_0_10#32 = .ok (.barWait ⟨33, 18, 3, 2⟩) ∧
    decodeCompute 0b111100011000000_100001_010010_11_0_10#32 = .ok (.barArm ⟨33, 18, 3, 2⟩) ∧
    decodeCompute 0b111100100_100001_010010_101011_10_1_11#32 = .ok (.barTest ⟨33, 18, 43, 2, true, 3⟩) ∧
    decodeCompute 0b111100101_100001_010010_101011_10_1_11#32 = .ok (.cohJoin ⟨33, 18, 43, 2, true, 3⟩) :=
  ⟨rfl, rfl, rfl, rfl, rfl, rfl, rfl, rfl, rfl, rfl, rfl, rfl⟩

/-- COH_LEAVE to RETT. -/
theorem test_words_17 :
    decodeCompute 0b111100110000000_100001_000000_01_0_11#32 = .ok (.cohLeave ⟨33, 1, 3⟩) ∧
    decodeCompute 0b111100111_100001_010010_000000_11_1_01#32 = .ok (.cohInfo ⟨33, 18, 3, true, 1⟩) ∧
    decodeCompute 0b111101000_100001_010010_000000_11_1_01#32 = .ok (.nodePost ⟨33, 18, 3, true, 1⟩) ∧
    decodeCompute 0b111101001000000_100001_010010_11_0_10#32 = .ok (.tlWait ⟨33, 18, 3, 2⟩) ∧
    decodeCompute 0b111101010_100001_010010_000000_11_1_01#32 = .ok (.tlRead ⟨33, 18, 3, true, 1⟩) ∧
    decodeCompute 0b111101011000000_100001_010010_11_0_10#32 = .ok (.xpStart ⟨33, 18, 3, 2⟩) ∧
    decodeCompute 0b111101100_100001_010010_000000_11_1_01#32 = .ok (.xpStatus ⟨33, 18, 3, true, 1⟩) ∧
    decodeCompute 0b111110000000000000000000000_10_000#32 = .ok (.idem 2) ∧
    decodeCompute 0b111110001000000_100001_000000_01_000#32 = .ok (.contOpen 33 1) ∧
    decodeCompute 0b111110010000000000000000000_10_000#32 = .ok (.contClose 2) ∧
    decodeCompute 0b111110011000000000000_100001_01_000#32 = .ok (.trap 33 1) ∧
    decodeCompute 0b11111010000000000000000000000000#32 = .ok .rett :=
  ⟨rfl, rfl, rfl, rfl, rfl, rfl, rfl, rfl, rfl, rfl, rfl, rfl⟩

/-- SYSRD to MOVS_PUT. -/
theorem test_words_18 :
    decodeCompute 0b111110101_100001_001001010110_11_1_01#32 = .ok (.sysrd 33 598 3 true 1) ∧
    decodeCompute 0b111110110_100001_001001010110_11_0_10#32 = .ok (.syswr 33 598 3 2) ∧
    decodeCompute 0b111110111000000000000000000_10_000#32 = .ok (.stepMark 2) ∧
    decodeCompute 0b111111000_100001_010010_00000000_1_10#32 = .ok (.movsGet 33 18 true 2) ∧
    decodeCompute 0b111111000_100001_010010_000001000_11#32 = .ok (.movsPut 33 18 3) :=
  ⟨rfl, rfl, rfl, rfl, rfl⟩

/-- XP_NOP to XP_SHL_IMM. -/
theorem test_words_19 :
    decodeXp 0b00000000000000000000000000000000#32 = .ok .xpNop ∧
    decodeXp 0b00000100000000000000000000000000#32 = .ok .xpHalt ∧
    decodeXp 0b000010_1001_1_00000_0000010101101101#32 = .ok (.xpMovi 9 true 1389) ∧
    decodeXp 0b000011_1001_010_000_0000010101101101#32 = .ok (.xpLdx 9 2 1389) ∧
    decodeXp 0b000100_1001_0110_0_1011_0000000000000#32 = .ok (.xpAddReg ⟨9, 6, 11⟩) ∧
    decodeXp 0b000100_1001_0110_1_00000010101101101#32 = .ok (.xpAddImm ⟨9, 6, 1389⟩) ∧
    decodeXp 0b000101_1001_0110_0_1011_0000000000000#32 = .ok (.xpSubReg ⟨9, 6, 11⟩) ∧
    decodeXp 0b000101_1001_0110_1_00000010101101101#32 = .ok (.xpSubImm ⟨9, 6, 1389⟩) ∧
    decodeXp 0b000110_1001_0110_0_1011_0000000000000#32 = .ok (.xpMulReg ⟨9, 6, 11⟩) ∧
    decodeXp 0b000110_1001_0110_1_00000010101101101#32 = .ok (.xpMulImm ⟨9, 6, 1389⟩) ∧
    decodeXp 0b000111_1001_0110_0_1011_0000000000000#32 = .ok (.xpShlReg ⟨9, 6, 11⟩) ∧
    decodeXp 0b000111_1001_0110_1_00000000000011111#32 = .ok (.xpShlImm ⟨9, 6, 31⟩) :=
  ⟨rfl, rfl, rfl, rfl, rfl, rfl, rfl, rfl, rfl, rfl, rfl, rfl⟩

/-- XP_SHR_REG to XP_CMP_LT_IMM. -/
theorem test_words_20 :
    decodeXp 0b001000_1001_0110_0_1011_0000000000000#32 = .ok (.xpShrReg ⟨9, 6, 11⟩) ∧
    decodeXp 0b001000_1001_0110_1_00000000000011111#32 = .ok (.xpShrImm ⟨9, 6, 31⟩) ∧
    decodeXp 0b001001_1001_0110_0_1011_0000000000000#32 = .ok (.xpAndReg ⟨9, 6, 11⟩) ∧
    decodeXp 0b001001_1001_0110_1_00000010101101101#32 = .ok (.xpAndImm ⟨9, 6, 1389⟩) ∧
    decodeXp 0b001010_1001_0110_0_1011_0000000000000#32 = .ok (.xpOrReg ⟨9, 6, 11⟩) ∧
    decodeXp 0b001010_1001_0110_1_00000010101101101#32 = .ok (.xpOrImm ⟨9, 6, 1389⟩) ∧
    decodeXp 0b001100_1001_0110_0_1011_0000000000000#32 = .ok (.xpCmpEqReg ⟨9, 6, 11⟩) ∧
    decodeXp 0b001100_1001_0110_1_00000010101101101#32 = .ok (.xpCmpEqImm ⟨9, 6, 1389⟩) ∧
    decodeXp 0b001101_1001_0110_0_1011_0000000000000#32 = .ok (.xpCmpNeReg ⟨9, 6, 11⟩) ∧
    decodeXp 0b001101_1001_0110_1_00000010101101101#32 = .ok (.xpCmpNeImm ⟨9, 6, 1389⟩) ∧
    decodeXp 0b001110_1001_0110_0_1011_0000000000000#32 = .ok (.xpCmpLtReg ⟨9, 6, 11⟩) ∧
    decodeXp 0b001110_1001_0110_1_00000010101101101#32 = .ok (.xpCmpLtImm ⟨9, 6, 1389⟩) :=
  ⟨rfl, rfl, rfl, rfl, rfl, rfl, rfl, rfl, rfl, rfl, rfl, rfl⟩

/-- XP_CMP_LTU_REG to XP_CUR_AT. -/
theorem test_words_21 :
    decodeXp 0b001111_1001_0110_0_1011_0000000000000#32 = .ok (.xpCmpLtuReg ⟨9, 6, 11⟩) ∧
    decodeXp 0b001111_1001_0110_1_00000010101101101#32 = .ok (.xpCmpLtuImm ⟨9, 6, 1389⟩) ∧
    decodeXp 0b0100000000000000_0100001010010101#32 = .ok (.xpBr 17045) ∧
    decodeXp 0b010001_1001_000000_0000001001010110#32 = .ok (.xpBz 9 598) ∧
    decodeXp 0b010010_1001_000000_0000001001010110#32 = .ok (.xpBnz 9 598) ∧
    decodeXp 0b010011_1001_000000000000_1001010110#32 = .ok (.xpLoopReg 9 598) ∧
    decodeXp 0b010011_1001_1_01001010110_0101101101#32 = .ok (.xpLoopImm 9 598 365) ∧
    decodeXp 0b01010000000000000000000000000000#32 = .ok .xpEndl ∧
    decodeXp 0b010101_10_1010110_00000000000000000#32 = .ok (.xpCurSet 2 86) ∧
    decodeXp 0b010110_10_100_0_1011_0000000000000000#32 = .ok (.xpCurStepReg 2 4 11) ∧
    decodeXp 0b010110_10_100_10000_0000010101101101#32 = .ok (.xpCurStepImm 2 4 1389) ∧
    decodeXp 0b010111_10_100_1_1001_0000000000000000#32 = .ok (.xpCurAt 2 4 true 9) :=
  ⟨rfl, rfl, rfl, rfl, rfl, rfl, rfl, rfl, rfl, rfl, rfl, rfl⟩

/-- XP_MOVE to XP_MOVE_G. -/
theorem test_words_22 :
    decodeXp 0b011000_10_01_0_1_10010101_000000000000#32 = .ok (.xpMove 2 1 false true 149) ∧
    decodeXp 0b011001_10_00_0_1_10100101_000000000000#32 = .ok (.xpMoveA 2 false true 165) ∧
    decodeXp 0b011010_10_00_0_1_10100101_000000000000#32 = .ok (.xpMovePk 2 false true 165) ∧
    decodeXp 0b011011_10_01_0_1_10010101_1011_00000000#32 = .ok (.xpVpub 2 1 false true 149 11) ∧
    decodeXp 0b011100_0010101_1010110_01101101_1_000#32 = .ok (.xpFollow 21 86 109 true) ∧
    decodeXp 0b011101_0010101_1010110_100_10100101_0#32 = .ok (.xpPsel 21 86 4 165) ∧
    decodeXp 0b011110000000000000000000_10010101#32 = .ok (.xpArrive 149) ∧
    decodeXp 0b011111_1001_00000000000000_01010110#32 = .ok (.xpWaitb 9 86) ∧
    decodeXp 0b100000_1001_010_0000000000000000000#32 = .ok (.xpTlsig 9 2) ∧
    decodeXp 0b11_1001_1010110_1101101_101_1_01010110#32 = .ok (.xpMoveG 9 86 109 5 true 86) :=
  ⟨rfl, rfl, rfl, rfl, rfl, rfl, rfl, rfl, rfl, rfl⟩

end Sys2Proof.Tests
end

/-!
PROOF. The opcode maps of R77–R79 against the decoder, and what a unit does with a word outside them (R80).
-/

namespace Sys2Proof
open Sys2Proof.Machine Sys2Proof.Claims

/-! ## The maps as ranges -/

theorem mem_laneOpcodes {op : Nat} : op ∈ laneOpcodes ↔
    op < 0x3F ∨ 0x40 ≤ op ∧ op < 0x69 ∨ 0x70 ≤ op ∧ op < 0x7A ∨ 0x80 ≤ op ∧ op < 0x86 ∨
      0x88 ≤ op ∧ op < 0x8E ∨ 0x90 ≤ op ∧ op < 0xA3 ∨ op = 0xC0 ∨ op = 0xC1 := by
  simp [laneOpcodes]

theorem mem_gangOpcodes {op : Nat} : op ∈ gangOpcodes ↔
    op < 0x3F ∨ 0x80 ≤ op ∧ op < 0x92 ∨ 0xA0 ≤ op ∧ op < 0xA7 ∨ 0xC0 ≤ op ∧ op < 0xC9 ∨
      op = 0xD0 ∨ op = 0xD2 ∨ op = 0xD3 ∨ 0xE0 ≤ op ∧ op < 0xED ∨ 0xF0 ≤ op ∧ op < 0xF9 := by
  simp [gangOpcodes]

/-! ## The decoder rejects an opcode as illegal exactly outside the maps

In each proof the last case is the decoder's default row; in every other one the opcode is assigned, and the
word is an instruction or fails a later check. -/

/-- A wrong reserved field or selector is another rejection (cause 0x03). -/
@[simp] theorem need_ne_illegalOpcode (ok : Bool) (i : Instr) : need ok i ≠ .error .illegalOpcode := by
  cases ok <;> simp [need]

theorem decodeShared_eq_illegalOpcode_iff (p : Pipe) (w : Word) {op : Nat} :
    decodeShared p w op = .error .illegalOpcode ↔ 0x3F ≤ op := by
  unfold decodeShared
  split
  case h_64 =>
    refine iff_of_true rfl ?_
    lia
  case h_63 => cases fHs w <;> simp
  all_goals simp

theorem decodeLane_eq_illegalOpcode_iff (w : Word) {op : Nat} (hop : 0x40 ≤ op) :
    decodeLane w op = .error .illegalOpcode ↔ op ∉ laneOpcodes := by
  rw [mem_laneOpcodes]
  unfold decodeLane
  split
  case h_85 =>
    refine iff_of_true rfl ?_
    lia
  all_goals simp

theorem decodeGang_eq_illegalOpcode_iff (w : Word) {op : Nat} (hop : 0x40 ≤ op) :
    decodeGang w op = .error .illegalOpcode ↔ op ∉ gangOpcodes := by
  rw [mem_gangOpcodes]
  unfold decodeGang
  split
  case h_60 =>
    refine iff_of_true rfl ?_
    lia
  all_goals simp [ite_eq_iff]

theorem decodeCompute_eq_illegalOpcode_iff (w : Word) :
    decodeCompute w = .error .illegalOpcode ↔
      match fPipe w with
      | .lane => (fOp w).toNat ∉ laneOpcodes
      | .gang => (fOp w).toNat ∉ gangOpcodes := by
  unfold decodeCompute
  by_cases hop : (fOp w).toNat < 0x40
  · rw [if_pos hop, decodeShared_eq_illegalOpcode_iff]
    cases fPipe w
    · simp only [mem_laneOpcodes]
      omega
    · simp only [mem_gangOpcodes]
      omega
  · rw [if_neg hop]
    cases fPipe w
    · exact decodeLane_eq_illegalOpcode_iff w (by omega)
    · exact decodeGang_eq_illegalOpcode_iff w (by omega)

/-! ## A unit at such a word -/

/-- Outside a region, and in one where the word's strand has an active lane, the word raises its cause and does
nothing else. -/
theorem illegalWord_illegalOpcode {s : State} {u : UView} {w : Word}
    (h : u.region = none ∨ actingLanes s u (if u.region = none then 0 else strandOf w) ≠ []) :
    illegalWord w .illegalOpcode u s =
      raiseOn { code := 0x02, d0 := w, source := if fPipe w = .gang then 1 else 0 }
        (actingLanes s u (if u.region = none then 0 else strandOf w)) u s := by
  unfold illegalWord
  cases hr : u.region with
  | none => simp
  | some r =>
    have hacts : actingLanes s u (strandOf w) ≠ [] := by simpa [hr] using h
    simp [hacts]

theorem runUnit_of_rejected {s : State} {u : UView} {w : Word} {r : Reject} (hu : unitView s = some u)
    (hf : fetch s u = .word w) (hd : decodeCompute w = .error r) :
    runUnit s = .next (illegalWord w r u s) := by
  simp [runUnit, hu, hf, hd]

/-- Settles O4: the decoder's default rows are the gaps of the maps, and the unit at such a word raises 0x02. -/
theorem unassignedOpcodes : Obligations.UnassignedOpcodes := by
  refine ⟨decodeCompute_eq_illegalOpcode_iff, fun s u w hu hf hd hacts => ?_⟩
  rw [runUnit_of_rejected hu hf hd, illegalWord_illegalOpcode hacts]

end Sys2Proof

/-!
PROOF. The integer words of both pipes compute the rows of `IntWord` (R86–R101), and LEA its 64-bit sum (R94).
-/

namespace Sys2Proof
open Sys2Proof.Machine Sys2Proof.Claims

/-! ## Operands of the immediate forms -/

theorem imm6_eq_int32 (b : BitVec 6) : imm6 b = int32 (imm b) := by
  rw [← imm6_toInt, int32_toInt]

theorem exact_subI (a : Word) (b : BitVec 6) : a - imm6 b = int32 (a.toInt - imm b) := by
  rw [exact_sub, imm6_toInt]

theorem exact_mulI (a : Word) (b : BitVec 6) : a * imm6 b = int32 (a.toInt * imm b) := by
  rw [exact_mul, imm6_toInt]

/-! Shifts and rotations: a count in IMM6 that R88 admits is its own value. -/

theorem exact_shlI (a : Word) {b : BitVec 6} (h : countOk b = true) :
    shlW a (imm6 b) = w32 (a.toNat * 2 ^ b.toNat) := by
  rw [← imm6_toNat b h]
  exact exact_shl a _

theorem exact_shrI (a : Word) {b : BitVec 6} (h : countOk b = true) :
    shrW a (imm6 b) = w32 (a.toNat / 2 ^ b.toNat) := by
  rw [← imm6_toNat b h]
  exact exact_shr a _

theorem exact_sarI (a : Word) {b : BitVec 6} (h : countOk b = true) :
    sarW a (imm6 b) = int32 (a.toInt / 2 ^ b.toNat) := by
  rw [← imm6_toNat b h]
  exact exact_sar a _

theorem exact_rotW (a n : Word) : rotW a n = w32 (rotated a.toNat (n.toNat % 32)) :=
  exact_rot a _ (Nat.mod_lt _ (by decide))

theorem exact_rotI (a : Word) {b : BitVec 6} (h : countOk b = true) :
    rotW a (imm6 b) = w32 (rotated a.toNat b.toNat) := by
  rw [exact_rotW, imm6_toNat b h, Nat.mod_eq_of_lt (count_lt b h)]

/-! Saturation of unsigned halves. -/

theorem exact_addSatN16 (a b : Word) :
    satN16 (((low16 a).toNat : Int) + (low16 b).toNat) = int32 (clamped 0 (2 ^ 16 - 1) (n16 a + n16 b)) := by
  rw [exact_satN16, low16_toNat, low16_toNat]

theorem exact_subSatN16 (a b : Word) :
    satN16 (((low16 a).toNat : Int) - (low16 b).toNat) = int32 (clamped 0 (2 ^ 16 - 1) (n16 a - n16 b)) := by
  rw [exact_satN16, low16_toNat, low16_toNat]

/-! ## The integer words -/

/-- Two functions that agree on every reading of the fields make the same word. -/
theorem computes_congr {i : Instr} {n : Need} {d : BitVec 6} {f g : (BitVec 6 → Word) → Word} {s : State}
    (h : ∀ r, g r = f r) : computes i n d g s = computes i n d f s := by
  rw [funext h]

section
variable {i : Instr} {p : Pipe} {s : State} {f : (BitVec 6 → Word) → Word}

/-! Each operand shape computes what its function gives on the fields that it reads. -/

theorem binary_eq {o : O3} {g : Word → Word → Word} (h : ∀ r, g (r o.a) (r o.b) = f r) :
    binary i p o g s = computes i (need3 p o) o.d f s := by
  rw [binary, computes_congr h]

theorem immediate_eq {o : O3} {g : Word → Word → Word} (h : ∀ r, g (r o.a) (imm6 o.b) = f r) :
    immediate i p o g s = computes i (needI p o) o.d f s := by
  rw [immediate, computes_congr h]

theorem shiftImm_eq {o : O3} {g : Word → Word → Word} (h : ∀ r, g (r o.a) (imm6 o.b) = f r) :
    shiftImm i p o g s = computes i { needI p o with limits := countOk o.b } o.d f s := by
  rw [shiftImm, computes_congr h]

theorem ternary_eq {o : O3} {g : Word → Word → Word → Word} (h : ∀ r, g (r o.d) (r o.a) (r o.b) = f r) :
    ternary i p o g s = computes i (needT p o) o.d f s := by
  rw [ternary, computes_congr h]

theorem unary_eq {o : O2} {g : Word → Word} (h : ∀ r, g (r o.a) = f r) :
    unary i p o g s = computes i (need2 p o) o.d f s := by
  rw [unary, computes_congr h]

end

/-- Row by row, the model's function is the row's. The limits are those of R88 on a count in IMM6. -/
theorem exec_intWord {i : Instr} {n : Need} {d : BitVec 6} {f : (BitVec 6 → Word) → Word} (h : IntWord i n d f)
    (hl : n.limits = true) (s : State) : exec i s = computes i n d f s := by
  cases h with
  | iaddA p o => rw [exec_iaddA, execIaddA]; exact binary_eq fun _ => exact_add _ _
  | iaddI p o => rw [exec_iaddI, execIaddI]; exact immediate_eq fun _ => exact_addI _ _
  | isubA p o => rw [exec_isubA, execIsubA]; exact binary_eq fun _ => exact_sub _ _
  | isubI p o => rw [exec_isubI, execIsubI]; exact immediate_eq fun _ => exact_subI _ _
  | imulA p o => rw [exec_imulA, execImulA]; exact binary_eq fun _ => exact_mul _ _
  | imulI p o => rw [exec_imulI, execImulI]; exact immediate_eq fun _ => exact_mulI _ _
  | imulhS32 p o => rw [exec_imulhS32, execImulhS32]; exact binary_eq fun _ => exact_mulhS _ _
  | imulhN32 p o => rw [exec_imulhN32, execImulhN32]; exact binary_eq fun _ => exact_mulhN _ _
  | imad p o => rw [exec_imad, execImad]; exact ternary_eq fun _ => exact_mad _ _ _
  | iaddSatS32 p o => rw [exec_iaddSatS32, execIaddSatS32]; exact binary_eq fun _ => exact_satS32 _
  | iaddSatN32 p o => rw [exec_iaddSatN32, execIaddSatN32]; exact binary_eq fun _ => exact_satN32 _
  | isubSatS32 p o => rw [exec_isubSatS32, execIsubSatS32]; exact binary_eq fun _ => exact_satS32 _
  | isubSatN32 p o => rw [exec_isubSatN32, execIsubSatN32]; exact binary_eq fun _ => exact_satN32 _
  | iminS32 p o => rw [exec_iminS32, execIminS32]; exact binary_eq fun _ => exact_minS _ _
  | iminN32 p o => rw [exec_iminN32, execIminN32]; exact binary_eq fun _ => exact_minN _ _
  | imaxS32 p o => rw [exec_imaxS32, execImaxS32]; exact binary_eq fun _ => exact_maxS _ _
  | imaxN32 p o => rw [exec_imaxN32, execImaxN32]; exact binary_eq fun _ => exact_maxN _ _
  | iabs p o => rw [exec_iabs, execIabs]; exact unary_eq fun _ => exact_abs _
  | iabsSat p o => rw [exec_iabsSat, execIabsSat]; exact unary_eq fun _ => exact_absSat _
  | andA p o => rw [exec_andA, execAndA]; exact binary_eq fun _ => rfl
  | orB p o => rw [exec_orB, execOrB]; exact binary_eq fun _ => rfl
  | xorB p o => rw [exec_xorB, execXorB]; exact binary_eq fun _ => rfl
  | andn p o => rw [exec_andn, execAndn]; exact binary_eq fun _ => rfl
  | andI p o => rw [exec_andI, execAndI]; exact immediate_eq fun r => congrArg (r o.a &&& ·) (imm6_eq_int32 o.b)
  | shlA p o => rw [exec_shlA, execShlA]; exact binary_eq fun _ => exact_shl _ _
  | shlI p o => rw [exec_shlI, execShlI]; exact shiftImm_eq fun _ => exact_shlI _ hl
  | shrA p o => rw [exec_shrA, execShrA]; exact binary_eq fun _ => exact_shr _ _
  | shrI p o => rw [exec_shrI, execShrI]; exact shiftImm_eq fun _ => exact_shrI _ hl
  | sarA p o => rw [exec_sarA, execSarA]; exact binary_eq fun _ => exact_sar _ _
  | sarI p o => rw [exec_sarI, execSarI]; exact shiftImm_eq fun _ => exact_sarI _ hl
  | rotA p o => rw [exec_rotA, execRotA]; exact binary_eq fun _ => exact_rotW _ _
  | rotI p o => rw [exec_rotI, execRotI]; exact shiftImm_eq fun _ => exact_rotI _ hl
  | bfxN32 p o => rw [exec_bfxN32, execBfxN32]; exact binary_eq fun _ => exact_bfxN _ _
  | bfxS32 p o => rw [exec_bfxS32, execBfxS32]; exact binary_eq fun _ => exact_bfxS _ _
  | bfi p o => rw [exec_bfi, execBfi]; exact ternary_eq fun _ => exact_bfi _ _ _
  | popc p o => rw [exec_popc, execPopc]; exact unary_eq fun _ => exact_popc _
  | clz p o => rw [exec_clz, execClz]; exact unary_eq fun _ => exact_clz _
  | brev p o => rw [exec_brev, execBrev]; exact unary_eq fun _ => exact_brev _
  | mov p o => rw [exec_mov, execMov]; exact unary_eq fun _ => rfl
  | icmpEq p o => rw [exec_icmpEq, execIcmpEq]; exact binary_eq fun _ => rfl
  | icmpNe p o => rw [exec_icmpNe, execIcmpNe]; exact binary_eq fun _ => congrArg boolWord decide_not.symm
  | icmpLtS32 p o => rw [exec_icmpLtS32, execIcmpLtS32]; exact binary_eq fun _ => rfl
  | icmpLeS32 p o => rw [exec_icmpLeS32, execIcmpLeS32]; exact binary_eq fun _ => rfl
  | icmpLtN32 p o => rw [exec_icmpLtN32, execIcmpLtN32]; exact binary_eq fun _ => rfl
  | icmpLeN32 p o => rw [exec_icmpLeN32, execIcmpLeN32]; exact binary_eq fun _ => rfl
  | sel p o => rw [exec_sel, execSel]; exact ternary_eq fun _ => rfl
  | icmpGtS32 p o => rw [exec_icmpGtS32, execIcmpGtS32]; exact binary_eq fun _ => rfl
  | icmpGeS32 p o => rw [exec_icmpGeS32, execIcmpGeS32]; exact binary_eq fun _ => rfl
  | icmpGtN32 p o => rw [exec_icmpGtN32, execIcmpGtN32]; exact binary_eq fun _ => rfl
  | icmpGeN32 p o => rw [exec_icmpGeN32, execIcmpGeN32]; exact binary_eq fun _ => rfl
  | iaddSatS16 p o => rw [exec_iaddSatS16, execIaddSatS16]; exact binary_eq fun _ => exact_satS16 _
  | iaddSatN16 p o => rw [exec_iaddSatN16, execIaddSatN16]; exact binary_eq fun _ => exact_addSatN16 _ _
  | isubSatS16 p o => rw [exec_isubSatS16, execIsubSatS16]; exact binary_eq fun _ => exact_satS16 _
  | isubSatN16 p o => rw [exec_isubSatN16, execIsubSatN16]; exact binary_eq fun _ => exact_subSatN16 _ _
  | iaddS16 p o => rw [exec_iaddS16, execIaddS16]; exact binary_eq fun _ => half_s_add _ _
  | iaddN16 p o => rw [exec_iaddN16, execIaddN16]; exact binary_eq fun _ => half_n_add _ _
  | isubS16 p o => rw [exec_isubS16, execIsubS16]; exact binary_eq fun _ => half_s_sub _ _
  | isubN16 p o => rw [exec_isubN16, execIsubN16]; exact binary_eq fun _ => half_n_sub _ _
  | imulS16 p o => rw [exec_imulS16, execImulS16]; exact binary_eq fun _ => half_s_mul _ _
  | imulN16 p o => rw [exec_imulN16, execImulN16]; exact binary_eq fun _ => half_n_mul _ _
  | imulSat p o => rw [exec_imulSat, execImulSat]; exact binary_eq fun _ => exact_satS32 _
  | movl p d m => rw [exec_movl, execMovl]; exact computes_congr fun _ => (BitVec.ofNat_toNat 32 m).symm
  | movh p d m => rw [exec_movh, execMovh]; exact computes_congr fun r => exact_movh m (r d)

/-! ## LEA (R94) -/

/-- `issue_go` in the words of the obligations. -/
theorem issue_runs {i : Instr} {n : Need} {body : UView → List Nat → State → State} {s : State} {u : UView}
    {acts : List Nat} (h : Runs i n s u acts) : issue i n body s = .next (parkFailed u (body u acts s)) :=
  issue_go h.1 h.2

theorem toNat_pair (lo hi : Word) : (pair lo hi).toNat = lo.toNat + 2 ^ 32 * hi.toNat := by
  change (hi ++ lo).toNat = _
  rw [BitVec.toNat_append, ← Nat.shiftLeft_add_eq_or_of_lt lo.isLt, Nat.shiftLeft_eq]
  ring

/-- The model's 64-bit sum is LEA's, as a number. -/
theorem toNat_pair_add_signExtend (a0 a1 b : Word) :
    (pair a0 a1 + b.signExtend 64).toNat = leaSum a0 a1 b := by
  rw [BitVec.toNat_add, BitVec.signExtend, BitVec.toNat_ofInt, toNat_pair, leaSum]
  omega

theorem toNat_lo32 (x : Dword) : (lo32 x).toNat = x.toNat % 2 ^ 32 := by
  simp [lo32]

theorem lo32_eq_w32 (x : Dword) : lo32 x = w32 x.toNat := by
  apply BitVec.eq_of_toNat_eq
  rw [toNat_lo32, w32, BitVec.toNat_ofNat]

theorem hi32_eq_w32 (x : Dword) : hi32 x = w32 (x.toNat / 2 ^ 32) := by
  apply BitVec.eq_of_toNat_eq
  simp [hi32, w32, BitVec.extractLsb'_toNat, Nat.shiftRight_eq_div_pow]

theorem exec_lea_lane {o : O3n} {s : State} {u : UView} {acts : List Nat}
    (h : Runs (.lea .lane o) (leaNeed .lane o) s u acts) :
    let s' := setLatches s u .lane (dropReg (latches s u .lane) (o.d.toNat + 1))
    let sum (l : Nat) : Nat := leaSum (vsrc s u o.a l) (vsrc s u (o.a + 1) l) (vsrc s u o.b l)
    exec (.lea .lane o) s = .next (parkFailed u (advance (laneResult o.d false (acts.map fun l => (l, w32 (sum l))) u
      (setVregs s' u (o.d.toNat + 1) (acts.map fun l => (l, w32 (sum l / 2 ^ 32))))) u)) := by
  rw [exec_lea]
  refine (issue_runs h).trans ?_
  simp only [List.map_map, Function.comp_def, lo32_eq_w32, hi32_eq_w32, toNat_pair_add_signExtend]

theorem exec_lea_gang {o : O3n} {s : State} {u : UView} {acts : List Nat}
    (h : Runs (.lea .gang o) (leaNeed .gang o) s u acts) :
    let s' := setLatches s u .gang (dropReg (latches s u .gang) (o.d.toNat + 1))
    let sum : Nat := leaSum (gsrc s u o.a) (gsrc s u (o.a + 1)) (gsrc s u o.b)
    exec (.lea .gang o) s = .next (parkFailed u (advance (gangResult o.d false (w32 sum) u
      (setGreg s' u (o.d.toNat + 1) (w32 (sum / 2 ^ 32)))) u)) := by
  rw [exec_lea]
  refine (issue_runs h).trans ?_
  simp only [lo32_eq_w32, hi32_eq_w32, toNat_pair_add_signExtend]

/-- Settles O5: every row's function is the model's, in each of the two pipes. -/
theorem integerResults : Obligations.IntegerResults := by
  refine ⟨fun i n d f hi s u acts h => ?_, fun p o s u acts h => ?_⟩
  · rw [exec_intWord hi (precheck_limits h.2)]
    exact computes_runs h
  · cases p with
    | lane => exact exec_lea_lane h
    | gang => exact exec_lea_gang h

end Sys2Proof

/-!
PROOF. The byte, hash, generator and cross-lane words compute the rows of `LaneWord` (R103–R105, R110, R113, R114,
R117).
-/

namespace Sys2Proof
open Sys2Proof.Machine Sys2Proof.Claims

/-! ## Bytes (R103) -/

theorem byteOf_eq_byteNo (x : Word) (k : Nat) : byteOf x k = byteNo x k := by
  rw [byteOf, byteNo, Nat.pow_mul]

theorem ofBytes_eq_fromBytes (f : Nat → Nat) : ofBytes f = fromBytes (f 0) (f 1) (f 2) (f 3) := by
  rw [ofBytes, fromBytes]
  congr 1
  ring

theorem exact_byteq (a b : Word) :
    byteq a b = fromBytes (equalByte a b 0) (equalByte a b 1) (equalByte a b 2) (equalByte a b 3) := by
  simp only [byteq, ofBytes_eq_fromBytes, byteOf_eq_byteNo, equalByte]

theorem exact_bperm (a b : Word) :
    bperm a b = fromBytes (permByte a b 0) (permByte a b 1) (permByte a b 2) (permByte a b 3) := by
  simp only [bperm, ofBytes_eq_fromBytes, byteOf_eq_byteNo, permByte]

/-- A search of the four byte numbers, lowest first. -/
theorem find?_byteNumbers (p : Nat → Bool) :
    [0, 1, 2, 3].find? p =
      if p 0 then some 0 else if p 1 then some 1 else if p 2 then some 2 else if p 3 then some 3 else none := by
  split_ifs <;> simp [*]

theorem exact_bfind (a b : Word) : bfind a b = firstEqual a b := by
  simp only [bfind, firstEqual, find?_byteNumbers, byteOf_eq_byteNo]
  split_ifs <;> rfl

/-! ## Hashes (R104, R105) -/

theorem crcBit_eq_crcStep (c : Word) : crcBit c = crcStep c := by
  unfold crcBit crcStep
  split <;> simp

theorem crcByte_eq_crcEight (c : Word) (b : Nat) : crcByte c b = crcEight (c ^^^ w32 b) := by
  simp only [crcByte, crcBit_eq_crcStep]
  rfl

theorem exact_crc (a b : Word) : crcWord a b = crc a b := by
  simp only [crcWord, List.foldl_cons, List.foldl_nil, crcByte_eq_crcEight, byteOf_eq_byteNo, crc]

theorem mul_eq_w32 (x : Word) (k : Nat) : x * BitVec.ofNat 32 k = w32 (x.toNat * k) := by
  rw [w32, BitVec.ofNat_mul, BitVec.ofNat_toNat, BitVec.setWidth_eq]

theorem ushiftRight_eq_w32 (x : Word) (k : Nat) : x >>> k = w32 (x.toNat / 2 ^ k) := by
  rw [w32, ← Nat.shiftRight_eq_div_pow, ← BitVec.toNat_ushiftRight, BitVec.ofNat_toNat, BitVec.setWidth_eq]

theorem exact_hmix (a b : Word) :
    hmix a b =
      let h := w32 ((a ^^^ b).toNat * 0x9E3779B1)
      h ^^^ w32 (h.toNat / 2 ^ 15) := by
  simp only [hmix, mul_eq_w32, ushiftRight_eq_w32]

/-! ## The words of the table -/

theorem binary_lane_runs {i : Instr} {o : O3} {g : Word → Word → Word} {s : State} {u : UView} {acts : List Nat}
    (h : Runs i (need3 .lane o) s u acts) :
    binary i .lane o g s = .next (parkFailed u (advance
      (laneWordResult (need3 .lane o) o.d (fun _ _ r l => g (r l o.a) (r l o.b)) u acts s) u)) := by
  rw [binary]
  exact computes_runs h

/-- SHFL gives each acting lane the A of the lane that `src` names (R114). -/
theorem shuffle_runs {i : Instr} {o : O3} {src : Nat → Nat → Nat → Nat} {s : State} {u : UView} {acts : List Nat}
    (h : Runs i (needShuffle o src) s u acts) :
    shuffle i o src s = .next (parkFailed u (advance (laneWordResult (needShuffle o src) o.d
      (fun u _ r l => r (src u.width l ((r l o.b).toNat % u.width)) o.a) u acts s) u)) :=
  issue_runs h

/-- Row by row, the word leaves what `LaneWord` says. -/
theorem exec_laneWord {i : Instr} {n : Need} {d : BitVec 6}
    {f : UView → List Nat → (Nat → BitVec 6 → Word) → Nat → Word} (hi : LaneWord i n d f) {s : State} {u : UView}
    {acts : List Nat} (h : Runs i n s u acts) :
    exec i s = .next (parkFailed u (advance (laneWordResult n d f u acts s) u)) := by
  cases hi with
  | byteq o => simp only [exec_byteq, execByteq, binary_lane_runs h, exact_byteq]
  | bfind o => simp only [exec_bfind, execBfind, binary_lane_runs h, exact_bfind]
  | bperm o => simp only [exec_bperm, execBperm, binary_lane_runs h, exact_bperm]
  | crcC o => simp only [exec_crcC, execCrcC, binary_lane_runs h, exact_crc]
  | hmix o => simp only [exec_hmix, execHmix, binary_lane_runs h, exact_hmix]
  | shflIdx o => rw [exec_shflIdx]; exact shuffle_runs h
  | shflXor o => rw [exec_shflXor]; exact shuffle_runs h
  | shflUp o => rw [exec_shflUp]; exact shuffle_runs h
  | shflDown o => rw [exec_shflDown]; exact shuffle_runs h
  | matchL o => rw [exec_matchL]; exact issue_runs h

/-! ## The generator (R110) -/

theorem rngStep_eq_nextDraw (x : Dword) : rngStep x = nextDraw x := rfl

theorem genOf_eq_genAt (s : State) (u : UView) (l : Nat) : genOf s u l = genAt s u l := by
  unfold genOf genAt
  cases u.gk.bind (gang? s) <;> rfl

/-- The draw is the low word of the new state. -/
theorem lo32_eq_w32_mod (x : Dword) : lo32 x = w32 (x.toNat % 2 ^ 32) := by
  rw [← toNat_lo32, w32_toNat]

section
variable {s : State} {u : UView} {acts : List Nat}

theorem exec_rngSeed_runs {o : OAB} (h : Runs (.rngSeed o) (seedNeed o) s u acts) :
    exec (.rngSeed o) s = .next (parkFailed u (advance (setGens (acts.map fun l =>
      (l, if pair (vsrc s u o.a l) (vsrc s u o.b l) = 0 then 1
        else pair (vsrc s u o.a l) (vsrc s u o.b l))) u s) u)) := by
  rw [exec_rngSeed]
  exact issue_runs h

theorem exec_rngNext_runs {o : OD} (h : Runs (.rngNext o) (drawNeed o) s u acts) :
    exec (.rngNext o) s = .next (parkFailed u (advance (laneResult o.d o.w
      (acts.map fun l => (l, w32 ((nextDraw (genAt s u l)).toNat % 2 ^ 32))) u
      (setGens (acts.map fun l => (l, nextDraw (genAt s u l))) u s)) u)) := by
  rw [exec_rngNext]
  refine (issue_runs h).trans ?_
  simp only [List.map_map, Function.comp_def, lo32_eq_w32_mod, genOf_eq_genAt, rngStep_eq_nextDraw]

theorem exec_prune_runs {o : O3} (h : Runs (.prune o) (need3 .lane o) s u acts) :
    exec (.prune o) s = .next (parkFailed u (advance (laneResult o.d o.w
      (acts.map fun l =>
        (l, if (nextDraw (genAt s u l)).toNat % 2 ^ 32 < (vsrc s u o.b l).toNat then 0 else vsrc s u o.a l)) u
      (setGens (acts.map fun l => (l, nextDraw (genAt s u l))) u s)) u)) := by
  rw [exec_prune]
  refine (issue_runs h).trans ?_
  simp only [List.map_map, Function.comp_def, BitVec.ult_eq_decide, decide_eq_true_eq, toNat_lo32, genOf_eq_genAt,
    rngStep_eq_nextDraw]

/-! ## BALLOT and BCAST (R113, R117) -/

theorem exec_ballot_runs {o : O3} (h : Runs (.ballot o) (needI .lane o) s u acts) :
    let m := maskOf (acts.filter fun l => vsrc s u o.a l ≠ 0)
    let t := laneResult o.d o.w (acts.map fun l => (l, m)) u s
    exec (.ballot o) s =
      .next (parkFailed u (advance (if o.b.getLsbD 5 then setQreg t u (o.b.toNat % 8) m else t) u)) := by
  rw [exec_ballot]
  exact issue_runs h

theorem exec_bcast_runs {o : O3} (h : Runs (.bcast o) (needBcast o s) s u acts) :
    exec (.bcast o) s = .next (parkFailed u
      (advance (laneResult o.d o.w (acts.map fun l => (l, vsrc s u o.a o.b.toNat)) u s) u)) := by
  rw [exec_bcast]
  exact issue_runs h

end

/-- Settles O7: each row's function is the model's, and the generator, ballot and broadcast words go through their
opening. -/
theorem laneWordResults : Obligations.LaneWordResults :=
  ⟨fun _ _ _ _ hi _ _ _ => exec_laneWord hi,
    ⟨fun _ _ _ _ => exec_rngSeed_runs, fun _ _ _ _ => exec_rngNext_runs, fun _ _ _ _ => exec_prune_runs⟩,
    fun _ _ _ _ => exec_ballot_runs, fun _ _ _ _ => exec_bcast_runs⟩

end Sys2Proof
